-- ==== Sys2Proof/Word.lean ====
section
/-! DEFINITION. The word types of Thyne and the one shape that every sparse store of the machine has: a
list of (key, value) pairs. The operations on such a list stand in Sys2Proof/Machine/Map.lean. -/

namespace Sys2Proof

/-- A 32-bit register value (R39). -/
abbrev W32 := BitVec 32
/-- A 64-bit value: an x-pair, a PC, an address, an instruction word (R40, R167). -/
abbrev W64 := BitVec 64
/-- One byte of memory (R8). -/
abbrev Byte := BitVec 8
/-- A format tag (R47). -/
abbrev Tag := BitVec 4

/-- A sparse store: pairs of key and value, keys strictly rising, no value equal to the default that an
unlisted key reads as. -/
abbrev Map (α : Type) := List (Nat × α)

end Sys2Proof
end

