-- ==== Sys2Proof/Machine/Map.lean ====
section
/-! DEFINITION. The operations on a sparse store (Map): reading with a default, writing, erasing, and the canonical form
that makes equal stores equal lists. -/

namespace Sys2Proof

variable {α : Type}

/-- The value at key `i`, and `d` where the store lists none. -/
def Map.get (d : α) : Map α → Nat → α
  | [], _ => d
  | (k, v) :: m, i => if i = k then v else Map.get d m i

/-- The value at key `i`, if one is listed. -/
def Map.find : Map α → Nat → Option α
  | [], _ => none
  | (k, v) :: m, i => if i = k then some v else Map.find m i

/-- Writes `x` at key `i`, in key order. -/
def Map.put : Map α → Nat → α → Map α
  | [], i, x => [(i, x)]
  | (k, v) :: m, i, x =>
    if i < k then (i, x) :: (k, v) :: m
    else if i = k then (i, x) :: m
    else (k, v) :: Map.put m i x

/-- Removes key `i`. -/
def Map.erase : Map α → Nat → Map α
  | [], _ => []
  | (k, v) :: m, i => if i = k then Map.erase m i else (k, v) :: Map.erase m i

/-- Writes `x` at key `i` of a store whose unlisted keys read `d`: a value equal to `d` is not listed. -/
def Map.set [DecidableEq α] (d : α) (m : Map α) (i : Nat) (x : α) : Map α :=
  if x = d then Map.erase m i else Map.put m i x

/-- Applies `f` to every listed value. -/
def Map.mapVal {β : Type} (f : Nat → α → β) (m : Map α) : Map β :=
  m.map (fun e => (e.1, f e.1 e.2))

/-- The listed keys. -/
def Map.keys (m : Map α) : List Nat := m.map (·.1)

/-- Keys strictly rising. -/
def Map.sorted : Map α → Bool
  | [] => true
  | [_] => true
  | (a, _) :: (b, v) :: m => decide (a < b) && Map.sorted ((b, v) :: m)

/-- The canonical form: keys strictly rising, no entry equal to the default. -/
def Map.wf [DecidableEq α] (d : α) (m : Map α) : Bool :=
  m.sorted && m.all (fun e => !decide (e.2 = d))

/-- The first `n` values from key `i` on. -/
def Map.getRange (d : α) (m : Map α) (i : Nat) : Nat → List α
  | 0 => []
  | n + 1 => Map.get d m i :: Map.getRange d m (i + 1) n

/-- Writes a list of values at consecutive keys from `i` on. -/
def Map.setRange [DecidableEq α] (d : α) (m : Map α) (i : Nat) : List α → Map α
  | [] => m
  | x :: xs => Map.setRange d (Map.set d m i x) (i + 1) xs

end Sys2Proof
end

