-- ==== Sys2Proof/Syntax.lean ====
section
/-! DEFINITION. The whole syntax of Thyne: the seven instruction forms of R170 to R176 and one constructor for every row of the
opcode table, its events among them. -/

namespace Sys2Proof

/-- The fields that stand in every instruction word (R167): uniform bit, guard predicate, guard negation. -/
structure Head where
  u : Bool
  g : BitVec 3
  n : Bool
  deriving DecidableEq, Repr

/-- W form (R170): two sources. `fn` is bits [9:0]: type [9:6], variant [5:2], SAT [1] and a zero bit, except in ATOM (R251). -/
structure WForm where
  h : Head
  d : BitVec 7
  a : BitVec 7
  b : BitVec 7
  ra : BitVec 9
  rb : BitVec 9
  edge : BitVec 2
  fn : BitVec 10
  deriving DecidableEq, Repr

/-- V form (R171): three sources; bit 0 is always 0. In CAS, `ra` holds the order, the scope and the width (R254). -/
structure VForm where
  h : Head
  d : BitVec 7
  a : BitVec 7
  b : BitVec 7
  c : BitVec 7
  ra : BitVec 9
  rb : BitVec 9
  rcs : BitVec 2
  edge : BitVec 2
  deriving DecidableEq, Repr

/-- I form (R172): one source and a 28-bit immediate. -/
structure IForm where
  h : Head
  d : BitVec 7
  a : BitVec 7
  ra : BitVec 9
  imm : BitVec 28
  deriving DecidableEq, Repr

/-- M form (R173): scratchpad memory. -/
structure MForm where
  h : Head
  d : BitVec 7
  b : BitVec 7
  rd : BitVec 9
  ord : BitVec 3
  sco : BitVec 3
  off : BitVec 22
  deriving DecidableEq, Repr

/-- C form (R174): control. -/
structure CForm where
  h : Head
  off : BitVec 24
  tag : BitVec 8
  a : BitVec 7
  deriving DecidableEq, Repr

/-- E form (R175): engine commands. `sig` is bit 45, `wait` bit 19 and `wid` bits [18:15]. -/
structure EForm where
  h : Head
  fn : BitVec 5
  sig : Bool
  tb : BitVec 4
  a : BitVec 7
  b : BitVec 7
  c : BitVec 7
  wait : Bool
  wid : BitVec 4
  x : BitVec 15
  deriving DecidableEq, Repr

/-- S form (R176): system. -/
structure SForm where
  h : Head
  fn : BitVec 10
  d : BitVec 7
  a : BitVec 7
  sys : BitVec 12
  imm : BitVec 15
  deriving DecidableEq, Repr

/-- A write to a function's PCIe configuration space (R399, R402): MSI-X Enable, or VF Enable of SR-IOV on function 0. -/
inductive ConfigWrite where
  | msix (on : Bool) | vf (on : Bool)
  deriving DecidableEq, Repr

/-- One constructor per row of the opcode table: the instructions with their form's fields, then the events
of the part with the data that the outside world or the schedule supplies. -/
inductive Instr where
  /-- NOP (R189). Does nothing under any guard. -/
  | nop (f : VForm)
  /-- BRA (R236). Branches to a header at a signed word offset. -/
  | bra (f : CForm)
  /-- CALL (R237). Checks the target header, writes the link and branches. -/
  | call (f : CForm)
  /-- JMPI (R238). Jumps to the address in an x-pair, checking its landing tag. -/
  | jmpi (f : CForm)
  /-- CALLI (R238). Calls the address in an x-pair, checking its landing tag and writing the link. -/
  | calli (f : CForm)
  /-- RET (R239). Returns to %lk, which must be a return-continuation header. -/
  | ret (f : CForm)
  /-- EXIT (R240). Waits for any subordinates, leaves the group and ends the thread. -/
  | exit (f : CForm)
  /-- YIELD (R241). Continues at the next header and makes the thread unready for 32 cycles. -/
  | yield (f : CForm)
  /-- TRAP (R244). Traps SOFT with a code. -/
  | trap (f : IForm)
  /-- BRK (R244). Traps BREAK with a number. -/
  | brk (f : IForm)
  /-- HOLDX (R242). Pops the top hold-stack entry and continues at the next header. -/
  | holdx (f : CForm)
  /-- SLEEP (R243). Blocks the thread for n core cycles. -/
  | sleep (f : IForm)
  /-- ADD (R191). Adds integers per element, wrapping or saturating. -/
  | add (f : WForm)
  /-- SUB (R191). Subtracts integers per element, wrapping or saturating. -/
  | sub (f : WForm)
  /-- MUL (R192). Multiplies integers, giving the low or the high half. -/
  | mul (f : WForm)
  /-- MAD (R193). Computes a times b plus c modulo 2^32. -/
  | mad (f : VForm)
  /-- MADHI_I (R193). Adds c to the signed high product half. -/
  | madhiI (f : VForm)
  /-- MADHI_N (R193). Adds c to the unsigned high product half. -/
  | madhiN (f : VForm)
  /-- DIV (R194). Divides integers, truncating toward zero, with defined edge cases. -/
  | div (f : WForm)
  /-- REM (R194). Takes the integer remainder, which has the sign of the dividend. -/
  | rem (f : WForm)
  /-- MIN (R195). Gives the smaller element. -/
  | min (f : WForm)
  /-- MAX (R195). Gives the larger element. -/
  | max (f : WForm)
  /-- ABSD (R195). Gives the absolute difference of the elements. -/
  | absd (f : WForm)
  /-- ADDI (R196). Adds a sign-extended 28-bit immediate. -/
  | addi (f : IForm)
  /-- MULI (R196). Multiplies by a sign-extended 28-bit immediate. -/
  | muli (f : IForm)
  /-- ADDC (R197). Adds with a carry predicate in and out. -/
  | addc (f : WForm)
  /-- SUBB (R197). Subtracts with a borrow predicate in and out. -/
  | subb (f : WForm)
  /-- SAD (R198). Adds the sum of absolute byte differences to c. -/
  | sad (f : VForm)
  /-- AND (R199). Bitwise and. -/
  | and (f : WForm)
  /-- OR (R199). Bitwise or. -/
  | or (f : WForm)
  /-- XOR (R199). Bitwise xor. -/
  | xor (f : WForm)
  /-- ANDN (R199). Bitwise a and not b. -/
  | andn (f : WForm)
  /-- SHL (R200). Shifts left by a masked register amount. -/
  | shl (f : WForm)
  /-- SHR (R200). Shifts right logically. -/
  | shr (f : WForm)
  /-- SAR (R200). Shifts right arithmetically. -/
  | sar (f : WForm)
  /-- ROTL (R200). Rotates left. -/
  | rotl (f : WForm)
  /-- ANDI (R199). Ands with an immediate. -/
  | andi (f : IForm)
  /-- ORI (R199). Ors with an immediate. -/
  | ori (f : IForm)
  /-- XORI (R199). Xors with an immediate. -/
  | xori (f : IForm)
  /-- SHI (R201). Shifts or rotates 32 bits by an immediate amount. -/
  | shi (f : IForm)
  /-- FUNNEL (R202). Right funnel shift of the pair A:B. -/
  | funnel (f : VForm)
  /-- BFX (R203). Extracts a bit field, signed or unsigned. -/
  | bfx (f : WForm)
  /-- BFI (R203). Inserts a bit field. -/
  | bfi (f : VForm)
  /-- BITOP (R204). Population count, leading or trailing zero count, or bit reverse. -/
  | bitop (f : WForm)
  /-- SETP (R206). Compares two registers into a predicate. -/
  | setp (f : WForm)
  /-- SETPI (R207). Compares a register with an immediate into a predicate. -/
  | setpi (f : IForm)
  /-- PLOGIC (R208). Combines two predicates through a truth table. -/
  | plogic (f : WForm)
  /-- SEL (R209). Selects a or b by a predicate. -/
  | sel (f : VForm)
  /-- PMOV (R210). Moves predicates to or from registers. -/
  | pmov (f : WForm)
  /-- VOTE (R212). Group collective vote on a predicate. -/
  | vote (f : WForm)
  /-- MATCH (R213). Group collective matching of equal values. -/
  | matchG (f : WForm)
  /-- PERMB (R205). Permutes bytes by selector nibbles. -/
  | permb (f : WForm)
  /-- LEA (R214). Adds a shifted index to a base address. -/
  | lea (f : WForm)
  /-- MOVI (R215). Loads a sign-extended 28-bit constant. -/
  | movi (f : IForm)
  /-- MOVIH (R215). Sets the top four bits of a constant. -/
  | movih (f : IForm)
  /-- MOV (R216). Copies a register, possibly routed, with or without its tag. -/
  | mov (f : WForm)
  /-- MOVX (R216). Copies an x-pair. -/
  | movx (f : WForm)
  /-- FADD (R217). Floating-point add. -/
  | fadd (f : WForm)
  /-- FSUB (R217). Floating-point subtract. -/
  | fsub (f : WForm)
  /-- FMUL (R217). Floating-point multiply. -/
  | fmul (f : WForm)
  /-- FFMA (R218). Fused f32 multiply-add, rounded RNE. -/
  | ffma (f : VForm)
  /-- FMIN (R217). Floating-point minimum. -/
  | fmin (f : WForm)
  /-- FMAX (R217). Floating-point maximum. -/
  | fmax (f : WForm)
  /-- FUNARY (R220). ABS, NEG, FLOOR, CEIL, TRUNC or RINT. -/
  | funary (f : WForm)
  /-- FSPECIAL (R221). Reciprocal, square-root and transcendental functions of f32. -/
  | fspecial (f : WForm)
  /-- FCLASS (R222). Classifies a floating value into a one-hot mask. -/
  | fclass (f : WForm)
  /-- FMULI (R219). Multiplies by an f32 immediate. -/
  | fmuli (f : IForm)
  /-- HADD2 (R223). Packed 16-bit floating add. -/
  | hadd2 (f : WForm)
  /-- HMUL2 (R223). Packed 16-bit floating multiply. -/
  | hmul2 (f : WForm)
  /-- HFMA2 (R224). Packed f16 fused multiply-add. -/
  | hfma2 (f : VForm)
  /-- BFMA2 (R224). Packed bf16 fused multiply-add. -/
  | bfma2 (f : VForm)
  /-- HMIN2 (R223). Packed 16-bit floating minimum. -/
  | hmin2 (f : WForm)
  /-- HMAX2 (R223). Packed 16-bit floating maximum. -/
  | hmax2 (f : WForm)
  /-- HDOT2 (R225). f16x2 dot product accumulated into f32. -/
  | hdot2 (f : VForm)
  /-- BDOT2 (R225). bf16x2 dot product accumulated into f32. -/
  | bdot2 (f : VForm)
  /-- IDOT4 (R225). Signed byte dot product with accumulate. -/
  | idot4 (f : VForm)
  /-- IDOT4N (R225). Unsigned byte dot product with accumulate. -/
  | idot4n (f : VForm)
  /-- CVT (R226). Converts between scalar types. -/
  | cvt (f : WForm)
  /-- PACK2 (R227). Packs two sources into a packed type. -/
  | pack2 (f : WForm)
  /-- UNPACK (R228). Extracts one element of a packed value. -/
  | unpack (f : WForm)
  /-- BFPQ (R229). Quantizes a block of lanes to a BFP mantissa or scale. -/
  | bfpq (f : WForm)
  /-- BFPD (R230). Decodes a BFP mantissa and scale to a floating value. -/
  | bfpd (f : WForm)
  /-- TAGSET (R231). Writes a value with a named tag. -/
  | tagset (f : WForm)
  /-- TAGGET (R231). Reads the tag of a register. -/
  | tagget (f : WForm)
  /-- REDUCE (R267). Group reduction by the rank-order tree. -/
  | reduce (f : WForm)
  /-- SCAN (R267). Group inclusive or exclusive scan. -/
  | scan (f : WForm)
  /-- JOIN (R257). Joins a group, leaving the previous one. -/
  | join (f : IForm)
  /-- LEAVE (R258). Leaves the current group and empties the hold stack. -/
  | leave (f : IForm)
  /-- BARA (R260). Arrives at a named barrier without waiting. -/
  | bara (f : IForm)
  /-- BARS (R262). Arrives at a barrier and waits for its generation. -/
  | bars (f : IForm)
  /-- BARW (R262). Waits for a barrier generation without arriving. -/
  | barw (f : IForm)
  /-- LEND (R300). Sets the group's LEND flag. -/
  | lend (f : IForm)
  /-- RECRUIT (R116). Recruits idle contexts as subordinates and opens a recruitment record. -/
  | recruit (f : EForm)
  /-- ITER (R121). Ends the current iteration and hands out the next index. -/
  | iter (f : WForm)
  /-- CONTRIB (R122). Deposits a value for the current iteration and runs the fold. -/
  | contrib (f : WForm)
  /-- RJOIN (R123). Waits for the subordinates, finishes the fold and frees the record. -/
  | rjoin (f : IForm)
  /-- RECLAIM (R300). Clears the LEND flag and marks borrowed subordinates for release. -/
  | reclaim (f : IForm)
  /-- RGET (R35). Acquires register granules up to a level, blocking if the pool is short. -/
  | rget (f : IForm)
  /-- RPUT (R35). Returns register granules above a level. -/
  | rput (f : IForm)
  /-- DISPENSE (R269). Hands out the next dispenser coordinate. -/
  | dispense (f : WForm)
  /-- LD8 (R246). Loads a byte, zero-extended. -/
  | ld8 (f : MForm)
  /-- LD8S (R246). Loads a byte, sign-extended. -/
  | ld8s (f : MForm)
  /-- LD16 (R246). Loads a halfword, zero-extended. -/
  | ld16 (f : MForm)
  /-- LD16S (R246). Loads a halfword, sign-extended. -/
  | ld16s (f : MForm)
  /-- LD32 (R246). Loads a word. -/
  | ld32 (f : MForm)
  /-- LD64 (R246). Loads a doubleword into an x-pair. -/
  | ld64 (f : MForm)
  /-- LD128 (R246). Loads 16 bytes into four registers. -/
  | ld128 (f : MForm)
  /-- ST8 (R247). Stores a byte. -/
  | st8 (f : MForm)
  /-- ST16 (R247). Stores a halfword. -/
  | st16 (f : MForm)
  /-- ST32 (R247). Stores a word. -/
  | st32 (f : MForm)
  /-- ST64 (R247). Stores a doubleword. -/
  | st64 (f : MForm)
  /-- ST128 (R247). Stores 16 bytes. -/
  | st128 (f : MForm)
  /-- ATOM (R253). Indivisible read-modify-write on scratchpad. -/
  | atom (f : WForm)
  /-- CAS (R254). Compare-and-swap on scratchpad. -/
  | cas (f : VForm)
  /-- FENCE (R104). Orders the thread's accesses at a scope. -/
  | fence (f : SForm)
  /-- NTDRAIN (R110). Waits until non-temporal lines and copies are performed at a scope. -/
  | ntdrain (f : SForm)
  /-- RMAP (R277). Binds a region slot to a scratchpad and global range. -/
  | rmap (f : EForm)
  /-- RUNMAP (R278). Writes back a region and unbinds it. -/
  | runmap (f : EForm)
  /-- WBACK (R278). Writes back a region's dirty lines. -/
  | wback (f : EForm)
  /-- CPY (R279). Queues a copy between scratchpad and global memory. -/
  | cpy (f : EForm)
  /-- CPYD (R281). Queues a strided, gather or scatter copy from a descriptor. -/
  | cpyd (f : EForm)
  /-- ACPY (R283). Queues a copy between the accumulator store and scratchpad. -/
  | acpy (f : EForm)
  /-- GATOM (R284). Queues an atomic on global memory. -/
  | gatom (f : EForm)
  /-- SEMWAIT_TAKE (R285). Waits until a semaphore reaches n and subtracts n. -/
  | semwaitTake (f : EForm)
  /-- SEMWAIT_EQ (R285). Waits until a semaphore equals n. -/
  | semwaitEq (f : EForm)
  /-- SEMPOST (R285). Adds n to a semaphore as a device-scope release. -/
  | sempost (f : EForm)
  /-- TBINIT (R86). Opens a new round of a transfer barrier. -/
  | tbinit (f : EForm)
  /-- TBWAIT (R286). Waits for a transfer barrier to complete. -/
  | tbwait (f : EForm)
  /-- TBTEST (R286). Reads the state of a transfer barrier. -/
  | tbtest (f : EForm)
  /-- SJOIN (R90). Joins a share set at a rank. -/
  | sjoin (f : EForm)
  /-- SLEAVE (R91). Leaves the share set and revokes the windows. -/
  | sleave (f : EForm)
  /-- MFENCE (R106). Waits until the operands are ready for the matrix engine. -/
  | mfence (f : EForm)
  /-- MMA (R130). Queues a matrix operation and returns its ticket. -/
  | mma (f : EForm)
  /-- MWAIT (R290). Waits for matrix operations up to a ticket and delivers faults. -/
  | mwait (f : EForm)
  /-- MPROG_PROG (R292). Reads the progress and status of a matrix queue entry. -/
  | mprogProg (f : EForm)
  /-- MPROG_COPY (R292). Writes the MPB image of a matrix queue entry. -/
  | mprogCopy (f : EForm)
  /-- MPROG_LAST (R292). Returns the last ticket issued. -/
  | mprogLast (f : EForm)
  /-- MSTOP (R144). Stops the matrix engine at a K-block boundary. -/
  | mstop (f : EForm)
  /-- MRESUME (R292). Releases the stop, and the head operation resumes. -/
  | mresume (f : EForm)
  /-- MRESUME_LOAD (R292). Appends an MPB image to the stopped queue. -/
  | mresumeLoad (f : EForm)
  /-- MRESUME_TICK (R292). Sets the instance's ticket counter. -/
  | mresumeTick (f : EForm)
  /-- ACLR (R291). Queues clearing of accumulator rows and their overflow bits. -/
  | aclr (f : EForm)
  /-- CVCLR (R148). Queues a clear of the coverage tile. -/
  | cvclr (f : EForm)
  /-- CVPATH (R150). Queues the deposit of a path stream. -/
  | cvpath (f : EForm)
  /-- CVSCAN (R157). Queues a scan into spans or a clip operation. -/
  | cvscan (f : EForm)
  /-- CVBOX (R163). Folds a control point into a tile box. -/
  | cvbox (f : WForm)
  /-- CVSTOP (R162). Stops the coverage engine. -/
  | cvstop (f : EForm)
  /-- CVRESUME (R294). Releases the coverage engine's stop. -/
  | cvresume (f : EForm)
  /-- CVSAVE_IMG (R294). Saves the coverage-engine memory. -/
  | cvsaveImg (f : EForm)
  /-- CVSAVE_CTL (R294). Saves the coverage control record. -/
  | cvsaveCtl (f : EForm)
  /-- CVSAVE_Q (R295). Saves the coverage queue entries. -/
  | cvsaveQ (f : EForm)
  /-- CVLOAD_IMG (R294). Loads the coverage-engine memory. -/
  | cvloadImg (f : EForm)
  /-- CVLOAD_CTL (R294). Loads the coverage control record. -/
  | cvloadCtl (f : EForm)
  /-- CVLOAD_Q (R295). Loads the coverage queue entries. -/
  | cvloadQ (f : EForm)
  /-- MFS (R301). Reads a system register. -/
  | mfs (f : SForm)
  /-- MTS (R301). Writes a system register that has no row of its own. -/
  | mts (f : SForm)
  /-- ERET (R303). Returns from a trap to %tpc at %tlev. -/
  | eret (f : SForm)
  /-- WFI (R305). Waits for a masked pending event. -/
  | wfi (f : SForm)
  /-- QBIND (R307). Binds a queue to a hardware slot. -/
  | qbind (f : SForm)
  /-- QUNBIND (R307). Unbinds a slot, draining or pre-empting its launches. -/
  | qunbind (f : SForm)
  /-- KPEND (R306). Returns and clears the next pending kick. -/
  | kpend (f : SForm)
  /-- IPI (R308). Sends an interprocessor interrupt or a pre-emption. -/
  | ipi (f : SForm)
  /-- IFLUSH (R304). Invalidates instruction-cache lines. -/
  | iflush (f : SForm)
  /-- EVT_WRITE (R302). MTS to %evt clears the event bits written as 1. -/
  | evtWrite (f : SForm)
  /-- BCNT_WRITE (R260). MTS to a %bcnt register, possibly completing the generation. -/
  | bcntWrite (f : SForm)
  /-- TCTX_WRITE (R341). MTS to %tctx writes thread state in restore state. -/
  | tctxWrite (f : SForm)
  /-- TSAVE_WRITE (R357). MTS to %tsave writes the thread block to staging. -/
  | tsaveWrite (f : SForm)
  /-- TLOAD_WRITE (R358). MTS to %tload reinstates the thread from a staging block. -/
  | tloadWrite (f : SForm)
  /-- SPHASE_WRITE (R359). MTS to %sphase as a core-scope release. -/
  | sphaseWrite (f : SForm)
  /-- DUMP (R342). %sctl operation that starts a save dump once the copies drain. -/
  | dump (core : Nat)
  /-- DUMPD (R342). %sctl operation that dumps, detaching parked commands. -/
  | dumpd (core : Nat)
  /-- LOAD (R342). %sctl operation that reinstates the header state and enters restore state. -/
  | load (core : Nat)
  /-- RUN (R342). %sctl operation that leaves restore and saving state. -/
  | run (core : Nat)
  /-- FREE (R342). %sctl operation that ends every thread and frees the core. -/
  | free (core : Nat)
  /-- DUMP_IMAGE_WRITE (R342). Writes the header and group table to staging once the wait ends. -/
  | dumpImageWrite (core : Nat)
  /-- PREEMPT_DELIVERY (R344). A received IPI makes the core's KL threads trap PREEMPT. -/
  | preemptDelivery (core : Nat)
  /-- SEGMENT_GUARD (R18). A segment starved for 16 issue cycles takes port 1. -/
  | segmentGuard (core slot : Nat)
  /-- THREAD_AGE_GUARD (R18). A thread starved for 64 issue cycles takes port 1. -/
  | threadAgeGuard (core slot : Nat)
  /-- HOLD_TIMEOUT (R21). A held thread pops after 256 issue cycles with no arrival. -/
  | holdTimeout (core tid : Nat)
  /-- SLEEP_EXPIRE (R243). A sleeping thread becomes ready after n cycles. -/
  | sleepExpire (core tid : Nat)
  /-- YIELD_EXPIRE (R241). A yielding thread becomes ready after 32 cycles. -/
  | yieldExpire (core tid : Nat)
  /-- BARTIMEOUT (R264). A barrier wait with no arrival for 2^24 cycles traps. -/
  | bartimeout (core tid : Nat)
  /-- SUBORDINATE_KILL (R126). A marked subordinate with no ITER within 4,096 cycles is killed under REISSUE. -/
  | subordinateKill (core tid : Nat)
  /-- LOAD_DATA_RETURN (R249). A load's data returns and its registers are written. -/
  | loadDataReturn (core tid : Nat)
  /-- LINE_FILL_COMPLETE (R80). A region line fill ends, leaving the line valid-clean or failed. -/
  | lineFillComplete (core line : Nat) (memErr : Bool)
  /-- LINE_WRITEBACK_COMPLETE (R88). A region line write-back ends, or fails. -/
  | lineWritebackComplete (core line : Nat) (memErr : Bool)
  /-- FORWARDED_WRITE_PERFORM (R81). A write forwarded from a write-through region is performed, or fails. -/
  | forwardedWritePerform (core region : Nat) (memErr : Bool)
  /-- NT_WRITEBACK (R81). The map unit writes back a non-temporal dirty line of its own accord. -/
  | ntWriteback (core line : Nat) (memErr : Bool)
  /-- PROMOTION_REQUEST (R101). A remote acquire makes a core write back lines dirtied before its last release. -/
  | promotionRequest (core : Nat)
  /-- ICACHE_FILL (R168). An instruction-cache miss is filled, or traps COPYERR. -/
  | icacheFill (core line : Nat) (memErr : Bool)
  /-- COPY_START (R275). A queued copy-unit command starts once its wait and ranges allow. -/
  | copyStart (core id : Nat)
  /-- COPY_RETIRE (R87). A copy command retires, freeing its entries and signalling its barrier. -/
  | copyRetire (core id : Nat) (memErr : Bool)
  /-- SEMWAIT_SUCCEED (R285). A semaphore wait finds its condition and performs its step. -/
  | semwaitSucceed (core id : Nat) (memErr : Bool)
  /-- SEMPOST_PERFORM (R285). A semaphore post is performed once R99 allows. -/
  | sempostPerform (core id : Nat) (memErr : Bool)
  /-- DISPENSER_CLAIM (R31). A core's chunk claim on a dispenser counter completes. -/
  | dispenserClaim (core disp : Nat)
  /-- SHARE_REVOCATION (R91). Window revocation takes effect after the pending accesses are performed. -/
  | shareRevocation (core : Nat)
  /-- MATRIX_OP_START (R131). A matrix operation at the queue head passes its wait and checks its MPB. -/
  | matrixOpStart (core : Nat)
  /-- MATRIX_KBLOCK (R141). The engine folds one K-block into every element. -/
  | matrixKblock (core : Nat)
  /-- MATRIX_OP_END (R131). A matrix operation completes or faults and writes its status. -/
  | matrixOpEnd (core : Nat)
  /-- COV_COMMAND_START (R146). A coverage command at the queue head passes its wait and runs. -/
  | covCommandStart (core : Nat)
  /-- COV_PATH_RECORD (R150). The coverage engine deposits one path record. -/
  | covPathRecord (core : Nat)
  /-- PAGE_WALK_COMPLETE (R390). A page walk completes, translating or faulting its commands. -/
  | pageWalkComplete (die idx : Nat)
  /-- FQHEAD_WRITE (R393). The servicer consumes fault records, freeing room for waiting faults. -/
  | fqheadWrite (die : Nat) (value : W32)
  /-- FRESP_RETRY (R394). A fault response that makes the parked commands walk again. -/
  | frespRetry (die : Nat) (token : W32)
  /-- FRESP_FAIL (R394). A fault response that makes the parked commands fail. -/
  | frespFail (die : Nat) (token : W32)
  /-- INVCMD (R391). Starts an invalidation of a PASID range. -/
  | invcmd (value : W64)
  /-- INVALIDATION_COMPLETE (R391). An invalidation finishes and BUSY clears. -/
  | invalidationComplete
  /-- MIGGO (R396). Starts a page migration. -/
  | miggo (value : W32)
  /-- MIGRATION_ROUND (R396). A migration copy round ends, replacing the page or abandoning the round. -/
  | migrationRound
  /-- ATS_TRANSLATION_COMPLETION (R398). The host's ATS translation response arrives. -/
  | atsTranslationCompletion (idx hostPage : Nat) (readable writable : Bool)
  /-- PRI_RESPONSE (R398). A page request response arrives. -/
  | priResponse (idx : Nat) (success : Bool)
  /-- ATS_INVALIDATE_REQUEST (R398). The host's invalidate request is served. -/
  | atsInvalidateRequest (pasid va len : Nat)
  /-- KWR_WRITE (R365). A host kick writes a queue's write index. -/
  | kwrWrite (func off size : Nat) (value : W64)
  /-- QUEUE_LOOKAHEAD (R372). The look-ahead reads accepted packets, buffers and descriptors. -/
  | queueLookahead (slot : Nat) (memErr : Bool)
  /-- LAUNCH_PACKET (R375). Checks the descriptor, selects a variant and starts the logical cores. -/
  | launchPacket (slot : Nat) (memErr : Bool)
  /-- CALL_PACKET (R370). Enters a called packet buffer. -/
  | callPacket (slot : Nat)
  /-- RETURN_PACKET (R370). Ends the current called buffer. -/
  | returnPacket (slot : Nat)
  /-- JOIN_PACKET (R373). Resumes the look-ahead with acquire. -/
  | joinPacket (slot : Nat)
  /-- COND_PACKET (R374). Skips packets when a predicate word is 0. -/
  | condPacket (slot : Nat) (memErr : Bool)
  /-- SIGNAL_PACKET (R374). Writes or adds to memory as a system-scope release. -/
  | signalPacket (slot : Nat) (memErr : Bool)
  /-- WAIT_PACKET (R374). Blocks the queue until a memory condition holds. -/
  | waitPacket (slot : Nat)
  /-- WAIT_SATISFIED (R374). A waiting packet finds its condition and completes. -/
  | waitSatisfied (slot : Nat) (memErr : Bool)
  /-- WAIT_TIMEOUT (R374). A waiting packet times out with TIMEOUT. -/
  | waitTimeout (slot : Nat)
  /-- FRAME_PACKET (R427). Commits a frame buffer for a grid instant or completes LATE. -/
  | framePacket (slot : Nat)
  /-- NOP_PACKET (R374). Completes at once. -/
  | nopPacket (slot : Nat)
  /-- INSTANCE_END (R376). After its last thread exits, an instance writes back, drains and releases. -/
  | instanceEnd (core : Nat)
  /-- CORE_ALLOCATION (R378). A free core is given to the slot that waits with the highest priority. -/
  | coreAllocation (core : Nat)
  /-- LAUNCH_WATCHDOG (R376). The watchdog expires and every thread traps WATCHDOG. -/
  | launchWatchdog (slot : Nat)
  /-- TICK (R379). The %tick interval elapses and raises TICK. -/
  | tick (cc : Nat)
  /-- GANG_TICK (R353). The gang tick pre-empts the old tenant for a switch. -/
  | gangTick (part : Nat)
  /-- SAVE_DEADLINE (R354). A missed save deadline discards the switch. -/
  | saveDeadline (part : Nat)
  /-- PRESTOP (R354). After repeated misses, a pre-stop PREEMPT is sent 200 µs before the tick. -/
  | prestop (part : Nat)
  /-- PARK_THRESHOLD (R355). A wait on a parked command exceeds the threshold, and the instance may be parked. -/
  | parkThreshold (core : Nat)
  /-- APPLY (R419). Applies the partition table and the function map. -/
  | apply (value : W32)
  /-- ACTIVATE (R423). Activates new firmware by a warm start. -/
  | activate (value : W32)
  /-- DIERESET (R424). Resets one compute die. -/
  | diereset (value : W32) (directoryAnswers : Bool)
  /-- RSTSTAT_READ (R416). Reading RSTSTAT clears the die-reset bits. -/
  | rststatRead
  /-- MMIO_REGISTER_WRITE (R392). A write to a device-page register that has no row of its own. -/
  | mmioRegisterWrite (func off size : Nat) (value : W64)
  /-- BAR2_ACCESS (R400). A host read or posted write of device memory through BAR2. -/
  | bar2Access (write : Bool) (addr : Nat) (bytes : List Byte)
  /-- TELEMETRY_REFRESH (R422). Telemetry fields refresh every millisecond. -/
  | telemetryRefresh
  /-- FRAME_EMIT (R427). Emission of a committed frame starts at its instant. -/
  | frameEmit (stream : Nat)
  /-- FRAME_SUBSTITUTE (R428). Re-sends the last frame through WARP for an instant with no committed frame. -/
  | frameSubstitute (stream : Nat)
  /-- BOOTCTL_WARM_START (R410). BOOTCTL command for a warm start. -/
  | bootctlWarmStart
  /-- BOOTCTL_COLD_START (R410). BOOTCTL command for a cold start. -/
  | bootctlColdStart
  /-- POWER_ON (R410). Power-on starts a cold start. -/
  | powerOn
  /-- FUNDAMENTAL_RESET (R410). PCIe Fundamental Reset starts a cold start. -/
  | fundamentalReset
  /-- HOT_RESET (R410). Hot Reset resets only the link. -/
  | hotReset
  /-- LINK_DOWN (R424). The link goes down, and host writes in flight are lost. -/
  | linkDown
  /-- FLR (R402). Function-level reset of a function's configuration and MSI-X. -/
  | flr (func : Nat)
  /-- SURPRISE_REMOVAL (R429). The device is removed while the others keep emitting. -/
  | surpriseRemoval
  /-- START_TIMEOUT (R412). A start without READY within its limit fails and falls back. -/
  | startTimeout
  /-- RDMA_WRITE (R405). An inbound RDMA WRITE, performed at .sys before its ACK. -/
  | rdmaWrite (qp : Nat) (rkey : W32) (va : W64) (bytes : List Byte)
  /-- RDMA_READ (R405). An inbound RDMA READ is answered. -/
  | rdmaRead (qp : Nat) (rkey : W32) (va : W64) (len : Nat)
  /-- SEND (R405). An inbound SEND fills a receive buffer. -/
  | send (qp : Nat) (psn : W32) (bytes : List Byte)
  /-- RDMA_ACK (R407). The ACK for an outbound write arrives and may retire the copy. -/
  | rdmaAck (qp : Nat)
  /-- RDMA_READ_RESPONSE (R407). A read response for a window source copy is written locally. -/
  | rdmaReadResponse (qp : Nat) (bytes : List Byte)
  /-- RDMA_NAK (R404). An outbound request receives a NAK. -/
  | rdmaNak (qp : Nat)
  /-- RDMA_ACK_TIMEOUT (R404). The ACK timeout expires, causing a retry or a queue-pair error. -/
  | rdmaAckTimeout (qp : Nat)
  /-- PTP_MESSAGE (R408). A PTP message is timestamped at the MAC. -/
  | ptpMessage (port : Nat) (offset : Int)
  /-- DOE_DISCOVERY (R399). A DOE discovery request. -/
  | doeDiscovery (index : Nat)
  /-- GET_VERSION (R414). SPDM GET_VERSION request. -/
  | getVersion (mctp : Bool)
  /-- GET_CAPABILITIES (R414). SPDM GET_CAPABILITIES request. -/
  | getCapabilities (mctp : Bool)
  /-- NEGOTIATE_ALGORITHMS (R414). SPDM NEGOTIATE_ALGORITHMS request, accepting only P-521 and SHA-512. -/
  | negotiateAlgorithms (mctp offersP521 offersSha512 : Bool)
  /-- GET_DIGESTS (R414). SPDM GET_DIGESTS request. -/
  | getDigests (mctp : Bool)
  /-- GET_CERTIFICATE (R414). SPDM GET_CERTIFICATE request for slot 0. -/
  | getCertificate (mctp : Bool) (slot off len : Nat)
  /-- CHALLENGE (R414). SPDM CHALLENGE request. -/
  | challenge (mctp : Bool) (slot : Nat) (nonce : Nat)
  /-- GET_MEASUREMENTS (R414). SPDM signed GET_MEASUREMENTS request. -/
  | getMeasurements (mctp : Bool) (block : Nat) (nonce : Nat)
  /-- PLDM_TYPE0_REQUEST (R415). PLDM Type 0 base request over the side-band. -/
  | pldmType0Request
  /-- PLDM_SENSOR_READ (R415). PLDM Type 2 sensor read. -/
  | pldmSensorRead (sensor : Nat)
  /-- PLDM_FIRMWARE_UPDATE (R415). PLDM Type 5 write of a flash image component. -/
  | pldmFirmwareUpdate (pcie : Bool) (component : Nat) (image : List Byte)
  /-- READY (R410). A start reaches its last step and READY rises, clearing FAILS and raising vector 65. -/
  | ready
  /-- LINK_UP (R410). The PCIe link trains again after a link-down or Hot Reset, and host writes can reach the device once more. -/
  | linkUp
  /-- FLR_COMPLETE (R402). A function-level reset completes within 100 ms, and kick writes to the function are accepted again. -/
  | flrComplete (func : Nat)
  /-- DIE_RESET_COMPLETE (R424). A compute-die reset finishes, RSTSTAT BUSY clears, and the die's cores become free again. -/
  | dieResetComplete (die : Nat)
  /-- CONFIGURATION_REQUEST (R402). A PCIe configuration write, such as enabling MSI-X again after an FLR. -/
  | configurationRequest (func : Nat) (write : ConfigWrite)
  /-- WINDOW_ACCESS_ACCEPTED (R77). The owning core's bank accepts an access through a share-set window, which ends the R249 stall and performs the access at .set scope. -/
  | windowAccessAccepted (core tid : Nat)
  /-- PORT_LINK_CHANGE (R422). An Ethernet port's link goes up or down, changing the PORTS bit in MODTEL. -/
  | portLinkChange (port : Nat) (up : Bool)
  /-- PFC_PAUSE_FRAME (R403). A priority flow control frame arrives and pauses or resumes transmission on a priority. -/
  | pfcPauseFrame (port priority : Nat) (pause : Bool)
  /-- ECN_MARK (R403). A congestion notification derived from ECN marks arrives, and congestion control reacts to it. -/
  | ecnMark (port : Nat)
  /-- MAIN_POWER_LOSS (R415). The main side loses power while the side-band port stays up on standby power, and sensors without standby power read unavailable. -/
  | mainPowerLoss
  /-- UNCORRECTABLE_ERROR (R424). An uncorrectable or fatal error strikes a core or a die, leading to core retirement or a firmware die reset. -/
  | uncorrectableError (core : Nat) (fatal : Bool)
  /-- DROOP_EVENT (R422). A supply droop on a die is counted in DROOPS, and the control loops adjust voltage and frequency. -/
  | droopEvent (die : Nat)
  deriving DecidableEq, Repr

end Sys2Proof
end

