-- ==== Sys2Proof/Machine/State.lean ====
section
/-! DEFINITION. The state of a Prexo Q4 as plain data: the threads, the cores with their engines, the compute dies, the queue
engines, the host side, and the model's own fields. Every sparse store (Map) reads a fixed default where it lists nothing. -/

namespace Sys2Proof.Machine

/-! ### Threads -/

/-- Privilege levels (R184, R334). -/
inductive Level where
  | kl | sl | cl
  deriving DecidableEq, Repr

/-- A context: never launched, holding a live thread, or left by a thread that exited (R12, R16, R38). -/
inductive Life where
  | never | live | exited
  deriving DecidableEq, Repr

/-- Who delivers a register result that is due (R16, R77, R87, R249): the data of a load, by its issue; a copy-unit command; or an
instruction that has issued and still waits. -/
inductive PendSrc where
  | load (issue : Nat) | cmd (id : Nat) | stall
  deriving DecidableEq, Repr

/-- An entry of the register scoreboard (R168): register `reg` awaits a result. A load's value is already read (`val`, `tag`);
`err` is the address of a COPYERR that the first reader takes (R88). -/
structure Pend where
  reg : Nat
  src : PendSrc
  val : W32 := 0
  tag : Tag := 2
  err : Option W64 := none
  deriving DecidableEq, Repr

/-- A wait record of BARS or BARW (R265), with the PC it belongs to; `past` once the generation it awaits has completed (R262). -/
structure WaitRec where
  bar : Nat
  grp : Nat
  gen : Bool
  pc : W64
  past : Bool := false
  deriving DecidableEq, Repr

/-- What a release or a drain in progress still waits for (R99, R110): lines, forwarded writes and commands by number. -/
structure RelSet where
  lines : List Nat := []
  fwds : List Nat := []
  cmds : List Nat := []
  deriving DecidableEq, Repr

/-- A subordinate's own state (R114 to R126): its record, its number, the group whose LEND flag alone made its context eligible,
its entry header, what its context held before, the core clock of its release mark, and whether it has executed ITER since. -/
structure Sub where
  rid : Nat
  num : Nat
  lend : Option Nat
  entry : W64
  prev : Life
  mark : Option Nat := none
  iterated : Bool := false
  deriving DecidableEq, Repr

/-- A collective's result kept for a member that was not at its instruction when the instance completed (R211, R343). -/
structure CollRes where
  val : W64
  fpf : BitVec 4 := 0
  satc : Bool := false
  deriving DecidableEq, Repr

/-- Why a live thread does not issue (R16, R234). A wait with a condition ends when the condition holds, and the instruction then
issues again at the same PC. -/
inductive Wait where
  /-- instruction fetch of a cache line (R168) -/
  | fetch (line : Nat)
  /-- another lane's target line, for a lane of one transfer that does not need it (R182, R185) -/
  | fetchSet (line : Nat)
  /-- registers (thread, register) with a result due (R16) -/
  | regs (keys : List (Nat × Nat))
  /-- a write of v1 to v31 of a principal whose subordinates live (R119) -/
  | princ
  /-- scratchpad bytes (core, offset, size) stalled under R249: the thread's own and those of the whole issue -/
  | mem (own all : List (Nat × Nat × Nat))
  /-- an access through a share-set window, not yet accepted (R77); bytes as in `mem` -/
  | window (own all : List (Nat × Nat × Nat))
  /-- a release or drain whose set is not empty (R99, R104, R110) -/
  | release
  /-- a promotion not yet acknowledged (R101, R104) -/
  | promote
  /-- an acquiring GATOM already issued, until it has been performed (R94) -/
  | order (id : Nat)
  /-- room in the copy unit: commands and range entries (R83, R275) -/
  | copyQueue (cmds entries : Nat)
  /-- room in the matrix queue (R131) -/
  | matQueue
  /-- room in the coverage queue (R146) -/
  | covQueue
  /-- BARS or BARW (R262), since a core clock -/
  | bar (b since : Nat)
  /-- a second arrival at barrier 0 (R261), since a core clock -/
  | bar0 (since : Nat)
  /-- a group collective (R211, R266) and its destination -/
  | coll (d : Nat)
  /-- a dispenser chunk (R270) -/
  | disp (n : Nat)
  /-- RGET (R36) -/
  | rget (k : Nat)
  /-- RPUT waits for writes to the released registers (R272) -/
  | rput (regs : List (Nat × Nat))
  /-- RJOIN (R123) -/
  | rjoin
  /-- ITER (R121) -/
  | iter
  /-- EXIT of a principal (R125) -/
  | exitSubs
  /-- SLEEP until a core clock (R243) -/
  | sleep (till : Nat)
  /-- YIELD until a core clock (R241) -/
  | yield (till : Nat)
  /-- QBIND, until the page of its QCB has been answered (R307, R385, R393) -/
  | page (va : Nat)
  /-- TBWAIT (R286) -/
  | tb (t : Nat)
  /-- SEMWAIT, a command in flight (R285) -/
  | sem (id : Nat)
  /-- SLEAVE (R91), with its destination -/
  | sleave (d : Nat)
  /-- MWAIT, by the ticket that it waits for (R131) -/
  | mwait (ticket : W32)
  /-- WFI (R305) -/
  | wfi (mask : Nat)
  /-- QUNBIND (R307) -/
  | qunbind (slot : Nat)
  /-- RMAP over a range with scoreboard entries (R277) -/
  | rmap (lo hi : Nat)
  deriving DecidableEq, Repr

/-- A thread context (R12, R27, R39 to R44, R340, R341, R356). `kept` holds the operands of an instruction that waits after its
issue (R37, R67, R68, R249); `batch` the issue whose lane order a global atomic that waits for room keeps (R284); `order` the acquiring
GATOM whose order a trap handler has set aside (R94, R113); `fenced` after a FENCE.rel, which makes its relaxed writes releases (R104). `acqAt` is the
core's count of stores at the thread's last acquire, `seen` the counts of the stores that it has read since (R95, R96). -/
structure Thread where
  st : Life := .never
  exitGrp : Option (Nat × Nat) := none
  v : Map W32 := []
  tags : Map Tag := []
  p : BitVec 8 := 1
  pc : W64 := 0
  blk : Option (W64 × W64) := none
  vec : Bool := false
  hold0 : W64 := 0
  hold1 : W64 := 0
  hold2 : W64 := 0
  hold3 : W64 := 0
  heldFor : Nat := 0
  waitFor : Nat := 0
  lk : W64 := 0
  fpf : BitVec 4 := 0
  status : BitVec 2 := 0
  level : Level := .kl
  tcause : W32 := 0
  tpc : W64 := 0
  tval : W64 := 0
  tlev : W32 := 0
  save : W64 := 0
  sscr0 : W64 := 0
  sscr0t : Tag × Tag := (2, 2)
  sscr1 : W64 := 0
  sscr1t : Tag × Tag := (2, 2)
  sscr2 : W64 := 0
  sscr2t : Tag × Tag := (2, 2)
  tcval : W64 := 0
  rgrant : W32 := 0
  rcause : W32 := 0
  grp : Option Nat := none
  arr0 : Bool := false
  arrC : Bool := false
  arrN : Bool := false
  wrec : Option WaitRec := none
  collRes : Option CollRes := none
  block : Option Wait := none
  pend : List Pend := []
  sub : Option Sub := none
  iter : Option Nat := none
  relSet : Option RelSet := none
  ntCmds : List Nat := []
  acqLines : List Nat := []
  order : Option Nat := none
  fenced : Bool := false
  acqAt : Nat := 0
  seen : Map Nat := []
  promo : List Nat := []
  acq : Bool := false
  winOk : Bool := false
  kept : Option (List (List (W32 × Tag))) := none
  batch : Option Nat := none
  preempt : Option W64 := none
  wdog : Option W64 := none
  deriving DecidableEq, Repr

/-! ### Cores -/

/-- A phrase (R14): extension level (R34) and, per segment, the issue cycles without an issue of that segment (R18). -/
structure Phrase where
  xlev : BitVec 2 := 0
  segWait : Map Nat := []
  deriving DecidableEq, Repr

/-- A blocked RGET in a slot's order of issue (R36). -/
structure RgetReq where
  phrase : Nat
  k : Nat
  deriving DecidableEq, Repr

/-- An open collective (R266): the opcode and FN[9:0] it fixed. -/
structure Coll where
  op : Nat
  fn : BitVec 10
  deriving DecidableEq, Repr

/-- A group (R23, R45, R346). `inc` tells apart groups that took one id in turn; `last` is the core clock of the last arrival at a
barrier (R264). -/
structure Group where
  members : List Nat := []
  inc : Nat := 0
  lend : Bool := false
  coll : Option Coll := none
  b0gen : Bool := false
  bcnt : Map W32 := []
  last : Map Nat := []
  deriving DecidableEq, Repr

/-- A DISPENSE that waits for a chunk (R31, R270): the threads that take the index, the destination, the predicate. -/
structure DispReq where
  targets : List Nat
  d : Nat
  p : Nat
  deriving DecidableEq, Repr

/-- A dispenser of an instance (R30 to R33, R345); the unclaimed indices are `next` up to `fin`, modulo 2^32 (log 101); `queue` holds the
waiting DISPENSEs in order of issue. -/
structure Disp where
  x : W32 := 0
  y : W32 := 0
  chunk : W32 := 1
  next : W32 := 0
  fin : W32 := 0
  k : W32 := 0
  claiming : Bool := false
  dry : Bool := false
  queue : List DispReq := []
  deriving DecidableEq, Repr

/-- The first trap of a core that the firmware entry ends (R338), with the core's clock and the PTP time. -/
structure TrapRep where
  cause : Nat
  tid : Nat
  tpc : W64
  tval : W64
  clock : Nat := 0
  time : Nat := 0
  deriving DecidableEq, Repr

/-- What the image has no place for of a detached command (R94, R113, R284): the order in X, its issue, the threads that issued it. -/
structure Detached where
  x : Nat := 0
  batch : Nat
  targets : List Nat
  deriving DecidableEq, Repr

/-- What a saved instance keeps that its image has no place for (R113, log 111): the lines with the non-temporal mark, the lines of each
thread's relaxed reads (R104), the threads after a FENCE.rel (R104), the words replaced since the last MFENCE (R106), the detached commands in image order, the dispensers whose index space is used up (R33), the row of each matrix operation's overflow by
ticket (R134), the time that the instance has run (R339). -/
structure Carry where
  nt : List Nat := []
  acq : Map (List Nat) := []
  fenced : List Nat := []
  old : Map W32 := []
  parked : List Detached := []
  dry : List Nat := []
  rows : Map Nat := []
  ran : Nat := 0
  deriving DecidableEq, Repr

/-- The instance on a core (R26 to R29, R43, R321, R322, R361): `restored` from the start of a restore to its RUN; `reported` once the
core has posted its save report (R362), `refused` when it posted 2; `parking` and `gang` as the PREEMPT said (R339); the fault
records (die, token) of the commands that DUMPD detached (R355); `ending` once its last thread has exited, `flushed` once its regions'
dirty lines are on their way (R376). -/
structure Inst where
  lcore : W32 := 0
  ncore : W32 := 0
  launch : W64 := 0
  param : W64 := 0
  var : W32 := 0
  codebase : W64 := 0
  w : Nat := 64
  t : Nat := 0
  det : Bool := false
  tagchk : Bool := false
  unichk : Bool := false
  norec : Bool := false
  barto : Bool := false
  replay : Bool := false
  disp : Map Disp := []
  pasid : Nat := 0
  part : Nat := 0
  slot : Nat := 0
  qcb : W64 := 0
  save : W64 := 0
  shadow : W64 := 0
  start : Nat := 0
  trap : Option TrapRep := none
  restored : Bool := false
  reported : Bool := false
  refused : Bool := false
  parking : Bool := false
  gang : Bool := false
  detached : List (Nat × Nat) := []
  carry : Carry := {}
  ending : Bool := false
  flushed : Bool := false
  deriving DecidableEq, Repr

/-- A region slot (R78). -/
structure Region where
  spbase : W32 := 0
  size : W32 := 0
  va : W64 := 0
  ctl : W32 := 0
  status : W32 := 0
  failva : W64 := 0
  deriving DecidableEq, Repr

/-- A line of local scratchpad (R80, R82, R109): the state of R82, a fill in progress and whether it must be made again (R100), the
non-temporal mark, a write-back asked for. -/
structure Line where
  st : Nat := 0
  filling : Bool := false
  refill : Bool := false
  nt : Bool := false
  wback : Bool := false
  deriving DecidableEq, Repr

/-- Where a page lies: device memory at its BAR2 address, or host memory (R388, R400). -/
structure Loc where
  host : Bool
  addr : Nat
  deriving DecidableEq, Repr

/-- A cached leaf translation (R389): the device address of its table entry, and the partition that owns its PASID (R420). -/
structure Xlat where
  pasid : Nat
  va : Nat
  size : Nat
  loc : Loc
  w : Bool
  leaf : Option Nat := none
  part : Nat := 0
  deriving DecidableEq, Repr

/-- How far a translation that a command or map-unit operation needs has come (R88, R390, R393). -/
inductive XSt where
  | idle | walking | parked (die token : Nat) | failed (addr : Nat)
  deriving DecidableEq, Repr

/-- What the map unit does for a line (R80, R81, R168): a fill, a write-back, a forwarded write, an instruction fetch. -/
inductive MKind where
  | fill (line : Nat) (nt : Bool)
  | wback (line : Nat)
  | fwd (region : Nat) (bytes : List Byte) (nt : Bool)
  | ifetch
  deriving DecidableEq, Repr

/-- A map-unit operation in progress. `early` are the 16-byte chunks of a fill or a write-back that it has moved before the others (R97);
`counted` once it has counted its write (R395). -/
structure MOp where
  id : Nat
  kind : MKind
  pasid : Nat
  va : Nat
  xs : XSt := .idle
  xl : List Xlat := []
  early : Map (List Byte) := []
  counted : Bool := false
  deriving DecidableEq, Repr

/-- A range scoreboard entry (R83), rounded to 16 bytes. -/
structure Rng where
  lo : Nat
  hi : Nat
  wr : Bool
  deriving DecidableEq, Repr

/-- One end of a move: a global address, an offset of the scratchpad map, or columns of an accumulator row with the conversion of
R283. -/
inductive Side where
  | glob (va : Nat) | spad (off : Nat) | acc (row col conv : Nat)
  deriving DecidableEq, Repr

/-- Bytes that a command moves: `n` bytes at the destination. -/
structure CMove where
  src : Side
  dst : Side
  n : Nat
  deriving DecidableEq, Repr

/-- A command of the copy unit (R85, R275, R348): its operands as issued, the moves it makes (`desc` while the index list of a CPYD is still to be read), what it waits for, the translations it
holds, its data once it has started. `batch` is the first command of its issue; `raw` reads scratchpad without line states (R342); `aside` for one of the firmware's (R113);
`wrote` once a chunk has been written (R97); `hold` keeps it until RUN (R342); `asked` are the cores a promotion asked (R101); `fills` are the lines it waits for (R280);
`cleared` are the accumulator elements that an ACLR has cleared (R97); `acqAt` is its thread's last acquire, as of its issue (R105). -/
structure Cmd where
  id : Nat
  op : Nat
  fn : Nat := 0
  tid : Nat
  targets : List Nat := []
  reg : Nat := 0
  wide : Bool := false
  a : W64 := 0
  b : W64 := 0
  c : W64 := 0
  x : Nat := 0
  sig : Option Nat := none
  wait : Option Nat := none
  pasid : Nat
  raw : Bool := false
  aside : Bool := false
  batch : Nat := 0
  hold : Bool := false
  started : Bool := false
  ranges : List Rng := []
  moves : List CMove := []
  desc : List W32 := []
  data : List (Option (List Byte)) := []
  src : List Xlat := []
  xs : XSt := .idle
  rel : Option RelSet := none
  asked : Option (List Nat) := none
  fills : List (Nat × Nat) := []
  fails : Option W64 := none
  revoked : Bool := false
  done : Nat := 0
  wrote : Bool := false
  cleared : List Nat := []
  acqAt : Nat := 0
  deriving DecidableEq, Repr

/-- A transfer barrier (R86). -/
structure TBar where
  excess : Bool := false
  fail : Bool := false
  complete : Bool := true
  gen : Bool := false
  done : BitVec 16 := 0
  expected : BitVec 16 := 0
  deriving DecidableEq, Repr

/-- A matrix queue entry (R131 to R134, R292): the words copied at the head or taken from an image, the offset of its MPB, its wait
and signal, its progress and status, the rows that its gather uses, what it overflowed, a fault it has met. While it runs, `part` are
its elements as folded so far and `base` those that it found (R107). -/
structure MatOp where
  words : List W32 := []
  image : Bool := false
  started : Bool := false
  stopped : Bool := false
  ticket : W32 := 0
  home : Nat := 0
  sig : Option Nat := none
  wait : Option Nat := none
  kdone : Nat := 0
  status : W32 := 0
  rows : List Nat := []
  ovf : Bool := false
  ovfRow : Option Nat := none
  fault : Option W32 := none
  base : Map W32 := []
  part : Option (Map W32) := none
  deriving DecidableEq, Repr

/-- A coverage queue entry (R146, R295); `old` are the words that thread stores have replaced since its issue, or before it without an
order, as they were (R105); `early` the words of its output that it has written before the others (R108). -/
structure CovCmd where
  op : Nat
  fn : Nat
  opa : W32
  opb : W32
  sig : Option Nat := none
  wait : Option Nat := none
  skip : Bool := false
  started : Bool := false
  old : Map W32 := []
  early : List Nat := []
  deriving DecidableEq, Repr

/-- The coverage engine (R147, R148): its control record, its memory by 32-bit word, its queue; `halt` while CVSTOP holds it. -/
structure Cov where
  ox : W32 := 0
  oy : W32 := 0
  status : Byte := 0
  faulted : Bool := false
  stopped : Bool := false
  depth : BitVec 3 := 0
  size : BitVec 2 := 0
  recidx : W32 := 0
  stream : W32 := 0
  next : W32 := 0
  limit : W32 := 0
  curx : W32 := 0
  cury : W32 := 0
  subx : W32 := 0
  suby : W32 := 0
  havept : Bool := false
  openSub : Bool := false
  frec : W32 := 0
  freason : W32 := 0
  cmem : Map W32 := []
  queue : List CovCmd := []
  halt : Bool := false
  deriving DecidableEq, Repr

/-- A recruitment record (R116, R128). -/
structure RecRec where
  tid : Nat := 0
  fflags : BitVec 4 := 0
  reissue : Bool := false
  failed : Bool := false
  release : Bool := false
  live : Bool := false
  op : Nat := 0
  creg : Nat := 0
  fcause : Nat := 0
  failoff : Nat := 0
  next : W32 := 0
  count : W32 := 0
  oldest : W32 := 0
  acc : W32 := 0
  done : W32 := 0
  failk : W32 := 0
  deriving DecidableEq, Repr

/-- A reorder-window entry (R121, R129). -/
structure WinEnt where
  rid : Nat := 0
  st : Nat := 0
  val : Bool := false
  off : Nat := 0
  value : W32 := 0
  deriving DecidableEq, Repr

/-- The newest thread store to a word of a core's scratchpad: the word before and after it, who made it (core × 2048 + thread), and its place
among the core's memory instructions and stores (R96). -/
structure Recent where
  old : W32
  new : W32
  writers : List Nat
  stamp : Nat
  deriving DecidableEq, Repr

/-- A core, physical (0 to 207) or control (208 to 215). `ipis` are the PREEMPT values of interrupts sent and not yet delivered (R308);
`unfenced` are the words that thread stores have replaced since the last MFENCE, as they were (R106); `recent` the newest thread store
to a word (R96), `seq` the count of memory instructions and stores; `sphaseSet` once an MTS has written %sphase (R359);
`errs` the PTP times of its uncorrectable errors, `outNext` asks for its retirement at the next start (R417). -/
structure Core where
  inst : Option Inst := none
  threads : Map Thread := []
  phrases : Map Phrase := []
  rgetQ : Map (List RgetReq) := []
  rr : Map Nat := []
  clock : Nat := 0
  tvec : W32 := 0
  fwEntry : W64 := 0
  fwRestore : W64 := 0
  sphase : W32 := 0
  sphaseSet : Bool := false
  saving : Bool := false
  restore : Bool := false
  busy : Option Nat := none
  groups : Map Group := []
  nextInc : Nat := 0
  scratch : Map Byte := []
  staging : Map Byte := []
  regions : Map Region := []
  lines : Map Line := []
  mops : List MOp := []
  promoReq : Bool := false
  promoLines : List Nat := []
  cmds : List Cmd := []
  nextId : Nat := 0
  tbs : Map TBar := []
  acc : Map W32 := []
  ovf : BitVec 512 := 0
  unfenced : Map W32 := []
  recent : Map Recent := []
  seq : Nat := 0
  mq : List MatOp := []
  mstop : Bool := false
  mticket : W32 := 0
  mfaults : List (W32 × W32) := []
  cov : Cov := {}
  recs : Map RecRec := []
  window : Map WinEnt := []
  icache : Map (List W64) := []
  sset : Option (Nat × Nat) := none
  leaving : Option (List (Nat × Nat)) := none
  evt : BitVec 6 := 0
  tickIv : BitVec 24 := 0
  tickLeft : Nat := 0
  kpendAt : Option Nat := none
  ipis : List W64 := []
  tlb : List Xlat := []
  halted : Bool := false
  retired : Bool := false
  outNext : Bool := false
  errs : List Nat := []
  deriving DecidableEq, Repr

/-! ### Dies -/

/-- Who waits for a translation: a command, a map-unit operation, the issue stage of a slot, or its look-ahead at 64 + slot; a page that
the queue engines ask for outside these stages, for a partition or for the device (R385, R426); the RDMA engine, which parks nothing
(R405). -/
inductive User where
  | cmd (core id : Nat) | mop (core id : Nat) | queue (stage : Nat)
  | page (part : Option Nat) (pasid page acc : Nat)
  | rdma
  deriving DecidableEq, Repr

/-- A translation that a user needs: of an address, for an access of R393; parked on a fault record since a time (R355). -/
structure Need where
  user : User
  va : Nat
  acc : Nat
  since : Nat := 0
  deriving DecidableEq, Repr

/-- A page walk under way (R389, R390). `stale` asks for a new start after an invalidation. -/
structure Walk where
  pasid : Nat
  va : Nat
  users : List Need
  stale : Bool := false
  deriving DecidableEq, Repr

/-- A page that the queue engines have asked for: who asks, how far its translation has come, and the bytes that are still to be
stored there (R385, R393, R398). -/
structure Asked where
  user : User
  xs : XSt := .walking
  bytes : List (Nat × Byte) := []
  deriving DecidableEq, Repr

/-- A cached pointer to a table of level `lvl` (R389). -/
structure Ptr where
  pasid : Nat
  lvl : Nat
  va : Nat
  table : Nat
  deriving DecidableEq, Repr

/-- An unanswered fault record (R393, R394), the time it was written, the size of its page, and the users parked on it. -/
structure FRec where
  token : Nat
  time : Nat
  pasid : Nat
  va : Nat
  size : Nat := 65536
  acc : Nat
  reason : Nat
  slot : Nat
  users : List Need
  deriving DecidableEq, Repr

/-- A fault that waits for room in the ring (R393). -/
structure FWait where
  user : User
  pasid : Nat
  va : Nat
  size : Nat := 65536
  acc : Nat
  reason : Nat
  src : Nat
  deriving DecidableEq, Repr

/-- A die (R389 to R394, R416, R422, R424): a compute die 0 to 3, or the I/O die, which has caches and walkers alone. -/
structure Die where
  dtlb : List Xlat := []
  ptrs : List Ptr := []
  walks : List Walk := []
  pendWalks : List (Nat × Need) := []
  waiting : List FWait := []
  fqbase : W64 := 0
  fqsize : W32 := 0
  fqtail : W32 := 0
  fqhead : W32 := 0
  faults : List FRec := []
  nextToken : Nat := 1
  temp : BitVec 16 := 0
  vcore : BitVec 16 := 0
  freq : BitVec 16 := 0
  throt : BitVec 16 := 0
  droops : W32 := 0
  refresh : BitVec 16 := 0
  ecc : BitVec 16 := 0
  serdes : BitVec 16 := 0
  resetting : Bool := false
  wasReset : Bool := false
  deriving DecidableEq, Repr

/-! ### Queues -/

/-- A packet that the look-ahead has read (R372): its 64 bytes, none after an unrecoverable error; the descriptor of a LAUNCH; its
level. -/
structure LaPkt where
  bytes : Option (List Byte)
  desc : Option (List Byte) := none
  lvl : Nat
  deriving DecidableEq, Repr

/-- A level of CALL: address of the packet in progress or next, packets left, the status so far, the IRQ bit of the called CALL that
opened it (R367, R369, R371). -/
structure CallLev where
  addr : Nat
  left : Nat
  status : Nat := 0
  irq : Bool := false
  deriving DecidableEq, Repr

/-- Where a logical core of a launch stands (R367, R375 to R378): not started, on a core, ended, saved, parked until some fault records
(die, token) are answered, its restore refused, lost in a reset. -/
inductive LcSt where
  | waiting | running (core : Nat) | ended | saved | parked (recs : List (Nat × Nat)) | refused | aborted
  deriving DecidableEq, Repr

/-- A launch in flight (R375, R376, R421): its descriptor and its address, its packet's fields, the selection, its logical cores, the
physical cores of a DET launch, the shared dispenser counters, the watchdog and the time run, the first trap, whether further logical
cores may start (R338), whether the watchdog has expired, whether a reset has interrupted it (R380), what its saved logical cores carry
beside their images. -/
structure Launch where
  desc : List Byte := []
  addr : W64 := 0
  param : W64 := 0
  var : Nat := 0
  nofit : Bool := false
  ncore : Nat := 0
  cores : List LcSt := []
  place : List Nat := []
  disp : List Nat := [0, 0, 0]
  wdog : Nat := 0
  ran : Nat := 0
  trap : Option (Nat × TrapRep) := none
  closed : Bool := false
  expired : Bool := false
  abort : Bool := false
  carry : Map Carry := []
  deriving DecidableEq, Repr

/-- What the device holds of a queue that is not bound, by its QCB: the ring and the cursor it stopped at, with the statuses of the levels
and the packets that a COND has still to skip (R371, R374, R377), and a LAUNCH that was pre-empted. -/
structure Kept where
  ring : Nat := 0
  commit : Nat := 0
  stack : List CallLev := []
  skip : Nat := 0
  launch : Option Launch := none
  deriving DecidableEq, Repr

/-- What a slot's issue stage is doing with its packet (R372, R374): nothing, a launch, a WAIT until some PTP time, a FRAME. -/
inductive Phase where
  | idle | launch | wait (till : Option Nat) | frame
  deriving DecidableEq, Repr

/-- How the LAUNCH at a queue's cursor resumes (R377, R380): as a new one, after a pre-emption, after a reset. -/
inductive Resume where
  | fresh | saved | reset
  deriving DecidableEq, Repr

/-- A completion record to be written: SEQ, STATUS, IRQ (R371). -/
structure CRec where
  seq : W64
  status : Nat
  irq : Bool
  deriving DecidableEq, Repr

/-- A hardware slot and its queue engine (R365 to R379). `stack` and `laStack` hold the innermost level first; `head` is the level-0
CALL in progress; `laPkt` is a LAUNCH read whose descriptor is not; `xs` and `src` are the translation of the issue stage, `laXs` and `laSrc` that of the look-ahead; `unbinding` is the
pre-empt flag of a QUNBIND under way. -/
structure Slot where
  prio : BitVec 3 := 0
  bound : Bool := false
  qcb : W64 := 0
  ring : Nat := 0
  rsize : Nat := 0
  cring : Nat := 0
  crsize : Nat := 0
  func : Nat := 0
  qnum : Nat := 0
  part : Nat := 0
  pasid : Nat := 0
  save : W64 := 0
  shadow : W64 := 0
  commit : Nat := 0
  write : Nat := 0
  read : Nat := 0
  crwr : Nat := 0
  stack : List CallLev := []
  laStack : List CallLev := []
  la : List LaPkt := []
  laPkt : Option LaPkt := none
  laJoin : Bool := false
  pkt : Option LaPkt := none
  head : Option CRec := none
  skip : Nat := 0
  phase : Phase := .idle
  launch : Option Launch := none
  record : Option CRec := none
  resume : Resume := .fresh
  ran : Nat := 0
  unbinding : Option Bool := none
  draining : Bool := false
  preempting : Bool := false
  err : Nat := 0
  xs : XSt := .idle
  src : List Xlat := []
  laXs : XSt := .idle
  laSrc : List Xlat := []
  deriving DecidableEq, Repr

/-! ### The device -/

/-- A page migration (R396): `armed` is the leaf entry that the watch is on and its WVER, `pend` the writes (core, command) that this WVER
counts and that the round waits for, `saw` an increment seen by the watch, `migSet` the MIG bit set, `drain` the new place of a page already replaced whose old frame is still in use. -/
structure Mig where
  pasid : W32 := 0
  va : W64 := 0
  dst : W64 := 0
  busy : Bool := false
  abandons : Nat := 0
  result : Byte := 0
  armed : Option (Nat × Nat) := none
  pend : List (Nat × Nat) := []
  saw : Bool := false
  migSet : Bool := false
  drain : Option (Nat × Nat) := none
  deriving DecidableEq, Repr

/-- An outstanding ATS translation or page request (R398); `inbound` are the queue pairs whose inbound access asked for it, and whether
it writes (R405). -/
structure AtsReq where
  pasid : Nat
  va : Nat
  die : Nat
  users : List Need
  inbound : List (Nat × Bool) := []
  deriving DecidableEq, Repr

/-- An outbound RDMA request of a copy (R404, R406, R407): its window's queue pair, remote address and key, its first packet's number, the
bytes that are acknowledged or received, when it was last sent, and its retries after timeouts and after RNR NAKs. -/
structure RdmaReq where
  qp : Nat
  addr : Nat
  rkey : W32 := 0
  core : Nat
  cmd : Nat
  write : Bool
  psn : Nat := 0
  done : Nat := 0
  got : List Byte := []
  since : Nat := 0
  retries : Nat := 0
  rnr : Nat := 0
  deriving DecidableEq, Repr

/-- The packets that a queue pair has sent and taken since it became ready (R405). -/
structure QpSeq where
  sent : Nat := 0
  taken : Nat := 0
  deriving DecidableEq, Repr

/-- A packet of an outbound request as a port sends it (R403 to R406). -/
structure Pkt where
  port : Nat
  smac : List Byte
  dmac : Nat
  dip : Nat
  dqpn : Nat
  psn : Nat
  write : Bool
  addr : Nat
  rkey : W32
  len : Nat
  data : List Byte := []
  deriving DecidableEq, Repr

/-- A partition in force (R418, R419). -/
structure Part where
  slices : BitVec 64 := 0
  slots : BitVec 64 := 0
  cc : Nat := 0
  share : Nat := 1
  hbmw : Nat := 1
  gang : Bool := false
  tick : Nat := 2000
  deadline : Nat := 50
  lateSave : W32 := 0
  deriving DecidableEq, Repr

/-- A gang of partitions that time-share slices, named by its lowest partition (R353, R354): the tenant that runs, the ticks of its
round that are left, the time of its last tick, whether a switch is under way, the commits still to be posted, consecutive
misses, whether this tick's pre-stop was sent. -/
structure Gang where
  tenant : Nat := 0
  left : Nat := 0
  since : Nat := 0
  switching : Bool := false
  commits : Option (List (Nat × Nat)) := none
  misses : Nat := 0
  prestop : Bool := false
  deriving DecidableEq, Repr

/-- The start-up logic (R410 to R412); `since` is the time of the start, `stuck` the stay in the ROM after an invalid recovery image. -/
structure Boot where
  ready : Bool := false
  recovery : Bool := false
  start : BitVec 2 := 0
  fails : BitVec 4 := 0
  phase : Byte := 0
  error : BitVec 16 := 0
  raiseSvn : Bool := false
  since : Nat := 0
  stuck : Bool := false
  deriving DecidableEq, Repr

/-- A function's PCIe side (R400 to R402): FLR under way, MSI-X enabled, masked vectors, pending vectors, the message words of its
MSI-X table. -/
structure Fn where
  flr : Bool := false
  msix : Bool := false
  mask : BitVec 66 := BitVec.allOnes 66
  pend : BitVec 66 := 0
  table : Map W32 := []
  deriving DecidableEq, Repr

/-- A frame committed for an instant (R427): buffer, instant, the slot that waits for its record, the PASID and the partition it is read
under. -/
structure Frame where
  buf : Nat
  instant : Nat
  slot : Option Nat
  pasid : Nat
  part : Nat := 0
  deriving DecidableEq, Repr

/-- A stream (R425 to R429): frames committed and not yet emitted, the last frame committed, the instant from which on none has been
sent or passed over; none before the first frame commits. -/
structure Stream where
  frames : List Frame := []
  last : Option Frame := none
  next : Option Nat := none
  deriving DecidableEq, Repr

/-- A frame sent (R425, R426, R428): stream, instant, port, destination address and UDP port, RTP timestamp, its rows' bytes. -/
structure Sent where
  stream : Nat
  instant : Nat
  port : Nat
  dest : List Byte
  udp : Nat
  rtp : Nat
  bytes : List Byte
  deriving DecidableEq, Repr

/-- An SPDM connection of one transport (R414): versions read, capabilities read, algorithms agreed, the transcript so far. -/
structure Spdm where
  version : Bool := false
  caps : Bool := false
  algs : Bool := false
  transcript : List Nat := []
  deriving DecidableEq, Repr

/-- An answer of the identity and side-band services (R414, R415), by request number and value. -/
structure Answer where
  req : Nat
  ok : Bool
  data : List Nat := []
  deriving DecidableEq, Repr

/-- The flash (R409): bytes, a new primary image that no ACTIVATE has put in place (R423), and the fused values (minimum security version,
key in use). -/
structure Flash where
  bytes : Map Byte := []
  pend : Option (List Byte) := none
  svnMin : W32 := 0
  keySlot : Nat := 0
  measure : List Byte := []
  image : List Byte := []
  updating : Option Bool := none
  deriving DecidableEq, Repr

/-- A port issue of an issue cycle (R17). -/
structure Port where
  core : Nat := 0
  phrase : Nat := 0
  pc : W64 := 0
  set : List Nat := []
  blk : Option (W64 × W64) := none
  word : W64 := 0
  last : Bool := false
  deriving DecidableEq, Repr

/-- What happens next: an issue cycle of a slot, core cycles, PTP nanoseconds, a step of the start-up with its error code, an event; or
one unit of a command whose other units come later (R97, R105, R107, R108): a chunk that a copy writes, an element of a source chunk that
it reads again, an accumulator element that a matrix operation writes or an ACLR clears, a word of a scan's output, a chunk of a line that
is filled or written back. -/
inductive Act where
  | chunk (core id i : Nat)
  | reread (core id i j : Nat)
  | accElem (core e : Nat)
  | clearElem (core id e : Nat)
  | lineChunk (core id i : Nat)
  | spanWord (core i : Nat)
  | issue (core slot : Nat)
  | cycles (core n : Nat)
  | ptime (n : Nat)
  | bootStep (err : Nat)
  | event (i : Instr)
  deriving DecidableEq, Repr, Inhabited

/-- The machine. -/
structure State where
  cores : Map Core := []
  dies : Map Die := []
  mem : Map Byte := []
  host : Map Byte := []
  remote : Map Byte := []
  poison : List Nat := []
  interrupted : List Nat := []
  ptbase : W64 := 0
  invva : W64 := 0
  invlen : W64 := 0
  inv : Option (Option Nat × Nat × Nat) := none
  mig : Mig := {}
  ats : List AtsReq := []
  pri : List AtsReq := []
  asked : List Asked := []
  kwr : Map W64 := []
  pendBits : List Nat := []
  slots : Map Slot := []
  lastServed : Map Nat := []
  kept : Map Kept := []
  partbase : W64 := 0
  partcount : W32 := 0
  fpbase : W64 := 0
  applystat : W32 := 0
  actstat : W32 := 0
  rstBusy : Bool := false
  strbase : W64 := 0
  strcount : W32 := 0
  parts : Map Part := []
  fmap : Map Byte := []
  gangs : Map Gang := []
  ptime : Nat := 0
  locked : Bool := false
  offset : BitVec 24 := 0
  inTol : Nat := 0
  slew : Nat := 0
  power : BitVec 16 := 0
  pump : Byte := 0
  inlet : Byte := 0
  portsUp : BitVec 2 := 0
  boot : Boot := {}
  flash : Flash := {}
  pwbase : W64 := 0
  pwcount : W32 := 0
  qpbase : W64 := 0
  qpcount : W32 := 0
  rdma : List RdmaReq := []
  qps : Map QpSeq := []
  pkts : List Pkt := []
  held : List Pkt := []
  replies : List Answer := []
  paused : Map (BitVec 8) := []
  marks : Map Nat := []
  link : Bool := false
  mainPower : Bool := true
  present : Bool := true
  vfs : Bool := false
  aer : Nat := 0
  fns : Map Fn := []
  irqs : List (Nat × Nat) := []
  streams : Map Stream := []
  sent : List Sent := []
  spdm : Map Spdm := []
  svcs : List Answer := []
  cur : Port := {}
  ports : List Port := []
  agenda : List Act := []
  fresh : Nat := 0
  deriving DecidableEq, Repr

/-- The machine right after a reset: every field at the value the spec gives for reset, and at the value that log 1 names where it
gives none. No instance runs, no memory byte is listed. -/
def State.reset : State := {}

/-- Why the machine stops. No rule of the spec stops a Prexo Q4: traps, failures and refused requests are next states. -/
inductive Fault where
  /-- Raised by no definition. Safe. -/
  | none
  deriving DecidableEq, Repr

/-- Why the model gives no answer. -/
inductive Refusal where
  /-- Raised by Dispatch alone, for a row that has no meaning yet. Safe. -/
  | notModelled (mnemonic : String)
  deriving DecidableEq, Repr

end Sys2Proof.Machine
end

