-- ==== Sys2Proof/Config.lean ====
section
/-! DEFINITION. What the spec leaves open or to the implementation: constants without a body, so that no proof can see their value,
and the figures of the part. A free value is taken at the counter `fresh` of State. -/

namespace Sys2Proof.Config
open Sys2Proof.Machine

/-! ### Free values (log 4) -/

/-- A free bit: one of two outcomes that the spec allows (R88, R96, R107, R108). -/
opaque freeBool : Nat → Bool
/-- The same for one of several elements of an access: the counter and the element (R96, R106, R107). -/
opaque freeAt : Nat → Nat → Bool
/-- The same for a load that races with a store: the thread, its core's count of memory instructions, the store (R96, R97). -/
opaque freeRace : Nat → Nat → Nat → Bool
/-- A free number below a bound that the user of the value imposes. -/
opaque freeNat : Nat → Nat
/-- A free 32-bit value. -/
opaque freeW32 : Nat → W32
/-- Which step happens next when the agenda is empty: engines, threads and the outside world in any order (log 3). -/
opaque schedule : Nat → Act

/-! ### Fixed functions of the part -/

/-- RCP and RSQ (R55, R221): true takes the upper neighbour of an inexact result. -/
opaque specialUp : Nat → W32 → Bool
/-- EXP2, LOG2, SIN, COS (R55): the delivered bits, used where they lie within the bound of R55. -/
opaque special : Nat → W32 → W32
/-- The fused unique secret, by byte, and what the ROM derives the identity key from it with (R413, log 113). -/
opaque fused : Nat → Byte
opaque keyLabel : Nat → List Byte
/-- Where the certificate partition holds the certificate chain, its length, and the MAC addresses (R403, R409, R413, log 113). -/
opaque certAt : Nat
opaque certLen : Nat
opaque macAt : Nat → Nat
/-- The ROM's version and digest (R414). -/
opaque romInfo : List Nat
/-- The fused key hashes and their revocation (R409). -/
opaque keyHash : Nat → List Byte
opaque keyRevoked : Nat → Bool

/-! ### The part (R417, R336, R361) -/

/-- What fixes the harvest map of a die: the places of the disabled cores, each among those still left. -/
opaque harvest : Nat → Nat → Nat

/-- Takes `n` cores out of a list, by the harvest map. -/
def takeOut (die : Nat) : Nat → List Nat → List Nat
  | 0, _ => []
  | n + 1, l => let c := l.getD (harvest die n % l.length) 0
    c :: takeOut die n (l.filter (· != c))

/-- The harvest map: the 4 of the 52 cores of a die that are disabled (R1, R2, R417). -/
def disabled (die : Nat) : BitVec 52 := (takeOut die 4 (List.range 52)).foldl (fun m c => m ||| (1#52 <<< c)) 0
/-- The firmware's entry and restore entry, set at core bring-up (R336, R361). -/
opaque fwEntry : W64
opaque fwRestore : W64
/-- Where a control core starts its firmware image (R334, R410). -/
opaque ctlEntry : Nat → W64
/-- The cores that fail the built-in self-test of a start (R410, R417). -/
opaque selfTestFails : Nat → Nat → Bool
/-- ERROR of a step that fails (R411). -/
opaque errorCode : Nat → BitVec 16
/-- What the sensors and meters of a telemetry sample read (R422). -/
opaque telemetry : Nat → Nat → BitVec 16
/-- The pages of 64 KiB that hold a dirty line of a die's memory-side cache at its reset (R424). -/
opaque dirtyPages : Nat → List Nat
/-- The priority on which a port sends the packets of the RDMA engine (R403). -/
opaque rdmaPriority : Nat

/-- The 256-byte lines of a core's instruction cache of 128 KiB (R3). -/
def icacheLines : Nat := 512

/-- Installed memory (R4, R388, R400): 512 GiB of HBM from 0, 1.5 TiB of LPDDR 6 from 0x200_0000_0000. -/
def hbmSize : Nat := 0x8000000000
def lpBase : Nat := 0x20000000000
def lpSize : Nat := 0x18000000000

/-- A byte of memory or scratchpad that nothing has written (log 2). -/
def blank : Byte := 0

end Sys2Proof.Config
end

