-- ==== Sys2Proof/Decode.lean ====
section
/-! DEFINITION. Words and instructions: the fields of the seven forms (R170 to R176), the check of a word alone (check 1 of
R185), the decoder, total on any 64 bits, and the encoder. -/

namespace Sys2Proof

/-! ### Fields -/

/-- Bits [lo + n - 1 : lo] of a word. -/
def fld (w : W64) (lo n : Nat) : BitVec n := w.extractLsb' lo n

/-- Bit `i` of a word. -/
def bitAt (w : W64) (i : Nat) : Bool := w.getLsbD i

def getHead (w : W64) : Head := { u := bitAt w 55, g := fld w 52 3, n := bitAt w 51 }

/-- W form (R170). -/
def getW (w : W64) : WForm :=
  { h := getHead w, d := fld w 44 7, a := fld w 37 7, b := fld w 30 7, ra := fld w 21 9, rb := fld w 12 9,
    edge := fld w 10 2, fn := fld w 0 10 }

/-- V form (R171). -/
def getV (w : W64) : VForm :=
  { h := getHead w, d := fld w 44 7, a := fld w 37 7, b := fld w 30 7, c := fld w 23 7, ra := fld w 14 9,
    rb := fld w 5 9, rcs := fld w 3 2, edge := fld w 1 2 }

/-- I form (R172). -/
def getI (w : W64) : IForm := { h := getHead w, d := fld w 44 7, a := fld w 37 7, ra := fld w 28 9, imm := fld w 0 28 }

/-- M form (R173). -/
def getM (w : W64) : MForm :=
  { h := getHead w, d := fld w 44 7, b := fld w 37 7, rd := fld w 28 9, ord := fld w 25 3, sco := fld w 22 3,
    off := fld w 0 22 }

/-- C form (R174). -/
def getC (w : W64) : CForm := { h := getHead w, off := fld w 27 24, tag := fld w 19 8, a := fld w 12 7 }

/-- E form (R175). -/
def getE (w : W64) : EForm :=
  { h := getHead w, fn := fld w 46 5, sig := bitAt w 45, tb := fld w 41 4, a := fld w 34 7, b := fld w 27 7,
    c := fld w 20 7, wait := bitAt w 19, wid := fld w 15 4, x := fld w 0 15 }

/-- S form (R176). -/
def getS (w : W64) : SForm :=
  { h := getHead w, fn := fld w 41 10, d := fld w 34 7, a := fld w 27 7, sys := fld w 15 12, imm := fld w 0 15 }

/-! ### Words of the forms -/

def ofBit (b : Bool) : BitVec 1 := BitVec.ofBool b

/-- Bits [63:51] of a word: opcode, U, G, N (R167). -/
def headBits (op : BitVec 8) (h : Head) : BitVec 13 := op ++ ofBit h.u ++ h.g ++ ofBit h.n

def putW (op : BitVec 8) (f : WForm) : W64 :=
  headBits op f.h ++ f.d ++ f.a ++ f.b ++ f.ra ++ f.rb ++ f.edge ++ f.fn

def putV (op : BitVec 8) (f : VForm) : W64 :=
  headBits op f.h ++ f.d ++ f.a ++ f.b ++ f.c ++ f.ra ++ f.rb ++ f.rcs ++ f.edge ++ 0#1

def putI (op : BitVec 8) (f : IForm) : W64 := headBits op f.h ++ f.d ++ f.a ++ f.ra ++ f.imm

def putM (op : BitVec 8) (f : MForm) : W64 := headBits op f.h ++ f.d ++ f.b ++ f.rd ++ f.ord ++ f.sco ++ f.off

def putC (op : BitVec 8) (f : CForm) : W64 := headBits op f.h ++ f.off ++ f.tag ++ f.a ++ 0#12

def putE (op : BitVec 8) (f : EForm) : W64 :=
  headBits op f.h ++ f.fn ++ ofBit f.sig ++ f.tb ++ f.a ++ f.b ++ f.c ++ ofBit f.wait ++ f.wid ++ f.x

def putS (op : BitVec 8) (f : SForm) : W64 := headBits op f.h ++ f.fn ++ f.d ++ f.a ++ f.sys ++ f.imm

/-! ### The parts of the check of a word alone (check 1 of R185) -/

/-- G = 0 with N = 1 is ILLEGAL (R167). -/
def Head.ok (h : Head) : Bool := !(h.g == 0 && h.n)

/-- A routing descriptor that the word alone does not refuse (R65): KIND 7, KIND 0 with an argument, and KIND 6 outside 1 to
6 are ILLEGAL. -/
def descOk (d : BitVec 9) : Bool :=
  match (d.extractLsb' 6 3).toNat, (d.extractLsb' 0 6).toNat with
  | 0, arg => arg == 0
  | 6, arg => decide (1 ≤ arg ∧ arg ≤ 6)
  | 7, _ => false
  | _, _ => true

/-- An x-pair field names an even register (R169). -/
def even (r : BitVec 7) : Bool := r.toNat % 2 == 0

/-- A predicate field uses bits [2:0] alone (R169). -/
def predOk (r : BitVec 7) : Bool := decide (r.toNat < 8)

/-- Type code FN[9:6] (R170). -/
def WForm.ty (f : WForm) : Nat := (f.fn.extractLsb' 6 4).toNat
/-- Variant FN[5:2] (R170). -/
def WForm.var (f : WForm) : Nat := (f.fn.extractLsb' 2 4).toNat
/-- SAT, FN[1] (R170). -/
def WForm.sat (f : WForm) : Bool := f.fn.getLsbD 1
/-- FN[0], which must be 0 but for CVT and ATOM (R170). -/
def WForm.low (f : WForm) : Bool := f.fn.getLsbD 0
/-- FN[3:2]: the rounding mode of R54. -/
def WForm.rm (f : WForm) : Nat := (f.fn.extractLsb' 2 2).toNat
/-- FN[5:4]. -/
def WForm.hi (f : WForm) : Nat := (f.fn.extractLsb' 4 2).toNat

/-- A type is 64 bits wide: i64 or n64 (R47). -/
def is64 (ty : Nat) : Bool := ty == 8 || ty == 9

/-- An edge rule is a used field only where an operand can be routed; two-source words allow any (R63). -/
def WForm.base (f : WForm) : Bool := f.h.ok && descOk f.ra && descOk f.rb && !f.low

/-- A W-form word with one source: B and its descriptor are unused (R169). -/
def WForm.base1 (f : WForm) : Bool := f.base && f.b == 0 && f.rb == 0

def VForm.base (f : VForm) : Bool := f.h.ok && descOk f.ra && descOk f.rb
def IForm.base (f : IForm) : Bool := f.h.ok && descOk f.ra
def CForm.base (f : CForm) : Bool := f.h.ok && !f.h.u

/-- TB and the wait id must be 0 where their bits are clear (R175). -/
def EForm.base (f : EForm) : Bool := f.h.ok && (f.sig || f.tb == 0) && (f.wait || f.wid == 0)
/-- An engine command with neither signal nor wait. -/
def EForm.plain (f : EForm) : Bool := f.h.ok && !f.sig && f.tb == 0 && !f.wait && f.wid == 0

/-- The integer types of ADD, SUB, MUL, MIN, MAX, ABSD (R190). -/
def intTy (ty : Nat) : Bool := [0, 1, 8, 9, 0xC, 0xD, 0xE, 0xF, 6, 7].contains ty

/-- x-pair fields of an integer instruction (R188). -/
def pair3 (ty : Nat) (d a b : BitVec 7) : Bool := !is64 ty || (even d && even a && even b)

/-- Variants of R190: 1 on the packed types only. -/
def intVar (ty var : Nat) : Bool := var == 0 || (var == 1 && (ty == 6 || ty == 7))

/-- MIN, MAX, ABSD (R195); ADD and SUB allow SAT (R191). -/
def intOk (sat : Bool) (f : WForm) : Bool :=
  f.base && intTy f.ty && intVar f.ty f.var && pair3 f.ty f.d f.a f.b && (sat || !f.sat)

/-- MUL (R192). -/
def mulOk (f : WForm) : Bool :=
  f.base && intTy f.ty && pair3 f.ty f.d f.a f.b &&
    (match f.var with
     | 0 => true
     | 1 => f.ty == 6 || f.ty == 7
     | 2 => !f.sat
     | 3 => (f.ty == 6 || f.ty == 7) && !f.sat
     | _ => false)

/-- DIV and REM (R194). -/
def divOk (isDiv : Bool) (f : WForm) : Bool :=
  f.base && [0, 1, 8, 9].contains f.ty && f.var == 0 && pair3 f.ty f.d f.a f.b &&
    (!f.sat || (isDiv && (f.ty == 0 || f.ty == 8)))

/-- ADDC and SUBB (R197). -/
def carryOk (f : WForm) : Bool := f.base && (f.ty == 0 || f.ty == 1) && !f.fn.getLsbD 2 && !f.sat

/-- AND, OR, XOR, ANDN (R199). -/
def bitOk (f : WForm) : Bool :=
  f.base && (f.ty == 2 || f.ty == 9) && f.var == 0 && !f.sat && pair3 f.ty f.d f.a f.b

/-- SHL, SHR, SAR, ROTL (R200): B may be odd. -/
def shiftOk (f : WForm) : Bool :=
  f.base && [0, 1, 2, 8, 9, 6, 7].contains f.ty && f.var == 0 && !f.sat && pair3 f.ty f.d f.a 0

/-- BFX (R203). -/
def bfxOk (f : WForm) : Bool := f.base && (f.ty == 0 || f.ty == 1) && f.var == 0 && !f.sat

/-- BITOP (R204). -/
def bitopOk (f : WForm) : Bool :=
  f.base1 && (f.ty == 2 || f.ty == 9) && decide (f.var ≤ 3) && !f.sat &&
    (f.ty == 2 || (even f.a && (f.var != 3 || even f.d)))

/-- SETP (R206). -/
def setpOk (f : WForm) : Bool :=
  f.base && predOk f.d && !f.sat && [0, 1, 8, 9, 0xC, 0xD, 0xE, 0xF, 2, 3, 0xA, 0xB].contains f.ty && decide (f.var ≤ 7) &&
    (decide (f.var ≤ 5) || [3, 0xA, 0xB].contains f.ty) && (f.ty != 2 || decide (f.var ≤ 1)) && pair3 f.ty 0 f.a f.b

/-- SETPI (R207). -/
def setpiOk (f : IForm) : Bool := f.base && f.d == 0 && decide ((f.imm.extractLsb' 24 4).toNat ≤ 5)

/-- PLOGIC (R208). -/
def plogicOk (f : WForm) : Bool :=
  f.h.ok && !f.low && predOk f.d && predOk f.a && predOk f.b && f.ra == 0 && f.rb == 0 && f.edge == 0 && f.ty == 0 && !f.sat

/-- SEL (R209). -/
def selOk (f : VForm) : Bool := f.base && predOk f.c && f.rcs == 0

/-- PMOV (R210). -/
def pmovOk (f : WForm) : Bool :=
  f.base1 && f.ty == 0 && !f.sat &&
    (match f.var with
     | 0 => predOk f.a && f.ra == 0 && f.edge == 0
     | 1 => predOk f.d
     | 2 => f.a == 0 && f.ra == 0 && f.edge == 0
     | 3 => f.d == 0
     | _ => false)

/-- VOTE (R212). -/
def voteOk (f : WForm) : Bool :=
  f.base1 && !f.h.u && predOk f.a && f.ra == 0 && f.edge == 0 && f.ty == 0 && !f.sat &&
    (match f.var with
     | 0 => predOk f.d
     | 1 => predOk f.d
     | 2 => even f.d
     | 3 => true
     | _ => false)

/-- MATCH (R213). -/
def matchOk (f : WForm) : Bool :=
  f.base1 && !f.h.u && !f.sat && (f.ty == 2 || (f.ty == 9 && even f.a)) && decide (f.var ≤ 2) && (f.var != 0 || even f.d)

/-- PERMB (R205). -/
def permbOk (f : WForm) : Bool := f.base && f.fn == 0

/-- LEA (R214). -/
def leaOk (f : WForm) : Bool :=
  f.base && !f.sat && decide (f.var ≤ 4) && (f.ty == 1 || (f.ty == 9 && even f.d && even f.a))

/-- MOV and MOVX (R216). -/
def movOk (pair : Bool) (f : WForm) : Bool :=
  f.base1 && f.ty == 0 && !f.sat && decide (f.var ≤ 1) && (!pair || (even f.d && even f.a))

/-- FADD, FSUB, FMUL; FMIN and FMAX take no rounding mode (R217). -/
def floatOk (rounds : Bool) (f : WForm) : Bool :=
  f.base && [3, 0xA, 0xB].contains f.ty && f.hi == 0 && (rounds || f.rm == 0) && !f.sat

/-- FUNARY (R220). -/
def funaryOk (f : WForm) : Bool := f.base1 && [3, 0xA, 0xB, 4, 5].contains f.ty && decide (f.var ≤ 5) && !f.sat
/-- FSPECIAL (R221). -/
def fspecialOk (f : WForm) : Bool := f.base1 && f.ty == 3 && decide (f.var ≤ 6) && !f.sat
/-- FCLASS (R222). -/
def fclassOk (f : WForm) : Bool := f.base1 && [3, 0xA, 0xB].contains f.ty && f.var == 0 && !f.sat
/-- HADD2, HMUL2, HMIN2, HMAX2 (R223). -/
def half2Ok (rounds : Bool) (f : WForm) : Bool :=
  f.base && (f.ty == 4 || f.ty == 5) && f.hi == 0 && (rounds || f.rm == 0) && !f.sat

/-- The scalar types of CVT (R226). -/
def cvtTy (ty : Nat) : Bool := [0, 1, 3, 8, 9, 0xA, 0xB, 0xC, 0xD, 0xE, 0xF].contains ty
def floatTy (ty : Nat) : Bool := [3, 0xA, 0xB].contains ty
/-- CVT (R226). -/
def cvtOk (f : WForm) : Bool :=
  f.h.ok && descOk f.ra && f.b == 0 && f.rb == 0 && cvtTy f.ty && cvtTy f.var &&
    (floatTy f.ty || floatTy f.var || decide ((f.fn.extractLsb' 0 2).toNat ≤ 1)) &&
    (!is64 f.ty || even f.d) && (!is64 f.var || even f.a)

/-- PACK2 (R227). -/
def pack2Ok (f : WForm) : Bool :=
  f.base && f.hi == 0 && (((f.ty == 4 || f.ty == 5) && !f.sat) || ((f.ty == 6 || f.ty == 7) && f.rm == 0))
/-- UNPACK (R228). -/
def unpackOk (f : WForm) : Bool :=
  f.base1 && [4, 5, 6, 7].contains f.ty && !f.sat && !f.fn.getLsbD 4 && (f.ty == 7 || decide (f.rm ≤ 1)) &&
    (!f.fn.getLsbD 5 || f.ty == 6 || f.ty == 7)
/-- BFPQ (R229). -/
def bfpqOk (f : WForm) : Bool := f.base1 && !f.h.u && decide (2 ≤ f.ty ∧ f.ty ≤ 8) && decide (f.var ≤ 1) && !f.sat
/-- BFPD (R230). -/
def bfpdOk (f : WForm) : Bool :=
  f.base && decide (2 ≤ f.ty ∧ f.ty ≤ 8) && decide (f.hi ≤ 2) && (f.hi != 0 || f.rm == 0) && !f.sat
/-- TAGSET and TAGGET (R231). -/
def tagOk (typed : Bool) (f : WForm) : Bool := f.base1 && f.var == 0 && !f.sat && (typed || f.ty == 0)

/-- REDUCE and SCAN (R267): the operation is FN[4:2], FN[5] the exclusive SCAN. -/
def collOk (scan : Bool) (f : WForm) : Bool :=
  let op := (f.fn.extractLsb' 2 3).toNat
  f.base1 && !f.h.u && decide (op ≤ 5) && (scan || !f.fn.getLsbD 5) &&
    (if op ≤ 2 then [0, 1, 8, 9, 3].contains f.ty else f.ty == 2 || f.ty == 9) &&
    (!f.sat || (op == 0 && [0, 1, 8, 9].contains f.ty)) && pair3 f.ty f.d f.a 0

/-- ITER (R121). -/
def iterOk (f : WForm) : Bool :=
  f.h.ok && !f.h.u && predOk f.a && f.b == 0 && f.ra == 0 && f.rb == 0 && f.edge == 0 && f.fn == 0
/-- CONTRIB (R122). -/
def contribOk (f : WForm) : Bool := f.base1 && !f.h.u && f.d == 0 && f.fn == 0
/-- DISPENSE (R269): FN[5:2] is the dispenser. -/
def dispenseOk (f : WForm) : Bool :=
  f.h.ok && !f.low && even f.d && predOk f.a && f.b == 0 && f.ra == 0 && f.rb == 0 && f.edge == 0 && f.ty == 0 && !f.sat &&
    decide (f.var ≤ 2)

/-- A scope that an order of R93 may name: relaxed has none, acq and acq_rel reach .rmt, rel stops at .sys. -/
def orderOk (ord sco : Nat) : Bool :=
  match ord with
  | 0 => sco == 0
  | 1 => decide (1 ≤ sco ∧ sco ≤ 6)
  | 2 => decide (1 ≤ sco ∧ sco ≤ 5)
  | 3 => decide (1 ≤ sco ∧ sco ≤ 6)
  | _ => false

def loadOrdOk (f : MForm) : Bool :=
  match f.ord.toNat with
  | 0 => f.sco == 0
  | 4 => f.sco == 0
  | 1 => orderOk 1 f.sco.toNat
  | _ => false

def storeOrdOk (f : MForm) : Bool :=
  match f.ord.toNat with
  | 0 => f.sco == 0
  | 4 => f.sco == 0
  | 2 => orderOk 2 f.sco.toNat
  | _ => false

/-- The registers of a load's or a store's data: one, a pair, or four (R246, R247). -/
def dataOk (size : Nat) (d : BitVec 7) : Bool :=
  match size with
  | 8 => even d
  | 16 => d.toNat % 4 == 0
  | _ => true

def loadOk (size : Nat) (f : MForm) : Bool := f.h.ok && descOk f.rd && loadOrdOk f && dataOk size f.d
def storeOk (size : Nat) (f : MForm) : Bool := f.h.ok && descOk f.rd && storeOrdOk f && dataOk size f.d

/-- ATOM (R251): the low ten bits are operation, order and scope. -/
def atomOk (f : WForm) : Bool :=
  f.h.ok && descOk f.ra && descOk f.rb && orderOk (f.fn.extractLsb' 3 3).toNat (f.fn.extractLsb' 0 3).toNat &&
    (decide (f.ty < 0xE) || (even f.b && even f.d))

/-- CAS (R254): RA holds order, scope and width. -/
def casOk (f : VForm) : Bool :=
  let width := (f.ra.extractLsb' 0 3).toNat
  f.h.ok && descOk f.rb && f.rcs != 1 && orderOk (f.ra.extractLsb' 6 3).toNat (f.ra.extractLsb' 3 3).toNat &&
    decide (width ≤ 1) && (width == 0 || (even f.d && even f.b && even f.c))

/-- CVBOX (R163): the box size code is FN[5:2]. -/
def cvboxOk (f : WForm) : Bool :=
  f.base && f.ty == 0 && decide (f.var ≤ 3) && !f.sat && even f.d && even f.a && even f.b

/-- An I-form word whose D, A, RA and IMM above `n` bits are 0. -/
def IForm.immOnly (f : IForm) (n : Nat) : Bool :=
  f.h.ok && f.d == 0 && f.a == 0 && f.ra == 0 && decide (f.imm.toNat < 2 ^ n)
/-- An I-form word with a destination only. -/
def IForm.destOnly (f : IForm) : Bool := f.h.ok && f.a == 0 && f.ra == 0 && f.imm == 0
/-- JOIN (R257). -/
def joinOk (f : IForm) : Bool := f.base && decide (f.imm.toNat < 256)
/-- BARA and BARS (R259): barrier 0 takes no count register, and then its descriptor is unused. -/
def barOk (f : IForm) : Bool :=
  f.base && !f.h.u && f.d == 0 && decide (f.imm.toNat < 16) && (f.imm != 0 || (f.a == 0 && f.ra == 0))
/-- SHI (R201). -/
def shiOk (f : IForm) : Bool := f.base && f.imm.extractLsb' 5 21 == 0

/-- BRA and CALL (R236, R237). -/
def branchOk (f : CForm) : Bool := f.base && f.tag == 0 && f.a == 0
/-- JMPI and CALLI (R238, R182). -/
def indirectOk (f : CForm) : Bool := f.base && f.off == 0 && decide (1 ≤ f.tag.toNat ∧ f.tag.toNat ≤ 0xEF) && even f.a
/-- A C-form word without operands. -/
def bareOk (f : CForm) : Bool := f.base && f.off == 0 && f.tag == 0 && f.a == 0

/-- RECRUIT (R296, R114): bit 45 is REISSUE, TB and the wait are 0; C names v0 exactly without a fold. -/
def recruitOk (f : EForm) : Bool :=
  f.h.ok && !f.h.u && f.tb == 0 && !f.wait && f.wid == 0 && decide (f.fn.toNat ≤ 6) && (f.fn == 0) == (f.c == 0)

/-- RMAP (R277). -/
def rmapOk (f : EForm) : Bool := f.plain && f.h.u && f.fn == 0 && even f.b && even f.c && decide (f.x.toNat < 256)
/-- RUNMAP and WBACK (R278). -/
def slotCmdOk (f : EForm) : Bool :=
  f.base && f.h.u && f.fn == 0 && f.a == 0 && f.b == 0 && f.c == 0 && decide (f.x.toNat < 16)
/-- CPY (R279): an operand that names global memory is an x-pair. -/
def cpyOk (f : EForm) : Bool :=
  f.base && f.fn.extractLsb' 3 2 == 0 && f.x == 0 &&
    (match (f.fn.extractLsb' 0 2).toNat with
     | 0 => even f.b
     | 1 => even f.a
     | 3 => even f.a && even f.b
     | _ => true)
/-- CPYD (R281). -/
def cpydOk (f : EForm) : Bool := f.base && f.b == 0 && f.c == 0 && f.fn == 0 && f.x == 0
/-- ACPY (R283). -/
def acpyOk (f : EForm) : Bool :=
  let conv := (f.fn.extractLsb' 1 2).toNat
  f.base && f.fn.extractLsb' 3 2 == 0 && conv != 3 && (conv == 0 || !f.fn.getLsbD 0)
/-- GATOM (R284; its order and scope as for ATOM, R93). -/
def gatomOk (f : EForm) : Bool :=
  let op := f.fn.toNat
  f.base && decide (op ≤ 0x10) && even f.b && decide (f.x.toNat < 64) &&
    orderOk (f.x.extractLsb' 3 3).toNat (f.x.extractLsb' 0 3).toNat && ((op != 0xE && op != 0xF) || even f.a) &&
    ((op != 0xE && op != 0xF && op != 0x10) || even f.c)
/-- SEMWAIT (R285): FN[46] selects the variant. -/
def semwaitOk (eq : Bool) (f : EForm) : Bool := f.base && f.fn == (if eq then 1 else 0) && even f.b && f.x == 0
/-- SEMPOST (R285). -/
def sempostOk (f : EForm) : Bool := f.base && f.fn == 0 && f.a == 0 && even f.b && f.x == 0
/-- TBINIT, TBWAIT, TBTEST (R286). -/
def tbOk (f : EForm) : Bool := f.plain && f.fn == 0 && f.b == 0 && f.c == 0 && decide (f.x.toNat < 16)
/-- SJOIN (R287). -/
def sjoinOk (f : EForm) : Bool := f.plain && f.h.u && f.fn == 0 && f.x == 0
/-- SLEAVE (R287). -/
def sleaveOk (f : EForm) : Bool := sjoinOk f && f.b == 0 && f.c == 0
/-- MFENCE (R288). -/
def mfenceOk (f : EForm) : Bool := f.plain && f.fn == 0 && f.a == 0 && f.b == 0 && f.c == 0 && f.x == 0
/-- MMA (R289). -/
def mmaOk (f : EForm) : Bool := f.base && f.h.u && f.fn == 0 && f.c == 0 && f.x == 0
/-- MWAIT (R290). -/
def mwaitOk (f : EForm) : Bool := f.plain && f.fn == 0 && f.b == 0 && f.c == 0 && f.x == 0
/-- MPROG, MSTOP and MRESUME with variant `v` (R292). -/
def mvarOk (v : Nat) (f : EForm) : Bool := f.plain && f.fn.toNat == v
/-- ACLR (R291). -/
def aclrOk (f : EForm) : Bool := f.base && f.a == 0 && f.fn == 0 && f.x == 0
/-- CVCLR (R293). -/
def cvclrOk (f : EForm) : Bool :=
  f.base && f.h.u && f.fn.extractLsb' 3 2 == 0 && even f.a && f.b == 0 && f.c == 0 && f.x == 0
/-- CVPATH (R293). -/
def cvpathOk (f : EForm) : Bool := f.base && f.h.u && f.fn == 0 && f.c == 0 && f.x == 0
/-- CVSCAN (R293). -/
def cvscanOk (f : EForm) : Bool := f.base && f.h.u && f.fn.extractLsb' 3 2 == 0 && f.c == 0 && f.x == 0
/-- CVSTOP, CVRESUME, CVSAVE, CVLOAD with variant `v` (R294). -/
def cvarOk (v : Nat) (f : EForm) : Bool := f.plain && f.fn.toNat == v && f.b == 0 && f.c == 0 && f.x == 0

/-- FENCE (R255). -/
def fenceOk (f : SForm) : Bool :=
  let sco := (f.fn.extractLsb' 3 3).toNat
  let ord := (f.fn.extractLsb' 0 3).toNat
  f.h.ok && !f.h.u && f.fn.extractLsb' 6 4 == 0 && decide (1 ≤ ord) && orderOk ord sco && f.d == 0 && f.a == 0 && f.sys == 0 &&
    f.imm == 0
/-- NTDRAIN (R256). -/
def ntdrainOk (f : SForm) : Bool :=
  let sco := (f.fn.extractLsb' 3 3).toNat
  f.h.ok && !f.h.u && f.fn.extractLsb' 6 4 == 0 && f.fn.extractLsb' 0 3 == 0 && decide (1 ≤ sco ∧ sco ≤ 5) && f.d == 0 &&
    f.a == 0 && f.sys == 0 && f.imm == 0

/-! ### System registers (R42 to R46, R340, R356) -/

/-- Access of a system register. -/
inductive SysAcc where
  | ro | rw | wo
  deriving DecidableEq, Repr

/-- Width and access of a listed system register. -/
structure SysReg where
  wide : Bool
  acc : SysAcc
  deriving DecidableEq, Repr

/-- The listed system registers (R43, R44, R46, R340, R356). -/
def sysReg (n : Nat) : Option SysReg :=
  if n ≤ 0x009 then some ⟨false, .ro⟩
  else if n = 0x00A then some ⟨true, .rw⟩
  else if n = 0x00B then some ⟨false, .ro⟩
  else if n = 0x00C ∨ n = 0x00D then some ⟨true, .ro⟩
  else if n = 0x00E ∨ n = 0x00F then some ⟨false, .rw⟩
  else if n = 0x010 ∨ n = 0x011 then some ⟨false, .ro⟩
  else if n = 0x012 ∨ n = 0x013 then some ⟨true, .ro⟩
  else if n = 0x014 then some ⟨false, .ro⟩
  else if n = 0x100 ∨ n = 0x101 then some ⟨false, .rw⟩
  else if n = 0x102 ∨ n = 0x103 then some ⟨true, .rw⟩
  else if n = 0x104 then some ⟨false, .rw⟩
  else if n = 0x105 then some ⟨true, .rw⟩
  else if n = 0x106 then some ⟨false, .ro⟩
  else if n = 0x107 then some ⟨false, .rw⟩
  else if 0x108 ≤ n ∧ n ≤ 0x10B then some ⟨true, .rw⟩
  else if n = 0x10C ∨ n = 0x10D then some ⟨false, .wo⟩
  else if n = 0x10E then some ⟨true, .ro⟩
  else if 0x110 ≤ n ∧ n ≤ 0x113 then some ⟨true, .rw⟩
  else if 0x120 ≤ n ∧ n ≤ 0x12F then some ⟨false, .rw⟩
  else if n = 0x150 ∨ n = 0x151 then some ⟨false, .ro⟩
  else if n = 0x152 ∨ n = 0x153 then some ⟨false, .rw⟩
  else if n = 0x200 then some ⟨false, .rw⟩
  else if n = 0x201 ∨ n = 0x202 then some ⟨false, .ro⟩
  else if n = 0x203 ∨ n = 0x204 then some ⟨false, .rw⟩
  else none

/-- MFS and MTS: a listed number, an even register for a 64-bit one, IMM 0 but for the slot of %qprio (R42, R46). -/
def sysOk (write : Bool) (f : SForm) : Bool :=
  f.h.ok && f.fn == 0 &&
    (match sysReg f.sys.toNat with
     | none => false
     | some r => (!write || r.acc != .ro) && (!r.wide || even (if write then f.a else f.d))) &&
    (if f.sys.toNat == 0x200 then decide (f.imm.toNat < 64) else f.imm == 0)

def mfsOk (f : SForm) : Bool := sysOk false f && f.a == 0
/-- MTS of any register (R301). -/
def mtsAnyOk (f : SForm) : Bool := sysOk true f && f.d == 0 && !f.h.u

/-- The registers whose MTS is a row of the opcode table of its own. -/
inductive MtsRow where
  | mts | evt | bcnt | tctx | tsave | tload | sphase
  deriving DecidableEq, Repr

def mtsRow (n : Nat) : MtsRow :=
  if n = 0x203 then .evt
  else if 0x120 ≤ n ∧ n ≤ 0x12F then .bcnt
  else if n = 0x107 then .tctx
  else if n = 0x10C then .tsave
  else if n = 0x10D then .tload
  else if n = 0x153 then .sphase
  else .mts

def mtsRowOk (r : MtsRow) (f : SForm) : Bool := mtsAnyOk f && mtsRow f.sys.toNat == r

/-- ERET (R303). -/
def eretOk (f : SForm) : Bool := f.h.ok && !f.h.u && f.fn == 0 && f.d == 0 && f.a == 0 && f.sys == 0 && f.imm == 0
/-- WFI (R305). -/
def wfiOk (f : SForm) : Bool :=
  f.h.ok && f.fn == 0 && f.a == 0 && f.sys == 0 && decide (1 ≤ f.imm.toNat ∧ f.imm.toNat < 64)
/-- QBIND (R307). -/
def qbindOk (f : SForm) : Bool := f.h.ok && f.fn == 0 && f.sys == 0 && f.imm == 0 && even f.a
/-- QUNBIND (R307). -/
def qunbindOk (f : SForm) : Bool := f.h.ok && decide (f.fn.toNat ≤ 1) && f.a == 0 && f.sys == 0 && f.imm == 0
/-- KPEND (R306). -/
def kpendOk (f : SForm) : Bool := f.h.ok && f.fn == 0 && f.a == 0 && f.sys == 0 && f.imm == 0
/-- IPI (R308). -/
def ipiOk (f : SForm) : Bool := f.h.ok && f.fn == 0 && f.sys == 0 && f.imm == 0
/-- IFLUSH (R304). -/
def iflushOk (f : SForm) : Bool := f.h.ok && f.fn == 0 && f.d == 0 && f.sys == 0 && even f.a

/-! ### Ranges of the parameters of events -/

/-- A physical core, or a control core numbered from 208 on. -/
def coreOk (c : Nat) : Bool := decide (c < 216)
def tidOk (t : Nat) : Bool := decide (t < 2048)
def slotOk (q : Nat) : Bool := decide (q < 64)
def dieOk (d : Nat) : Bool := decide (d < 4)

/-- The word of instruction `i` is legal as far as the word alone decides (check 1 of R185); for an event, its core, thread, slot
or die exists. -/
def legal (i : Instr) : Bool :=
  match i with
  | .nop f => f.h.ok && f.d == 0 && f.a == 0 && f.b == 0 && f.c == 0 && f.ra == 0 && f.rb == 0 && f.rcs == 0 && f.edge == 0
  | .bra f => branchOk f
  | .call f => branchOk f
  | .jmpi f => indirectOk f
  | .calli f => indirectOk f
  | .ret f => bareOk f
  | .exit f => bareOk f
  | .yield f => bareOk f
  | .trap f => !f.h.u && f.immOnly 8
  | .brk f => !f.h.u && f.immOnly 16
  | .holdx f => bareOk f
  | .sleep f => !f.h.u && f.immOnly 28
  | .add f => intOk true f
  | .sub f => intOk true f
  | .mul f => mulOk f
  | .mad f => f.base
  | .madhiI f => f.base
  | .madhiN f => f.base
  | .div f => divOk true f
  | .rem f => divOk false f
  | .min f => intOk false f
  | .max f => intOk false f
  | .absd f => intOk false f
  | .addi f => f.base
  | .muli f => f.base
  | .addc f => carryOk f
  | .subb f => carryOk f
  | .sad f => f.base
  | .and f => bitOk f
  | .or f => bitOk f
  | .xor f => bitOk f
  | .andn f => bitOk f
  | .shl f => shiftOk f
  | .shr f => shiftOk f
  | .sar f => shiftOk f
  | .rotl f => shiftOk f
  | .andi f => f.base
  | .ori f => f.base
  | .xori f => f.base
  | .shi f => shiOk f
  | .funnel f => f.base
  | .bfx f => bfxOk f
  | .bfi f => f.base
  | .bitop f => bitopOk f
  | .setp f => setpOk f
  | .setpi f => setpiOk f
  | .plogic f => plogicOk f
  | .sel f => selOk f
  | .pmov f => pmovOk f
  | .vote f => voteOk f
  | .matchG f => matchOk f
  | .permb f => permbOk f
  | .lea f => leaOk f
  | .movi f => f.base && f.a == 0 && f.ra == 0
  | .movih f => f.base && decide (f.imm.toNat < 16)
  | .mov f => movOk false f
  | .movx f => movOk true f
  | .fadd f => floatOk true f
  | .fsub f => floatOk true f
  | .fmul f => floatOk true f
  | .ffma f => f.base
  | .fmin f => floatOk false f
  | .fmax f => floatOk false f
  | .funary f => funaryOk f
  | .fspecial f => fspecialOk f
  | .fclass f => fclassOk f
  | .fmuli f => f.base
  | .hadd2 f => half2Ok true f
  | .hmul2 f => half2Ok true f
  | .hfma2 f => f.base
  | .bfma2 f => f.base
  | .hmin2 f => half2Ok false f
  | .hmax2 f => half2Ok false f
  | .hdot2 f => f.base
  | .bdot2 f => f.base
  | .idot4 f => f.base
  | .idot4n f => f.base
  | .cvt f => cvtOk f
  | .pack2 f => pack2Ok f
  | .unpack f => unpackOk f
  | .bfpq f => bfpqOk f
  | .bfpd f => bfpdOk f
  | .tagset f => tagOk true f
  | .tagget f => tagOk false f
  | .reduce f => collOk false f
  | .scan f => collOk true f
  | .join f => joinOk f
  | .leave f => !f.h.u && f.destOnly
  | .bara f => barOk f
  | .bars f => barOk f
  | .barw f => !f.h.u && f.immOnly 4
  | .lend f => f.immOnly 0
  | .recruit f => recruitOk f
  | .iter f => iterOk f
  | .contrib f => contribOk f
  | .rjoin f => !f.h.u && f.destOnly
  | .reclaim f => f.immOnly 0
  | .rget f => f.h.u && f.immOnly 2
  | .rput f => f.h.u && f.immOnly 2
  | .dispense f => dispenseOk f
  | .ld8 f => loadOk 1 f
  | .ld8s f => loadOk 1 f
  | .ld16 f => loadOk 2 f
  | .ld16s f => loadOk 2 f
  | .ld32 f => loadOk 4 f
  | .ld64 f => loadOk 8 f
  | .ld128 f => loadOk 16 f
  | .st8 f => storeOk 1 f
  | .st16 f => storeOk 2 f
  | .st32 f => storeOk 4 f
  | .st64 f => storeOk 8 f
  | .st128 f => storeOk 16 f
  | .atom f => atomOk f
  | .cas f => casOk f
  | .fence f => fenceOk f
  | .ntdrain f => ntdrainOk f
  | .rmap f => rmapOk f
  | .runmap f => slotCmdOk f
  | .wback f => slotCmdOk f
  | .cpy f => cpyOk f
  | .cpyd f => cpydOk f
  | .acpy f => acpyOk f
  | .gatom f => gatomOk f
  | .semwaitTake f => semwaitOk false f
  | .semwaitEq f => semwaitOk true f
  | .sempost f => sempostOk f
  | .tbinit f => tbOk f && f.h.u
  | .tbwait f => tbOk f && f.a == 0
  | .tbtest f => tbOk f && even f.a
  | .sjoin f => sjoinOk f
  | .sleave f => sleaveOk f
  | .mfence f => mfenceOk f
  | .mma f => mmaOk f
  | .mwait f => mwaitOk f
  | .mprogProg f => mvarOk 0 f && even f.a && f.b == 0 && decide (f.x.toNat < 4)
  | .mprogCopy f => mvarOk 1 f && f.a == 0 && decide (f.x.toNat < 4)
  | .mprogLast f => mvarOk 2 f && f.a == 0 && f.b == 0 && f.x == 0
  | .mstop f => mvarOk 0 f && f.a == 0 && f.b == 0 && f.c == 0 && f.x == 0
  | .mresume f => mvarOk 0 f && f.a == 0 && f.b == 0 && f.c == 0 && f.x == 0
  | .mresumeLoad f => mvarOk 1 f && f.c == 0 && f.x == 0
  | .mresumeTick f => mvarOk 2 f && f.a == 0 && f.c == 0 && f.x == 0
  | .aclr f => aclrOk f
  | .cvclr f => cvclrOk f
  | .cvpath f => cvpathOk f
  | .cvscan f => cvscanOk f
  | .cvbox f => cvboxOk f
  | .cvstop f => cvarOk 0 f && f.a == 0
  | .cvresume f => cvarOk 0 f && f.a == 0
  | .cvsaveImg f => cvarOk 0 f
  | .cvsaveCtl f => cvarOk 1 f
  | .cvsaveQ f => cvarOk 2 f
  | .cvloadImg f => cvarOk 0 f
  | .cvloadCtl f => cvarOk 1 f
  | .cvloadQ f => cvarOk 2 f
  | .mfs f => mfsOk f
  | .mts f => mtsRowOk .mts f
  | .eret f => eretOk f
  | .wfi f => wfiOk f
  | .qbind f => qbindOk f
  | .qunbind f => qunbindOk f
  | .kpend f => kpendOk f
  | .ipi f => ipiOk f
  | .iflush f => iflushOk f
  | .evtWrite f => mtsRowOk .evt f
  | .bcntWrite f => mtsRowOk .bcnt f
  | .tctxWrite f => mtsRowOk .tctx f
  | .tsaveWrite f => mtsRowOk .tsave f
  | .tloadWrite f => mtsRowOk .tload f
  | .sphaseWrite f => mtsRowOk .sphase f
  | .dump core => coreOk core
  | .dumpd core => coreOk core
  | .load core => coreOk core
  | .run core => coreOk core
  | .free core => coreOk core
  | .dumpImageWrite core => coreOk core
  | .preemptDelivery core => coreOk core
  | .segmentGuard core slot => coreOk core && slotOk slot
  | .threadAgeGuard core slot => coreOk core && slotOk slot
  | .holdTimeout core tid => coreOk core && tidOk tid
  | .sleepExpire core tid => coreOk core && tidOk tid
  | .yieldExpire core tid => coreOk core && tidOk tid
  | .bartimeout core tid => coreOk core && tidOk tid
  | .subordinateKill core tid => coreOk core && tidOk tid
  | .loadDataReturn core tid => coreOk core && tidOk tid
  | .lineFillComplete core _ _ => coreOk core
  | .lineWritebackComplete core _ _ => coreOk core
  | .forwardedWritePerform core _ _ => coreOk core
  | .ntWriteback core _ _ => coreOk core
  | .promotionRequest core => coreOk core
  | .icacheFill core _ _ => coreOk core
  | .copyStart core _ => coreOk core
  | .copyRetire core _ _ => coreOk core
  | .semwaitSucceed core _ _ => coreOk core
  | .sempostPerform core _ _ => coreOk core
  | .dispenserClaim core _ => coreOk core
  | .shareRevocation core => coreOk core
  | .matrixOpStart core => coreOk core
  | .matrixKblock core => coreOk core
  | .matrixOpEnd core => coreOk core
  | .covCommandStart core => coreOk core
  | .covPathRecord core => coreOk core
  | .pageWalkComplete die _ => dieOk die
  | .fqheadWrite die _ => dieOk die
  | .frespRetry die _ => dieOk die
  | .frespFail die _ => dieOk die
  | .invcmd _ => true
  | .invalidationComplete => true
  | .miggo _ => true
  | .migrationRound => true
  | .atsTranslationCompletion _ _ _ _ => true
  | .priResponse _ _ => true
  | .atsInvalidateRequest _ _ _ => true
  | .kwrWrite _ _ _ _ => true
  | .queueLookahead slot _ => slotOk slot
  | .launchPacket slot _ => slotOk slot
  | .callPacket slot => slotOk slot
  | .returnPacket slot => slotOk slot
  | .joinPacket slot => slotOk slot
  | .condPacket slot _ => slotOk slot
  | .signalPacket slot _ => slotOk slot
  | .waitPacket slot => slotOk slot
  | .waitSatisfied slot _ => slotOk slot
  | .waitTimeout slot => slotOk slot
  | .framePacket slot => slotOk slot
  | .nopPacket slot => slotOk slot
  | .instanceEnd core => coreOk core
  | .coreAllocation core => coreOk core
  | .launchWatchdog slot => slotOk slot
  | .tick _ => true
  | .gangTick _ => true
  | .saveDeadline _ => true
  | .prestop _ => true
  | .parkThreshold core => coreOk core
  | .apply _ => true
  | .activate _ => true
  | .diereset _ _ => true
  | .rststatRead => true
  | .mmioRegisterWrite _ _ _ _ => true
  | .bar2Access _ _ _ => true
  | .telemetryRefresh => true
  | .frameEmit _ => true
  | .frameSubstitute _ => true
  | .bootctlWarmStart => true
  | .bootctlColdStart => true
  | .powerOn => true
  | .fundamentalReset => true
  | .hotReset => true
  | .linkDown => true
  | .flr _ => true
  | .surpriseRemoval => true
  | .startTimeout => true
  | .rdmaWrite _ _ _ _ => true
  | .rdmaRead _ _ _ _ => true
  | .send _ _ _ => true
  | .rdmaAck _ => true
  | .rdmaReadResponse _ _ => true
  | .rdmaNak _ => true
  | .rdmaAckTimeout _ => true
  | .ptpMessage _ _ => true
  | .doeDiscovery _ => true
  | .getVersion _ => true
  | .getCapabilities _ => true
  | .negotiateAlgorithms _ _ _ => true
  | .getDigests _ => true
  | .getCertificate _ slot _ _ => slotOk slot
  | .challenge _ slot _ => slotOk slot
  | .getMeasurements _ _ _ => true
  | .pldmType0Request => true
  | .pldmSensorRead _ => true
  | .pldmFirmwareUpdate _ _ _ => true
  | .ready => true
  | .linkUp => true
  | .flrComplete _ => true
  | .dieResetComplete die => dieOk die
  | .configurationRequest _ _ => true
  | .windowAccessAccepted core tid => coreOk core && tidOk tid
  | .portLinkChange _ _ => true
  | .pfcPauseFrame _ _ _ => true
  | .ecnMark _ => true
  | .mainPowerLoss => true
  | .uncorrectableError core _ => coreOk core
  | .droopEvent die => dieOk die
/-- MTS by its system register (R301; the rows of the opcode table). -/
def ofMts (f : SForm) : Instr :=
  match mtsRow f.sys.toNat with
  | .mts => .mts f
  | .evt => .evtWrite f
  | .bcnt => .bcntWrite f
  | .tctx => .tctxWrite f
  | .tsave => .tsaveWrite f
  | .tload => .tloadWrite f
  | .sphase => .sphaseWrite f

/-- Bit 0 of a V-form word must be 0 (R171). -/
def lastBit (w : W64) (i : Instr) : Option Instr := if bitAt w 0 then none else some i
/-- Bits [11:0] of a C-form word must be 0 (R174). -/
def low12 (w : W64) (i : Instr) : Option Instr := if fld w 0 12 == 0 then some i else none


/-- The instruction that opcode `op` and the fields of `w` name, legal or not; none for a reserved opcode and for a variant that is
no instruction (R186, R285, R292, R294). -/
def ofOp (op : Nat) (w : W64) : Option Instr :=
  match op with
  | 0x00 => lastBit w (.nop (getV w))
  | 0x01 => low12 w (.bra (getC w))
  | 0x02 => low12 w (.call (getC w))
  | 0x03 => low12 w (.jmpi (getC w))
  | 0x04 => low12 w (.calli (getC w))
  | 0x05 => low12 w (.ret (getC w))
  | 0x06 => low12 w (.exit (getC w))
  | 0x07 => low12 w (.yield (getC w))
  | 0x08 => some (.trap (getI w))
  | 0x09 => some (.brk (getI w))
  | 0x0A => low12 w (.holdx (getC w))
  | 0x0B => some (.sleep (getI w))
  | 0x10 => some (.add (getW w))
  | 0x11 => some (.sub (getW w))
  | 0x12 => some (.mul (getW w))
  | 0x13 => lastBit w (.mad (getV w))
  | 0x14 => lastBit w (.madhiI (getV w))
  | 0x15 => lastBit w (.madhiN (getV w))
  | 0x16 => some (.div (getW w))
  | 0x17 => some (.rem (getW w))
  | 0x18 => some (.min (getW w))
  | 0x19 => some (.max (getW w))
  | 0x1A => some (.absd (getW w))
  | 0x1B => some (.addi (getI w))
  | 0x1C => some (.muli (getI w))
  | 0x1D => some (.addc (getW w))
  | 0x1E => some (.subb (getW w))
  | 0x1F => lastBit w (.sad (getV w))
  | 0x20 => some (.and (getW w))
  | 0x21 => some (.or (getW w))
  | 0x22 => some (.xor (getW w))
  | 0x23 => some (.andn (getW w))
  | 0x24 => some (.shl (getW w))
  | 0x25 => some (.shr (getW w))
  | 0x26 => some (.sar (getW w))
  | 0x27 => some (.rotl (getW w))
  | 0x28 => some (.andi (getI w))
  | 0x29 => some (.ori (getI w))
  | 0x2A => some (.xori (getI w))
  | 0x2B => some (.shi (getI w))
  | 0x2C => lastBit w (.funnel (getV w))
  | 0x2D => some (.bfx (getW w))
  | 0x2E => lastBit w (.bfi (getV w))
  | 0x2F => some (.bitop (getW w))
  | 0x30 => some (.setp (getW w))
  | 0x31 => some (.setpi (getI w))
  | 0x32 => some (.plogic (getW w))
  | 0x33 => lastBit w (.sel (getV w))
  | 0x34 => some (.pmov (getW w))
  | 0x35 => some (.vote (getW w))
  | 0x36 => some (.matchG (getW w))
  | 0x37 => some (.permb (getW w))
  | 0x40 => some (.lea (getW w))
  | 0x41 => some (.movi (getI w))
  | 0x42 => some (.movih (getI w))
  | 0x43 => some (.mov (getW w))
  | 0x44 => some (.movx (getW w))
  | 0x50 => some (.fadd (getW w))
  | 0x51 => some (.fsub (getW w))
  | 0x52 => some (.fmul (getW w))
  | 0x53 => lastBit w (.ffma (getV w))
  | 0x54 => some (.fmin (getW w))
  | 0x55 => some (.fmax (getW w))
  | 0x56 => some (.funary (getW w))
  | 0x57 => some (.fspecial (getW w))
  | 0x58 => some (.fclass (getW w))
  | 0x59 => some (.fmuli (getI w))
  | 0x60 => some (.hadd2 (getW w))
  | 0x61 => some (.hmul2 (getW w))
  | 0x62 => lastBit w (.hfma2 (getV w))
  | 0x63 => lastBit w (.bfma2 (getV w))
  | 0x64 => some (.hmin2 (getW w))
  | 0x65 => some (.hmax2 (getW w))
  | 0x66 => lastBit w (.hdot2 (getV w))
  | 0x67 => lastBit w (.bdot2 (getV w))
  | 0x68 => lastBit w (.idot4 (getV w))
  | 0x69 => lastBit w (.idot4n (getV w))
  | 0x70 => some (.cvt (getW w))
  | 0x71 => some (.pack2 (getW w))
  | 0x72 => some (.unpack (getW w))
  | 0x73 => some (.bfpq (getW w))
  | 0x74 => some (.bfpd (getW w))
  | 0x75 => some (.tagset (getW w))
  | 0x76 => some (.tagget (getW w))
  | 0x80 => some (.reduce (getW w))
  | 0x81 => some (.scan (getW w))
  | 0x82 => some (.join (getI w))
  | 0x83 => some (.leave (getI w))
  | 0x84 => some (.bara (getI w))
  | 0x85 => some (.bars (getI w))
  | 0x86 => some (.barw (getI w))
  | 0x87 => some (.lend (getI w))
  | 0x88 => some (.recruit (getE w))
  | 0x89 => some (.iter (getW w))
  | 0x8A => some (.contrib (getW w))
  | 0x8B => some (.rjoin (getI w))
  | 0x8C => some (.reclaim (getI w))
  | 0x8D => some (.rget (getI w))
  | 0x8E => some (.rput (getI w))
  | 0x8F => some (.dispense (getW w))
  | 0x90 => some (.ld8 (getM w))
  | 0x91 => some (.ld8s (getM w))
  | 0x92 => some (.ld16 (getM w))
  | 0x93 => some (.ld16s (getM w))
  | 0x94 => some (.ld32 (getM w))
  | 0x95 => some (.ld64 (getM w))
  | 0x96 => some (.ld128 (getM w))
  | 0x97 => some (.st8 (getM w))
  | 0x98 => some (.st16 (getM w))
  | 0x99 => some (.st32 (getM w))
  | 0x9A => some (.st64 (getM w))
  | 0x9B => some (.st128 (getM w))
  | 0x9C => some (.atom (getW w))
  | 0x9D => lastBit w (.cas (getV w))
  | 0x9E => some (.fence (getS w))
  | 0x9F => some (.ntdrain (getS w))
  | 0xA0 => some (.rmap (getE w))
  | 0xA1 => some (.runmap (getE w))
  | 0xA2 => some (.wback (getE w))
  | 0xA3 => some (.cpy (getE w))
  | 0xA4 => some (.cpyd (getE w))
  | 0xA5 => some (.acpy (getE w))
  | 0xA6 => some (.gatom (getE w))
  | 0xA7 => match (fld w 46 2).toNat with | 0 => some (.semwaitTake (getE w)) | 1 => some (.semwaitEq (getE w)) | _ => none
  | 0xA8 => some (.sempost (getE w))
  | 0xA9 => some (.tbinit (getE w))
  | 0xAA => some (.tbwait (getE w))
  | 0xAB => some (.tbtest (getE w))
  | 0xAC => some (.sjoin (getE w))
  | 0xAD => some (.sleave (getE w))
  | 0xB0 => some (.mfence (getE w))
  | 0xB1 => some (.mma (getE w))
  | 0xB2 => some (.mwait (getE w))
  | 0xB3 => match (fld w 46 2).toNat with | 0 => some (.mprogProg (getE w)) | 1 => some (.mprogCopy (getE w)) | 2 => some (.mprogLast (getE w)) | _ => none
  | 0xB4 => some (.mstop (getE w))
  | 0xB5 => match (fld w 46 2).toNat with | 0 => some (.mresume (getE w)) | 1 => some (.mresumeLoad (getE w)) | 2 => some (.mresumeTick (getE w)) | _ => none
  | 0xB6 => some (.aclr (getE w))
  | 0xC0 => some (.cvclr (getE w))
  | 0xC1 => some (.cvpath (getE w))
  | 0xC2 => some (.cvscan (getE w))
  | 0xC3 => some (.cvbox (getW w))
  | 0xC4 => some (.cvstop (getE w))
  | 0xC5 => some (.cvresume (getE w))
  | 0xC6 => match (fld w 46 2).toNat with | 0 => some (.cvsaveImg (getE w)) | 1 => some (.cvsaveCtl (getE w)) | 2 => some (.cvsaveQ (getE w)) | _ => none
  | 0xC7 => match (fld w 46 2).toNat with | 0 => some (.cvloadImg (getE w)) | 1 => some (.cvloadCtl (getE w)) | 2 => some (.cvloadQ (getE w)) | _ => none
  | 0xD0 => some (.mfs (getS w))
  | 0xD1 => some (ofMts (getS w))
  | 0xD3 => some (.eret (getS w))
  | 0xD5 => some (.wfi (getS w))
  | 0xD6 => some (.qbind (getS w))
  | 0xD7 => some (.qunbind (getS w))
  | 0xD8 => some (.kpend (getS w))
  | 0xD9 => some (.ipi (getS w))
  | 0xDA => some (.iflush (getS w))
  | _ => none

/-- The opcode OP, bits [63:56] (R167). -/
def opOf (w : W64) : Nat := (fld w 56 8).toNat

/-- The decoder: the instruction of a word that stands in a block, or none where check 1 of R185 refuses the word, which then
traps ILLEGAL. -/
def decode (w : W64) : Option Instr :=
  match ofOp (opOf w) w with
  | some i => if legal i then some i else none
  | none => none

/-- The word of an instruction, from the encoding tables; none for an event of the part. -/
def encode (i : Instr) : Option W64 :=
  match i with
  | .nop f => some (putV 0x00 f)
  | .bra f => some (putC 0x01 f)
  | .call f => some (putC 0x02 f)
  | .jmpi f => some (putC 0x03 f)
  | .calli f => some (putC 0x04 f)
  | .ret f => some (putC 0x05 f)
  | .exit f => some (putC 0x06 f)
  | .yield f => some (putC 0x07 f)
  | .trap f => some (putI 0x08 f)
  | .brk f => some (putI 0x09 f)
  | .holdx f => some (putC 0x0A f)
  | .sleep f => some (putI 0x0B f)
  | .add f => some (putW 0x10 f)
  | .sub f => some (putW 0x11 f)
  | .mul f => some (putW 0x12 f)
  | .mad f => some (putV 0x13 f)
  | .madhiI f => some (putV 0x14 f)
  | .madhiN f => some (putV 0x15 f)
  | .div f => some (putW 0x16 f)
  | .rem f => some (putW 0x17 f)
  | .min f => some (putW 0x18 f)
  | .max f => some (putW 0x19 f)
  | .absd f => some (putW 0x1A f)
  | .addi f => some (putI 0x1B f)
  | .muli f => some (putI 0x1C f)
  | .addc f => some (putW 0x1D f)
  | .subb f => some (putW 0x1E f)
  | .sad f => some (putV 0x1F f)
  | .and f => some (putW 0x20 f)
  | .or f => some (putW 0x21 f)
  | .xor f => some (putW 0x22 f)
  | .andn f => some (putW 0x23 f)
  | .shl f => some (putW 0x24 f)
  | .shr f => some (putW 0x25 f)
  | .sar f => some (putW 0x26 f)
  | .rotl f => some (putW 0x27 f)
  | .andi f => some (putI 0x28 f)
  | .ori f => some (putI 0x29 f)
  | .xori f => some (putI 0x2A f)
  | .shi f => some (putI 0x2B f)
  | .funnel f => some (putV 0x2C f)
  | .bfx f => some (putW 0x2D f)
  | .bfi f => some (putV 0x2E f)
  | .bitop f => some (putW 0x2F f)
  | .setp f => some (putW 0x30 f)
  | .setpi f => some (putI 0x31 f)
  | .plogic f => some (putW 0x32 f)
  | .sel f => some (putV 0x33 f)
  | .pmov f => some (putW 0x34 f)
  | .vote f => some (putW 0x35 f)
  | .matchG f => some (putW 0x36 f)
  | .permb f => some (putW 0x37 f)
  | .lea f => some (putW 0x40 f)
  | .movi f => some (putI 0x41 f)
  | .movih f => some (putI 0x42 f)
  | .mov f => some (putW 0x43 f)
  | .movx f => some (putW 0x44 f)
  | .fadd f => some (putW 0x50 f)
  | .fsub f => some (putW 0x51 f)
  | .fmul f => some (putW 0x52 f)
  | .ffma f => some (putV 0x53 f)
  | .fmin f => some (putW 0x54 f)
  | .fmax f => some (putW 0x55 f)
  | .funary f => some (putW 0x56 f)
  | .fspecial f => some (putW 0x57 f)
  | .fclass f => some (putW 0x58 f)
  | .fmuli f => some (putI 0x59 f)
  | .hadd2 f => some (putW 0x60 f)
  | .hmul2 f => some (putW 0x61 f)
  | .hfma2 f => some (putV 0x62 f)
  | .bfma2 f => some (putV 0x63 f)
  | .hmin2 f => some (putW 0x64 f)
  | .hmax2 f => some (putW 0x65 f)
  | .hdot2 f => some (putV 0x66 f)
  | .bdot2 f => some (putV 0x67 f)
  | .idot4 f => some (putV 0x68 f)
  | .idot4n f => some (putV 0x69 f)
  | .cvt f => some (putW 0x70 f)
  | .pack2 f => some (putW 0x71 f)
  | .unpack f => some (putW 0x72 f)
  | .bfpq f => some (putW 0x73 f)
  | .bfpd f => some (putW 0x74 f)
  | .tagset f => some (putW 0x75 f)
  | .tagget f => some (putW 0x76 f)
  | .reduce f => some (putW 0x80 f)
  | .scan f => some (putW 0x81 f)
  | .join f => some (putI 0x82 f)
  | .leave f => some (putI 0x83 f)
  | .bara f => some (putI 0x84 f)
  | .bars f => some (putI 0x85 f)
  | .barw f => some (putI 0x86 f)
  | .lend f => some (putI 0x87 f)
  | .recruit f => some (putE 0x88 f)
  | .iter f => some (putW 0x89 f)
  | .contrib f => some (putW 0x8A f)
  | .rjoin f => some (putI 0x8B f)
  | .reclaim f => some (putI 0x8C f)
  | .rget f => some (putI 0x8D f)
  | .rput f => some (putI 0x8E f)
  | .dispense f => some (putW 0x8F f)
  | .ld8 f => some (putM 0x90 f)
  | .ld8s f => some (putM 0x91 f)
  | .ld16 f => some (putM 0x92 f)
  | .ld16s f => some (putM 0x93 f)
  | .ld32 f => some (putM 0x94 f)
  | .ld64 f => some (putM 0x95 f)
  | .ld128 f => some (putM 0x96 f)
  | .st8 f => some (putM 0x97 f)
  | .st16 f => some (putM 0x98 f)
  | .st32 f => some (putM 0x99 f)
  | .st64 f => some (putM 0x9A f)
  | .st128 f => some (putM 0x9B f)
  | .atom f => some (putW 0x9C f)
  | .cas f => some (putV 0x9D f)
  | .fence f => some (putS 0x9E f)
  | .ntdrain f => some (putS 0x9F f)
  | .rmap f => some (putE 0xA0 f)
  | .runmap f => some (putE 0xA1 f)
  | .wback f => some (putE 0xA2 f)
  | .cpy f => some (putE 0xA3 f)
  | .cpyd f => some (putE 0xA4 f)
  | .acpy f => some (putE 0xA5 f)
  | .gatom f => some (putE 0xA6 f)
  | .semwaitTake f => some (putE 0xA7 f)
  | .semwaitEq f => some (putE 0xA7 f)
  | .sempost f => some (putE 0xA8 f)
  | .tbinit f => some (putE 0xA9 f)
  | .tbwait f => some (putE 0xAA f)
  | .tbtest f => some (putE 0xAB f)
  | .sjoin f => some (putE 0xAC f)
  | .sleave f => some (putE 0xAD f)
  | .mfence f => some (putE 0xB0 f)
  | .mma f => some (putE 0xB1 f)
  | .mwait f => some (putE 0xB2 f)
  | .mprogProg f => some (putE 0xB3 f)
  | .mprogCopy f => some (putE 0xB3 f)
  | .mprogLast f => some (putE 0xB3 f)
  | .mstop f => some (putE 0xB4 f)
  | .mresume f => some (putE 0xB5 f)
  | .mresumeLoad f => some (putE 0xB5 f)
  | .mresumeTick f => some (putE 0xB5 f)
  | .aclr f => some (putE 0xB6 f)
  | .cvclr f => some (putE 0xC0 f)
  | .cvpath f => some (putE 0xC1 f)
  | .cvscan f => some (putE 0xC2 f)
  | .cvbox f => some (putW 0xC3 f)
  | .cvstop f => some (putE 0xC4 f)
  | .cvresume f => some (putE 0xC5 f)
  | .cvsaveImg f => some (putE 0xC6 f)
  | .cvsaveCtl f => some (putE 0xC6 f)
  | .cvsaveQ f => some (putE 0xC6 f)
  | .cvloadImg f => some (putE 0xC7 f)
  | .cvloadCtl f => some (putE 0xC7 f)
  | .cvloadQ f => some (putE 0xC7 f)
  | .mfs f => some (putS 0xD0 f)
  | .mts f => some (putS 0xD1 f)
  | .eret f => some (putS 0xD3 f)
  | .wfi f => some (putS 0xD5 f)
  | .qbind f => some (putS 0xD6 f)
  | .qunbind f => some (putS 0xD7 f)
  | .kpend f => some (putS 0xD8 f)
  | .ipi f => some (putS 0xD9 f)
  | .iflush f => some (putS 0xDA f)
  | .evtWrite f => some (putS 0xD1 f)
  | .bcntWrite f => some (putS 0xD1 f)
  | .tctxWrite f => some (putS 0xD1 f)
  | .tsaveWrite f => some (putS 0xD1 f)
  | .tloadWrite f => some (putS 0xD1 f)
  | .sphaseWrite f => some (putS 0xD1 f)
  | .dump _ => none
  | .dumpd _ => none
  | .load _ => none
  | .run _ => none
  | .free _ => none
  | .dumpImageWrite _ => none
  | .preemptDelivery _ => none
  | .segmentGuard _ _ => none
  | .threadAgeGuard _ _ => none
  | .holdTimeout _ _ => none
  | .sleepExpire _ _ => none
  | .yieldExpire _ _ => none
  | .bartimeout _ _ => none
  | .subordinateKill _ _ => none
  | .loadDataReturn _ _ => none
  | .lineFillComplete _ _ _ => none
  | .lineWritebackComplete _ _ _ => none
  | .forwardedWritePerform _ _ _ => none
  | .ntWriteback _ _ _ => none
  | .promotionRequest _ => none
  | .icacheFill _ _ _ => none
  | .copyStart _ _ => none
  | .copyRetire _ _ _ => none
  | .semwaitSucceed _ _ _ => none
  | .sempostPerform _ _ _ => none
  | .dispenserClaim _ _ => none
  | .shareRevocation _ => none
  | .matrixOpStart _ => none
  | .matrixKblock _ => none
  | .matrixOpEnd _ => none
  | .covCommandStart _ => none
  | .covPathRecord _ => none
  | .pageWalkComplete _ _ => none
  | .fqheadWrite _ _ => none
  | .frespRetry _ _ => none
  | .frespFail _ _ => none
  | .invcmd _ => none
  | .invalidationComplete => none
  | .miggo _ => none
  | .migrationRound => none
  | .atsTranslationCompletion _ _ _ _ => none
  | .priResponse _ _ => none
  | .atsInvalidateRequest _ _ _ => none
  | .kwrWrite _ _ _ _ => none
  | .queueLookahead _ _ => none
  | .launchPacket _ _ => none
  | .callPacket _ => none
  | .returnPacket _ => none
  | .joinPacket _ => none
  | .condPacket _ _ => none
  | .signalPacket _ _ => none
  | .waitPacket _ => none
  | .waitSatisfied _ _ => none
  | .waitTimeout _ => none
  | .framePacket _ => none
  | .nopPacket _ => none
  | .instanceEnd _ => none
  | .coreAllocation _ => none
  | .launchWatchdog _ => none
  | .tick _ => none
  | .gangTick _ => none
  | .saveDeadline _ => none
  | .prestop _ => none
  | .parkThreshold _ => none
  | .apply _ => none
  | .activate _ => none
  | .diereset _ _ => none
  | .rststatRead => none
  | .mmioRegisterWrite _ _ _ _ => none
  | .bar2Access _ _ _ => none
  | .telemetryRefresh => none
  | .frameEmit _ => none
  | .frameSubstitute _ => none
  | .bootctlWarmStart => none
  | .bootctlColdStart => none
  | .powerOn => none
  | .fundamentalReset => none
  | .hotReset => none
  | .linkDown => none
  | .flr _ => none
  | .surpriseRemoval => none
  | .startTimeout => none
  | .rdmaWrite _ _ _ _ => none
  | .rdmaRead _ _ _ _ => none
  | .send _ _ _ => none
  | .rdmaAck _ => none
  | .rdmaReadResponse _ _ => none
  | .rdmaNak _ => none
  | .rdmaAckTimeout _ => none
  | .ptpMessage _ _ => none
  | .doeDiscovery _ => none
  | .getVersion _ => none
  | .getCapabilities _ => none
  | .negotiateAlgorithms _ _ _ => none
  | .getDigests _ => none
  | .getCertificate _ _ _ _ => none
  | .challenge _ _ _ => none
  | .getMeasurements _ _ _ => none
  | .pldmType0Request => none
  | .pldmSensorRead _ => none
  | .pldmFirmwareUpdate _ _ _ => none
  | .ready => none
  | .linkUp => none
  | .flrComplete _ => none
  | .dieResetComplete _ => none
  | .configurationRequest _ _ => none
  | .windowAccessAccepted _ _ => none
  | .portLinkChange _ _ => none
  | .pfcPauseFrame _ _ _ => none
  | .ecnMark _ => none
  | .mainPowerLoss => none
  | .uncorrectableError _ _ => none
  | .droopEvent _ => none

/-- The instruction the decoder reads from an instruction whose bits are `w`. The rows of Thyne are one 64-bit word; a longer or
shorter row names no instruction word. -/
def decodeTableWord (nbits w : Nat) : Option Instr :=
  if nbits ≤ 64 then decode (BitVec.ofNat 64 w) else none

end Sys2Proof
end

