-- ==== Sys2Proof/Machine/Crypto.lean ====
section
/-! DEFINITION. The hash, the keys and the signatures of firmware, identity and attestation: SHA-512, HMAC-SHA-512 and ECDSA on P-521
(R4, R409, R413, R414). The spec names them; their steps and constants are those of FIPS 180-4, FIPS 198-1 and FIPS 186-5
(PRESUMED, log 113). -/

namespace Sys2Proof.Machine
open Sys2Proof

/-! ### SHA-512 -/

/-- Big-endian value of bytes, and the `n` low bytes of a value, big-endian. -/
def beNat (bs : List Byte) : Nat := bs.foldl (fun a b => 256 * a + b.toNat) 0
def beBytes (n v : Nat) : List Byte := (List.range n).map (fun i => BitVec.ofNat 8 (v / 256 ^ (n - 1 - i)))

def shaK0 : List W64 :=
  [
   0x428A2F98D728AE22, 0x7137449123EF65CD, 0xB5C0FBCFEC4D3B2F, 0xE9B5DBA58189DBBC,
   0x3956C25BF348B538, 0x59F111F1B605D019, 0x923F82A4AF194F9B, 0xAB1C5ED5DA6D8118,
   0xD807AA98A3030242, 0x12835B0145706FBE, 0x243185BE4EE4B28C, 0x550C7DC3D5FFB4E2,
   0x72BE5D74F27B896F, 0x80DEB1FE3B1696B1, 0x9BDC06A725C71235, 0xC19BF174CF692694,
   0xE49B69C19EF14AD2, 0xEFBE4786384F25E3, 0x0FC19DC68B8CD5B5, 0x240CA1CC77AC9C65,
   0x2DE92C6F592B0275, 0x4A7484AA6EA6E483, 0x5CB0A9DCBD41FBD4, 0x76F988DA831153B5,
   0x983E5152EE66DFAB, 0xA831C66D2DB43210, 0xB00327C898FB213F, 0xBF597FC7BEEF0EE4,
   0xC6E00BF33DA88FC2, 0xD5A79147930AA725, 0x06CA6351E003826F, 0x142929670A0E6E70,
   0x27B70A8546D22FFC, 0x2E1B21385C26C926, 0x4D2C6DFC5AC42AED, 0x53380D139D95B3DF,
   0x650A73548BAF63DE, 0x766A0ABB3C77B2A8, 0x81C2C92E47EDAEE6, 0x92722C851482353B]
def shaK1 : List W64 :=
  [
   0xA2BFE8A14CF10364, 0xA81A664BBC423001, 0xC24B8B70D0F89791, 0xC76C51A30654BE30,
   0xD192E819D6EF5218, 0xD69906245565A910, 0xF40E35855771202A, 0x106AA07032BBD1B8,
   0x19A4C116B8D2D0C8, 0x1E376C085141AB53, 0x2748774CDF8EEB99, 0x34B0BCB5E19B48A8,
   0x391C0CB3C5C95A63, 0x4ED8AA4AE3418ACB, 0x5B9CCA4F7763E373, 0x682E6FF3D6B2B8A3,
   0x748F82EE5DEFB2FC, 0x78A5636F43172F60, 0x84C87814A1F0AB72, 0x8CC702081A6439EC,
   0x90BEFFFA23631E28, 0xA4506CEBDE82BDE9, 0xBEF9A3F7B2C67915, 0xC67178F2E372532B,
   0xCA273ECEEA26619C, 0xD186B8C721C0C207, 0xEADA7DD6CDE0EB1E, 0xF57D4F7FEE6ED178,
   0x06F067AA72176FBA, 0x0A637DC5A2C898A6, 0x113F9804BEF90DAE, 0x1B710B35131C471B,
   0x28DB77F523047D84, 0x32CAAB7B40C72493, 0x3C9EBE0A15C9BEBC, 0x431D67C49C100D4C,
   0x4CC5D4BECB3E42B6, 0x597F299CFC657E2A, 0x5FCB6FAB3AD6FAEC, 0x6C44198C4A475817]
/-- The 80 round constants. -/
def shaK : List W64 := shaK0 ++ shaK1
/-- The first hash value. -/
def shaH : List W64 :=
  [0x6A09E667F3BCC908, 0xBB67AE8584CAA73B, 0x3C6EF372FE94F82B, 0xA54FF53A5F1D36F1,
   0x510E527FADE682D1, 0x9B05688C2B3E6C1F, 0x1F83D9ABFB41BD6B, 0x5BE0CD19137E2179]

/-- One round: the eight working words and the next 16 words of the message schedule. -/
def shaRound (x : List W64 × List W64) (k : W64) : List W64 × List W64 :=
  let v (i : Nat) : W64 := x.1.getD i 0
  let w (i : Nat) : W64 := x.2.getD i 0
  let rr (z : W64) (n : Nat) : W64 := z.rotateRight n
  let t1 := v 7 + (rr (v 4) 14 ^^^ rr (v 4) 18 ^^^ rr (v 4) 41) + ((v 4 &&& v 5) ^^^ (~~~(v 4) &&& v 6)) + k + w 0
  let t2 := (rr (v 0) 28 ^^^ rr (v 0) 34 ^^^ rr (v 0) 39) + ((v 0 &&& v 1) ^^^ (v 0 &&& v 2) ^^^ (v 1 &&& v 2))
  let next := (rr (w 14) 19 ^^^ rr (w 14) 61 ^^^ (w 14 >>> 6)) + w 9 + (rr (w 1) 1 ^^^ rr (w 1) 8 ^^^ (w 1 >>> 7)) + w 0
  ([t1 + t2, v 0, v 1, v 2, v 3 + t1, v 4, v 5, v 6], x.2.drop 1 ++ [next])

/-- One block of 128 bytes. -/
def shaBlock (h : List W64) (bs : List Byte) : List W64 :=
  let ws := (List.range 16).map (fun i => BitVec.ofNat 64 (beNat ((bs.drop (8 * i)).take 8)))
  List.zipWith (· + ·) h (shaK.foldl shaRound (h, ws)).1

/-- `n` blocks. -/
def shaBlocks : Nat → List W64 → List Byte → List W64
  | 0, h, _ => h
  | n + 1, h, bs => shaBlocks n (shaBlock h (bs.take 128)) (bs.drop 128)

/-- SHA-512: 64 bytes. -/
def sha512 (bs : List Byte) : List Byte :=
  let pad := bs ++ 0x80 :: List.replicate ((239 - bs.length % 128) % 128) 0 ++ beBytes 16 (8 * bs.length)
  (shaBlocks (pad.length / 128) shaH pad).flatMap (fun w => beBytes 8 w.toNat)

/-- HMAC-SHA-512 with a key of at most 128 bytes. -/
def hmacSha512 (key msg : List Byte) : List Byte :=
  let k := key ++ List.replicate (128 - key.length) 0
  sha512 (k.map (· ^^^ 0x5C) ++ sha512 (k.map (· ^^^ 0x36) ++ msg))

/-! ### P-521 -/

/-- The field, the order of the base point, the curve's constant and the base point. -/
def ecP : Nat := 2 ^ 521 - 1
def ecN : Nat :=
  0x1FFFFFFFFFFFFFFFFFFFFFFFFFFFFFFFFFFFFFFFFFFFFFFFFFFFFFFFFFFFFFFFFFA51868783BF2F966B7FCC0148F709A5D03BB5C9B8899C47AEBB6FB71E91386409
def ecB : Nat :=
  0x51953EB9618E1C9A1F929A21A0B68540EEA2DA725B99B315F3B8B489918EF109E156193951EC7E937B1652C0BD3BB1BF073573DF883D2C34F1EF451FD46B503F00
def ecG : Nat × Nat :=
  (0xC6858E06B70404E9CD9E3ECB662395B4429C648139053FB521F828AF606B4D3DBAA14B5E77EFE75928FE1DC127A2FFA8DE3348B3C1856A429BF97E7E31C2E5BD66,
   0x11839296A789A3BC0045C8A5FB42C7D1BD998F54449579B446817AFBD17273E662C97EE72995EF42640C550B9013FAD0761353C7086A272C24088BE94769FD16650)

/-- `a` to the power `e`, below 2^521, modulo `m`; an inverse modulo a prime. -/
def powMod (m a e : Nat) : Nat :=
  (List.range 521).foldr (fun i x => let y := x * x % m; if e.testBit i then y * a % m else y) 1
def invMod (m a : Nat) : Nat := powMod m a (m - 2)

/-- The sum of two points of the curve; none is the point at infinity. -/
def ecAdd (p q : Option (Nat × Nat)) : Option (Nat × Nat) :=
  match p, q with
  | none, q => q
  | p, none => p
  | some (a, b), some (c, d) =>
    if a = c ∧ (b + d) % ecP = 0 then none
    else
      let l := (if a = c then (3 * a * a + ecP - 3) * invMod ecP (2 * b % ecP) else (d + ecP - b) * invMod ecP ((c + ecP - a) % ecP)) % ecP
      let x := (l * l + 2 * ecP - a - c) % ecP
      some (x, (l * (a + ecP - x) + ecP - b) % ecP)

/-- A multiple of a point, of a factor below 2^521. -/
def ecMul (n : Nat) (p : Option (Nat × Nat)) : Option (Nat × Nat) :=
  (List.range 521).foldr (fun i x => let y := ecAdd x x; if n.testBit i then ecAdd y p else y) none

/-- The point of an uncompressed public key, if it lies on the curve. -/
def ecPoint (key : List Byte) : Option (Nat × Nat) :=
  let x := beNat ((key.drop 1).take 66)
  let y := beNat ((key.drop 67).take 66)
  if key.length = 133 ∧ key.headD 0 = 4 ∧ x < ecP ∧ y < ecP ∧ y * y % ecP = (x * x * x + (ecP - 3) * x + ecB) % ecP then some (x, y) else none

/-- ECDSA P-521 verification with SHA-512 (R409): an uncompressed public point, r and s big-endian, the message. -/
def ecdsaOk (key r s msg : List Byte) : Bool :=
  let r := beNat r
  let s := beNat s
  match ecPoint key with
  | none => false
  | some q =>
    let w := invMod ecN s
    decide (0 < r ∧ r < ecN ∧ 0 < s ∧ s < ecN) &&
      (match ecAdd (ecMul (beNat (sha512 msg) * w % ecN) (some ecG)) (ecMul (r * w % ecN) (some q)) with
       | some (x, _) => x % ecN == r
       | none => false)

/-- A signature with a private key and a secret number of one use: r and s, big-endian. -/
def ecdsaSign (d k : Nat) (msg : List Byte) : List Byte :=
  let r := match ecMul k (some ecG) with | some (x, _) => x % ecN | none => 0
  let s := invMod ecN k * (beNat (sha512 msg) + r * d) % ecN
  beBytes 66 r ++ beBytes 66 s

/-! ### The device's identity (R413) -/

/-- A number from 1 to below the order of the base point. -/
def ecScalar (n : Nat) : Nat := n % (ecN - 1) + 1

/-- The fused 64-byte secret. -/
def secret : List Byte := (List.range 64).map Config.fused

/-- The private half of the identity key: from the secret with HMAC-SHA-512; which messages the ROM takes is open (log 113). -/
def identityKey : Nat := ecScalar (beNat (hmacSha512 secret (Config.keyLabel 0) ++ hmacSha512 secret (Config.keyLabel 1)))
/-- The public half. -/
def identityPoint : Option (Nat × Nat) := ecMul identityKey (some ecG)

/-- The signature over a transcript, with the secret number of the counter (R413, R414). -/
def identitySign (n : Nat) (msg : List Byte) : List Byte := ecdsaSign identityKey (ecScalar (Config.freeNat n)) msg

end Sys2Proof.Machine
end

