-- ==== Sys2Proof/Machine/Flags.lean ====
section
/-! DEFINITION. Number formats and every flag computation: the exact values of R51 and R54, the one rounding, the sticky flags of
R56, minimum and maximum, comparisons, saturation of integers (R52), the special functions of R55. -/

namespace Sys2Proof.Machine

/-! ### The sticky floating-point flags (R56) -/

def fINV : BitVec 4 := 1
def fOVF : BitVec 4 := 2
def fUNF : BitVec 4 := 4
def fINX : BitVec 4 := 8

/-- A delivered result and the flags it raises. -/
abbrev FRes := W32 × BitVec 4

/-- A binary floating-point format: exponent bits, fraction bits (R51). -/
structure Fmt where
  eb : Nat
  mb : Nat
  deriving DecidableEq, Repr

def f32 : Fmt := ⟨8, 23⟩
def f16 : Fmt := ⟨5, 10⟩
def bf16 : Fmt := ⟨8, 7⟩

def Fmt.bias (f : Fmt) : Nat := 2 ^ (f.eb - 1) - 1
/-- Exponent of the last bit of a subnormal. -/
def Fmt.qmin (f : Fmt) : Int := 1 - (f.bias : Int) - (f.mb : Int)
/-- Exponent of the last bit of the largest finite value. -/
def Fmt.qmax (f : Fmt) : Int := ((2 ^ f.eb : Nat) : Int) - 2 - (f.bias : Int) - (f.mb : Int)
def Fmt.infBits (f : Fmt) : Nat := (2 ^ f.eb - 1) * 2 ^ f.mb
def Fmt.signBit (f : Fmt) : Nat := 2 ^ (f.eb + f.mb)
/-- The canonical NaN (R54). -/
def Fmt.nan (f : Fmt) : W32 := BitVec.ofNat 32 (f.infBits + 2 ^ (f.mb - 1))
def Fmt.withSign (f : Fmt) (neg : Bool) (mag : Nat) : W32 := BitVec.ofNat 32 (mag + if neg then f.signBit else 0)
def Fmt.inf (f : Fmt) (neg : Bool) : W32 := f.withSign neg f.infBits
def Fmt.maxFin (f : Fmt) (neg : Bool) : W32 := f.withSign neg (f.infBits - 1)
/-- The bits of a value of the format in the low part of a register (R51). -/
def Fmt.low (f : Fmt) (v : W32) : Nat := v.toNat % (2 * f.signBit)

/-- The value that bits stand for: `fin neg m e` is (-1)^neg * m * 2^e. -/
inductive FVal where
  | nan (sig : Bool)
  | inf (neg : Bool)
  | fin (neg : Bool) (m : Nat) (e : Int)
  deriving DecidableEq, Repr

def FVal.isSNaN : FVal → Bool
  | .nan sig => sig
  | _ => false
def FVal.isNaN : FVal → Bool
  | .nan _ => true
  | _ => false
def FVal.isInf : FVal → Bool
  | .inf _ => true
  | _ => false
def FVal.isZero : FVal → Bool
  | .fin _ m _ => m == 0
  | _ => false
def FVal.neg : FVal → Bool
  | .nan _ => false
  | .inf n => n
  | .fin n _ _ => n
def FVal.negate : FVal → FVal
  | .nan sig => .nan sig
  | .inf n => .inf !n
  | .fin n m e => .fin (!n) m e

/-- Reads the bits of a format (R51). -/
def Fmt.unpack (f : Fmt) (v : W32) : FVal :=
  let b := f.low v
  let neg := decide (f.signBit ≤ b)
  let mag := b % f.signBit
  let ex := mag / 2 ^ f.mb
  let fr := mag % 2 ^ f.mb
  if ex = 2 ^ f.eb - 1 then
    if fr = 0 then .inf neg else .nan (decide (fr < 2 ^ (f.mb - 1)))
  else if ex = 0 then .fin neg fr f.qmin
  else .fin neg (fr + 2 ^ f.mb) (f.qmin + (ex : Int) - 1)

/-! ### Rounding (R54) -/

/-- Rounding modes: 0 RNE, 1 RTZ, 2 RDN, 3 RUP (R54). -/
abbrev RMode := Nat

/-- Whether a magnitude with kept part `q`, dropped part `r` of `2^sh`, is rounded away from zero. -/
def roundAway (rm : RMode) (neg : Bool) (q r sh : Nat) : Bool :=
  if sh = 0 then false
  else match rm with
    | 0 => decide (2 ^ (sh - 1) < r) || (r == 2 ^ (sh - 1) && q % 2 == 1)
    | 1 => false
    | 2 => neg && r != 0
    | _ => !neg && r != 0

/-- `m * 2^e` cut to a multiple of `2^q`: the multiple and whether a part was lost. -/
def cutAt (rm : RMode) (neg : Bool) (m : Nat) (e q : Int) : Nat × Bool :=
  if q ≤ e then (m * 2 ^ (e - q).toNat, false)
  else
    let sh := (q - e).toNat
    let k := m / 2 ^ sh
    let r := m % 2 ^ sh
    (k + (if roundAway rm neg k r sh then 1 else 0), r != 0)

/-- Overflow under each mode (R54). -/
def Fmt.overflow (f : Fmt) (rm : RMode) (neg : Bool) : W32 :=
  match rm with
  | 0 => f.inf neg
  | 1 => f.maxFin neg
  | 2 => if neg then f.inf neg else f.maxFin neg
  | _ => if neg then f.maxFin neg else f.inf neg

/-- Rounds the nonzero magnitude `m * 2^e` once (R54). A result is tiny when rounding with an unbounded exponent leaves it below the
least normal value. -/
def Fmt.roundMag (f : Fmt) (rm : RMode) (neg : Bool) (m : Nat) (e : Int) : FRes :=
  let top : Int := e + (Nat.log2 m : Int)
  let qn : Int := top - (f.mb : Int)
  let q : Int := max qn f.qmin
  let (k, lost) := cutAt rm neg m e q
  let free := (cutAt rm neg m e qn).1
  let tiny := decide (top < f.qmin + (f.mb : Int)) &&
    !(free == 2 ^ (f.mb + 1) && decide (qn + 1 = f.qmin))
  let (k, q) := if k = 2 ^ (f.mb + 1) then (2 ^ f.mb, q + 1) else (k, q)
  if 2 ^ f.mb ≤ k ∧ f.qmax < q then (f.overflow rm neg, fOVF ||| fINX)
  else
    let mag := if k < 2 ^ f.mb then k else (k - 2 ^ f.mb) + ((q - f.qmin).toNat + 1) * 2 ^ f.mb
    (f.withSign neg mag, (if lost then fINX else 0) ||| (if lost && tiny then fUNF else 0))

/-- Rounds `m * 2^e`, zero included. -/
def Fmt.round (f : Fmt) (rm : RMode) (neg : Bool) (m : Nat) (e : Int) : FRes :=
  if m = 0 then (f.withSign neg 0, 0) else f.roundMag rm neg m e

/-- Rounds a signed value (RoundF of R187); a NaN becomes canonical, a signalling one raises INV. -/
def Fmt.ofVal (f : Fmt) (rm : RMode) (x : FVal) : FRes :=
  match x with
  | .nan sig => (f.nan, if sig then fINV else 0)
  | .inf n => (f.inf n, 0)
  | .fin n m e => f.round rm n m e

/-- Rounds an exact integer multiple of a power of two. -/
def Fmt.ofDyadic (f : Fmt) (rm : RMode) (m e : Int) : FRes := f.round rm (decide (m < 0)) m.natAbs e

/-! ### Exact sums and products -/

/-- The exact product; the flag is set for 0 × ∞. -/
def FVal.mul (a b : FVal) : FVal × Bool :=
  match a, b with
  | .nan x, .nan y => (.nan (x || y), false)
  | .nan x, _ => (.nan x, false)
  | _, .nan y => (.nan y, false)
  | .inf n, y => if y.isZero then (.nan false, true) else (.inf (n != y.neg), false)
  | x, .inf n => if x.isZero then (.nan false, true) else (.inf (x.neg != n), false)
  | .fin n m e, .fin n' m' e' => (.fin (n != n') (m * m') (e + e'), false)

/-- A finite value as an integer multiple of `2^q`, for `q` at most its exponent. -/
def FVal.scaled (q : Int) : FVal → Int
  | .fin n m e =>
    let k : Int := (m * 2 ^ (e - q).toNat : Nat)
    if n then -k else k
  | _ => 0
def FVal.exp : FVal → Int
  | .fin _ _ e => e
  | _ => 0

/-- The least exponent of a list of finite values. -/
def minExp : List FVal → Int
  | [] => 0
  | [x] => x.exp
  | x :: xs => min x.exp (minExp xs)

/-- The exact sum of finite values as `m * 2^e`. -/
def sumExact (xs : List FVal) : Int × Int :=
  let q := minExp xs
  ((xs.map (FVal.scaled q)).foldl (· + ·) 0, q)

/-- Rounds the exact sum of addends once. A NaN addend gives the canonical NaN, opposite infinities give it and raise INV; a zero sum
of equal signed zeros keeps the sign, any other zero sum is +0, and -0 under RDN (R217, R225). -/
def Fmt.sum (f : Fmt) (rm : RMode) (xs : List FVal) : FRes :=
  if xs.any FVal.isNaN then (f.nan, 0)
  else
    let pos := xs.any (fun x => x.isInf && !x.neg)
    let neg := xs.any (fun x => x.isInf && x.neg)
    if pos && neg then (f.nan, fINV)
    else if pos then (f.inf false, 0)
    else if neg then (f.inf true, 0)
    else
      let (m, e) := sumExact xs
      if m = 0 then
        let same := xs.all FVal.isZero && (xs.all (fun x => x.neg) || xs.all (fun x => !x.neg))
        (f.withSign (if same then xs.any (fun x => x.neg) else rm == 2) 0, 0)
      else f.ofDyadic rm m e

/-- INV for a signalling operand (R55). -/
def sigInv (xs : List FVal) : BitVec 4 := if xs.any FVal.isSNaN then fINV else 0

/-- FADD (R217). -/
def Fmt.add (f : Fmt) (rm : RMode) (a b : W32) : FRes :=
  let x := f.unpack a
  let y := f.unpack b
  let r := f.sum rm [x, y]
  (r.1, r.2 ||| sigInv [x, y])

/-- FSUB (R217). -/
def Fmt.sub (f : Fmt) (rm : RMode) (a b : W32) : FRes :=
  let x := f.unpack a
  let y := f.unpack b
  let r := f.sum rm [x, y.negate]
  (r.1, r.2 ||| sigInv [x, y])

/-- FMUL (R217). -/
def Fmt.mul (f : Fmt) (rm : RMode) (a b : W32) : FRes :=
  let x := f.unpack a
  let y := f.unpack b
  let (p, bad) := x.mul y
  let r := f.ofVal rm (if p.isNaN then .nan false else p)
  (r.1, r.2 ||| (if bad then fINV else 0) ||| sigInv [x, y])

/-- FFMA of a format, the product unrounded (R218, R224). -/
def Fmt.fma (f : Fmt) (rm : RMode) (a b c : W32) : FRes :=
  let x := f.unpack a
  let y := f.unpack b
  let z := f.unpack c
  let (p, bad) := x.mul y
  let r := f.sum rm [p, z]
  (r.1, r.2 ||| (if bad then fINV else 0) ||| sigInv [x, y, z])

/-- Opposite infinities among the addends, beside a NaN or not (R225). -/
def infClash (xs : List FVal) : Bool := xs.any (fun x => x.isInf && x.neg) && xs.any (fun x => x.isInf && !x.neg)

/-- HDOT2 and BDOT2 (R225): two products of format `g` and an f32 addend, one rounding. -/
def dot2 (g : Fmt) (a b c : W32) : FRes :=
  let x0 := g.unpack a
  let y0 := g.unpack b
  let x1 := g.unpack (a >>> 16)
  let y1 := g.unpack (b >>> 16)
  let z := f32.unpack c
  let (p0, b0) := x0.mul y0
  let (p1, b1) := x1.mul y1
  let r := f32.sum 0 [p0, p1, z]
  (r.1, r.2 ||| (if b0 || b1 || infClash [p0, p1, z] then fINV else 0) ||| sigInv [x0, y0, x1, y1, z])

/-! ### Comparison, minimum and maximum (R55, R206) -/

/-- A key that orders non-NaN bits, -0 below +0. -/
def Fmt.key (f : Fmt) (v : W32) : Int :=
  let b := f.low v
  if f.signBit ≤ b then -((b - f.signBit : Nat) : Int) - 1 else (b : Int)

/-- FMIN and FMAX (R55). -/
def Fmt.minmax (f : Fmt) (isMax : Bool) (a b : W32) : FRes :=
  let x := f.unpack a
  let y := f.unpack b
  let lo (v : W32) : W32 := BitVec.ofNat 32 (f.low v)
  let r := if x.isNaN then (if y.isNaN then f.nan else lo b)
    else if y.isNaN then lo a
    else if (f.key a ≤ f.key b) != isMax then lo a else lo b
  (r, sigInv [x, y])

/-- The order of two non-NaN values: -1, 0, 1; zeros compare equal. -/
def FVal.cmp (a b : FVal) : Int :=
  match a, b with
  | .inf n, .inf n' => if n = n' then 0 else if n then -1 else 1
  | .inf n, _ => if n then -1 else 1
  | _, .inf n => if n then 1 else -1
  | x, y =>
    let q := min x.exp y.exp
    let d := x.scaled q - y.scaled q
    if d < 0 then -1 else if d = 0 then 0 else 1

/-- The compare codes of SETP on floats (R206): the predicate and the flags. -/
def Fmt.compare (f : Fmt) (cc : Nat) (a b : W32) : Bool × BitVec 4 :=
  let x := f.unpack a
  let y := f.unpack b
  let nan := x.isNaN || y.isNaN
  let c := x.cmp y
  let res := match cc with
    | 0 => !nan && c == 0
    | 1 => nan || c != 0
    | 2 => !nan && decide (c < 0)
    | 3 => !nan && decide (c ≤ 0)
    | 4 => !nan && decide (0 < c)
    | 5 => !nan && decide (0 ≤ c)
    | 6 => !nan
    | _ => nan
  (res, sigInv [x, y] ||| (if nan && decide (2 ≤ cc ∧ cc ≤ 5) then fINV else 0))

/-! ### Rounding to an integer (R58, R220) -/

/-- `m * 2^e` rounded to an integer magnitude, and whether a fraction was lost. -/
def toIntMag (rm : RMode) (neg : Bool) (m : Nat) (e : Int) : Nat × Bool := cutAt rm neg m e 0

/-- FUNARY (R220): 0 ABS, 1 NEG, 2 FLOOR, 3 CEIL, 4 TRUNC, 5 RINT. -/
def Fmt.unary (f : Fmt) (op : Nat) (a : W32) : FRes :=
  let x := f.unpack a
  let b := f.low a
  let mag := b % f.signBit
  match x with
  | .nan sig => (f.nan, if sig then fINV else 0)
  | _ =>
    match op with
    | 0 => (f.withSign false mag, 0)
    | 1 => (f.withSign (!x.neg) mag, 0)
    | _ =>
      match x with
      | .fin n m e =>
        let rm := match op with | 2 => 2 | 3 => 3 | 4 => 1 | _ => 0
        let k := (toIntMag rm n m e).1
        ((f.round 0 n k 0).1, 0)
      | _ => (f.withSign x.neg mag, 0)

/-- FCLASS (R222): the index of the one bit set. -/
def Fmt.classOf (f : Fmt) (a : W32) : Nat :=
  match f.unpack a with
  | .nan sig => if sig then 8 else 9
  | .inf n => if n then 0 else 7
  | .fin n m _ =>
    if m = 0 then (if n then 3 else 4)
    else if m < 2 ^ f.mb then (if n then 2 else 5)
    else (if n then 1 else 6)

/-! ### Integers (R52, R53) -/

/-- The range of a type of `w` bits. -/
def intMin (signed : Bool) (w : Nat) : Int := if signed then -((2 ^ (w - 1) : Nat) : Int) else 0
def intMax (signed : Bool) (w : Nat) : Int := if signed then ((2 ^ (w - 1) : Nat) : Int) - 1 else ((2 ^ w : Nat) : Int) - 1

/-- Clamp of R190 and whether it changed the value. -/
def clampInt (signed : Bool) (w : Nat) (x : Int) : Int × Bool :=
  if x < intMin signed w then (intMin signed w, true)
  else if intMax signed w < x then (intMax signed w, true)
  else (x, false)

/-- A float to an integer type (R58, R226): the value, the flags, SATC. -/
def floatToInt (rm : RMode) (signed : Bool) (w : Nat) (x : FVal) : Int × BitVec 4 × Bool :=
  match x with
  | .nan _ => (0, fINV, true)
  | .inf n => (if n then intMin signed w else intMax signed w, fINV, true)
  | .fin n m e =>
    let (k, lost) := toIntMag rm n m e
    let v : Int := if n then -(k : Int) else (k : Int)
    let (c, sat) := clampInt signed w v
    if sat then (c, fINV, true) else (c, if lost then fINX else 0, false)

/-! ### Special functions (R55, R221) -/

/-- The integer square root, by bits from the top. -/
def isqrtAux (n : Nat) : Nat → Nat → Nat
  | 0, r => r
  | k + 1, r =>
    let t := r + 2 ^ k
    isqrtAux n k (if t * t ≤ n then t else r)

def isqrt (n : Nat) : Nat := isqrtAux n (Nat.log2 n / 2 + 1) 0

/-- SQRT of a positive finite value, correctly rounded RNE. -/
def sqrtRound (m : Nat) (e : Int) : FRes :=
  let odd := e % 2 != 0
  let m := if odd then 2 * m else m
  let e := if odd then e - 1 else e
  let n := m * 2 ^ 60
  let r := isqrt n
  let sticky := if r * r = n then 0 else 1
  f32.round 0 false (2 * r + sticky) (e / 2 - 31)

/-- The infinity of a finite input (R221: "A finite input whose result is infinite raises OVF and INX"; RCP, RSQ and LOG2 of a zero are such inputs, and R221's table of exact results does not hold them). -/
def pole (neg : Bool) : FRes := (f32.inf neg, fOVF ||| fINX)

/-- A faithful result for the inexact magnitude between `q * 2^e` and `(q + 1) * 2^e`: one of its two neighbours (R55: within 1 ulp). -/
def faithful (up neg : Bool) (q : Nat) (e : Int) : FRes :=
  let away := if neg then 2 else 3
  let r := f32.round (if up then away else 1) neg (2 * q + 1) (e - 1)
  if decide (128 ≤ e + (Nat.log2 q : Int)) then pole neg else r

/-- A power of two: its exponent, if `m * 2^e` is one. -/
def pow2? (m : Nat) (e : Int) : Option Int := if m = 2 ^ Nat.log2 m then some (e + (Nat.log2 m : Int)) else none

/-- RCP (R221). -/
def rcp (a : W32) : FRes :=
  match f32.unpack a with
  | .nan sig => (f32.nan, if sig then fINV else 0)
  | .inf n => (f32.withSign n 0, 0)
  | .fin n m e =>
    if m = 0 then pole n
    else match pow2? m e with
      | some k => f32.round 0 n 1 (-k)
      | none => faithful (Config.specialUp 0 a) n (2 ^ 100 / m) (-e - 100)

/-- RSQ (R221). -/
def rsq (a : W32) : FRes :=
  match f32.unpack a with
  | .nan sig => (f32.nan, if sig then fINV else 0)
  | .inf n => if n then (f32.nan, fINV) else (f32.withSign false 0, 0)
  | .fin n m e =>
    if m = 0 then pole n
    else if n then (f32.nan, fINV)
    else
      let exact := match pow2? m e with
        | some k => if k % 2 = 0 then some (k / 2) else none
        | none => none
      match exact with
      | some k => f32.round 0 false 1 (-k)
      | none =>
        let odd := e % 2 != 0
        let m := if odd then 2 * m else m
        let e := if odd then e - 1 else e
        faithful (Config.specialUp 1 a) false (isqrt (2 ^ 160 / m)) (-(e / 2) - 80)

/-- SQRT (R221). -/
def sqrt (a : W32) : FRes :=
  match f32.unpack a with
  | .nan sig => (f32.nan, if sig then fINV else 0)
  | .inf n => if n then (f32.nan, fINV) else (f32.inf false, 0)
  | .fin n m e =>
    if m = 0 then (f32.withSign n 0, 0)
    else if n then (f32.nan, fINV)
    else sqrtRound m e

/-- Fraction bits of the fixed-point reference values. -/
def fxP : Nat := 256

/-- The sum of `t * y / k` terms: a Taylor series whose term k is the term before it times `y / (k * 2^fxP)`, with sign `sg`. -/
def taylor (y : Int) (sg : Int) (step : Nat) : Nat → Nat → Int → Int → Int
  | 0, _, _, acc => acc
  | n + 1, k, term, acc =>
    let t1 := term * y / (2 ^ fxP : Nat) / (k : Int)
    let t2 := if step = 2 then t1 * y / (2 ^ fxP : Nat) / ((k + 1 : Nat) : Int) else t1
    taylor y sg step n (k + step) (sg * t2) (acc + sg * t2)

/-- arctan(1/q), fixed point. -/
def atanInv (q : Nat) : Nat → Nat → Int → Int → Int
  | 0, _, _, acc => acc
  | n + 1, k, pw, acc => atanInv q n (k + 1) (-(pw / ((q * q : Nat) : Int))) (acc + pw / ((2 * k + 1 : Nat) : Int))

/-- Pi with 512 fraction bits. -/
def piFx : Int :=
  let one : Int := ((2 ^ 512 : Nat) : Int)
  16 * atanInv 5 230 0 (one / 5) 0 - 4 * atanInv 239 70 0 (one / 239) 0

/-- ln 2, fixed point: the sum of 1/(k 2^k). -/
def ln2Fx : Nat := (List.range 260).foldl (fun a i => a + 2 ^ fxP / ((i + 1) * 2 ^ (i + 1))) 0

/-- The binary digits of log2 of `y` (1 ≤ y < 2, fixed point). -/
def log2Bits : Nat → Nat → Nat → Nat
  | 0, _, acc => acc
  | n + 1, y, acc =>
    let z := y * y / 2 ^ fxP
    if 2 ^ (fxP + 1) ≤ z then log2Bits n (z / 2) (2 * acc + 1) else log2Bits n z (2 * acc)

/-- The distance of a candidate from a reference value, both in units of `2^-fxP`. -/
def withinFx (cand : W32) (ref bound : Int) : Bool :=
  match f32.unpack cand with
  | .fin n m e =>
    let v : Int := if 0 ≤ e + (fxP : Int) then ((m * 2 ^ (e + (fxP : Int)).toNat : Nat) : Int) else 0
    decide (((if n then -v else v) - ref).natAbs ≤ bound.natAbs)
  | _ => false

/-- Two units in the last place of the f32 nearest to `ref`. -/
def ulp2 (ref : Int) : Int :=
  let top : Int := (Nat.log2 ref.natAbs : Int) - (fxP : Int)
  let q := max (top - 23) f32.qmin
  (2 ^ (q + (fxP : Int) + 1).toNat : Nat)

/-- The delivered bits of an approximated function: the part's own value where it lies within the bound, else the rounded reference
(R55). The result is never exact, so it raises INX, and UNF when it is tiny (R221). -/
def approx (code : Nat) (a : W32) (ref bound : Int) : FRes :=
  let cand := Config.special code a
  let r := if withinFx cand ref bound then cand else (f32.ofDyadic 0 ref (-(fxP : Int))).1
  match f32.unpack r with
  | .inf _ => (r, fOVF ||| fINX)
  | .fin _ m _ => (r, fINX ||| (if m < 2 ^ 23 then fUNF else 0))
  | .nan _ => (r, 0)

/-- A finite value as fixed point, floored. -/
def toFx (n : Bool) (m : Nat) (e : Int) : Int :=
  let s : Int := if n then -(m : Int) else (m : Int)
  if 0 ≤ e + (fxP : Int) then s * (2 ^ (e + (fxP : Int)).toNat : Nat) else s / (2 ^ (-(e + (fxP : Int))).toNat : Nat)

/-- EXP2 (R55, R221). -/
def exp2 (a : W32) : FRes :=
  match f32.unpack a with
  | .nan sig => (f32.nan, if sig then fINV else 0)
  | .inf n => if n then (0, 0) else (f32.inf false, 0)
  | .fin n m e =>
    let x := toFx n m e
    let one : Int := ((2 ^ fxP : Nat) : Int)
    if 128 * one < x then (f32.inf false, fOVF ||| fINX)
    else if x < -150 * one then (0, fUNF ||| fINX)
    else
      let k := x / one
      let fr := x % one
      if fr = 0 ∧ -149 ≤ k ∧ k ≤ 127 then f32.round 0 false 1 k
      else
        let y := fr * (ln2Fx : Int) / one
        let v := taylor y 1 1 70 1 one one
        let ref := if 0 ≤ k then v * (2 ^ k.toNat : Nat) else v / (2 ^ (-k).toNat : Nat)
        approx 3 a ref (ulp2 ref)

/-- LOG2 (R55, R221). -/
def log2 (a : W32) : FRes :=
  match f32.unpack a with
  | .nan sig => (f32.nan, if sig then fINV else 0)
  | .inf n => if n then (f32.nan, fINV) else (f32.inf false, 0)
  | .fin n m e =>
    if m = 0 then pole true
    else if n then (f32.nan, fINV)
    else
      let lg := Nat.log2 m
      let k : Int := e + (lg : Int)
      match pow2? m e with
      | some j => f32.ofDyadic 0 j 0
      | none =>
        let y := m * 2 ^ (fxP - lg)
        let ref : Int := k * ((2 ^ fxP : Nat) : Int) + ((log2Bits 128 y 0 * 2 ^ (fxP - 128) : Nat) : Int)
        let near := decide (k = -1 ∨ k = 0)
        approx 4 a ref (if near then ((2 ^ (fxP - 22) : Nat) : Int) else ulp2 ref)

/-- SIN and COS (R55, R221). -/
def sinCos (isCos : Bool) (a : W32) : FRes :=
  match f32.unpack a with
  | .nan sig => (f32.nan, if sig then fINV else 0)
  | .inf _ => (f32.nan, fINV)
  | .fin n m e =>
    if m = 0 then (if isCos then 0x3F800000 else a, 0)
    else
      let x : Int := ((m * 2 ^ (e + 512).toNat : Nat) : Int)
      let r := x % (2 * piFx) / ((2 ^ (512 - fxP) : Nat) : Int)
      let one : Int := ((2 ^ fxP : Nat) : Int)
      let v := if isCos then taylor r (-1) 2 60 1 one one else taylor r (-1) 2 60 2 r r
      let ref := if n && !isCos then -v else v
      let big := decide (32768 * (2 ^ 512 : Nat) < x)
      approx (if isCos then 6 else 5) a ref ((2 ^ (fxP - (if big then 12 else 21)) : Nat) : Int)

/-- FSPECIAL (R221): 0 RCP, 1 RSQ, 2 SQRT, 3 EXP2, 4 LOG2, 5 SIN, 6 COS. -/
def specialFn (op : Nat) (a : W32) : FRes :=
  match op with
  | 0 => rcp a
  | 1 => rsq a
  | 2 => sqrt a
  | 3 => exp2 a
  | 4 => log2 a
  | 5 => sinCos false a
  | _ => sinCos true a

/-! ### Block floating point (R59 to R62) -/

/-- The value of a BFP element: `m * 2^(E - 127 - (w - 2))`; none for E = 0xFF. -/
def bfpVal (w : Nat) (m : Int) (e : Nat) : FVal :=
  if e = 255 then .nan false else .fin (decide (m < 0)) m.natAbs ((e : Int) - 127 - ((w : Int) - 2))

/-- `x * 2^k` rounded RNE to an integer, and whether it was exact. -/
def rneInt (x : FVal) (k : Int) : Int × Bool :=
  match x with
  | .fin n m e =>
    let (q, lost) := toIntMag 0 n m (e + k)
    (if n then -(q : Int) else (q : Int), lost)
  | _ => (0, false)

/-- The shared scale of a block of f32 values (R61). -/
def bfpScale (xs : List FVal) : Nat :=
  if xs.any FVal.isNaN then 255
  else if xs.all FVal.isZero then 0
  else if xs.any FVal.isInf then 254
  else
    let tops := xs.map (fun x => match x with
      | .fin _ m e => if m = 0 then (-1000 : Int) else e + (Nat.log2 m : Int)
      | _ => -1000)
    let top := tops.foldl max (-1000)
    (min (max (top + 127) 0) 254).toNat

/-- The mantissa of one element under scale `e`, and its flags (R61). -/
def bfpMant (w e : Nat) (x : FVal) : Int × BitVec 4 :=
  let hi : Int := intMax true w
  let lo : Int := intMin true w
  if e = 255 then (0, if x.isNaN then fINV else 0)
  else match x with
    | .inf n => (if n then lo else hi, fOVF ||| fINX)
    | .nan _ => (0, fINV)
    | .fin _ m _ =>
      if m = 0 then (0, 0)
      else
        let (q, lost) := rneInt x (127 - (e : Int) + ((w : Int) - 2))
        let (c, sat) := clampInt true w q
        (c, if lost || sat then fINX else 0)

end Sys2Proof.Machine
end

