-- ==== Sys2Proof/Machine/Ops.lean ====
section
/-! DEFINITION. The named operations over the machine: geometry of threads, registers, the register scoreboard, traps and the return
from one, groups, transfer barriers, scratchpad lines, releases and acquires. -/

namespace Sys2Proof.Machine

/-! ### Geometry (R12 to R14) -/

/-- Control cores are numbered from 208 on. -/
def isCtl (c : Nat) : Bool := decide (208 ≤ c)
def laneOf (t : Nat) : Nat := t % 64
def slotOf (t : Nat) : Nat := t / 64 % 4
def ctxOf (t : Nat) : Nat := t / 256
/-- A phrase is numbered context × 4 + slot (R14, R345). -/
def phraseOf (t : Nat) : Nat := t / 64
/-- Ranks ascend by slot, context, lane (R24). -/
def rankKey (t : Nat) : Nat := slotOf t * 512 + ctxOf t * 64 + laneOf t
/-- The die of a physical core (R417); the control cores lie on the I/O die, whose faults go to die 0 (R393). -/
def dieOf (c : Nat) : Nat := if isCtl c then 0 else c / 52

def State.core (s : State) (c : Nat) : Core := Map.get {} s.cores c
def State.updCore (s : State) (c : Nat) (f : Core → Core) : State := { s with cores := Map.put s.cores c (f (s.core c)) }
def State.die (s : State) (d : Nat) : Die := Map.get {} s.dies d
def State.updDie (s : State) (d : Nat) (f : Die → Die) : State := { s with dies := Map.put s.dies d (f (s.die d)) }
def State.slot (s : State) (q : Nat) : Slot := Map.get {} s.slots q
def State.updSlot (s : State) (q : Nat) (f : Slot → Slot) : State := { s with slots := Map.put s.slots q (f (s.slot q)) }
def State.fn (s : State) (f : Nat) : Fn := Map.get {} s.fns f
def Core.thread (k : Core) (t : Nat) : Thread := Map.get {} k.threads t
def Core.updThread (k : Core) (t : Nat) (f : Thread → Thread) : Core := { k with threads := Map.put k.threads t (f (k.thread t)) }
def State.updThread (s : State) (c t : Nat) (f : Thread → Thread) : State := s.updCore c (fun k => k.updThread t f)
def Core.phrase (k : Core) (p : Nat) : Phrase := Map.get {} k.phrases p
def Core.group (k : Core) (g : Nat) : Group := Map.get {} k.groups g
def Core.region (k : Core) (r : Nat) : Region := Map.get {} k.regions r
def Core.line (k : Core) (l : Nat) : Line := Map.get {} k.lines l
def Core.tb (k : Core) (t : Nat) : TBar := Map.get {} k.tbs t
def Core.rcd (k : Core) (r : Nat) : RecRec := Map.get {} k.recs r
def Core.win (k : Core) (e : Nat) : WinEnt := Map.get {} k.window e

/-- The segment width (R14); 1 on a control core (R72). -/
def Core.segW (k : Core) : Nat := match k.inst with | some i => i.w | none => 1

def Thread.live (th : Thread) : Bool := th.st == .live
def Core.live (k : Core) (t : Nat) : Bool := (k.thread t).live

/-- The listed live threads in ascending order. -/
def Core.liveTids (k : Core) : List Nat := (k.threads.filter (fun e => e.2.live)).map (·.1)

/-- A free value of the counter, and the counter moved on (log 4). -/
def State.tickFresh (s : State) : State := { s with fresh := s.fresh + 1 }

/-! ### Registers (R39 to R41, R118) -/

/-- The recruitment record of which thread `t` is the principal (R116). -/
def Core.principalRec (k : Core) (t : Nat) : Option Nat :=
  (List.range 8).find? (fun r => (k.rcd r).live && (k.rcd r).tid == t)

/-- The thread whose register a name of thread `t` resolves to (R118). -/
def Core.owner (k : Core) (t r : Nat) : Nat :=
  match (k.thread t).sub with
  | some sb => if 1 ≤ r ∧ r ≤ 31 then (k.rcd sb.rid).tid else t
  | none => t

/-- Thread `t` may name register `r` as a source (R37, R118). -/
def Core.canRead (k : Core) (t r : Nat) : Bool :=
  match (k.thread t).sub with
  | some _ => decide (r < 48)
  | none => decide (r < 32 + 32 * (k.phrase (phraseOf t)).xlev.toNat)

/-- Thread `t` may name register `r` as a destination (R37, R118). -/
def Core.canWrite (k : Core) (t r : Nat) : Bool :=
  match (k.thread t).sub with
  | some _ => r == 0 || decide (32 ≤ r ∧ r < 48)
  | none => decide (r < 32 + 32 * (k.phrase (phraseOf t)).xlev.toNat)

def Thread.reg (th : Thread) (r : Nat) : W32 := if r = 0 then 0 else Map.get 0 th.v r
def Thread.tag (th : Thread) (r : Nat) : Tag := if r = 0 then 2 else Map.get 2 th.tags r

/-- The value and tag that a read of register `r` of thread `t` gives: 0 with tag b32 for v0 and for a thread that is not live (R39,
R67), and for a routed read of a register that the source thread does not have (R71, R118, log 107). -/
def Core.readReg (k : Core) (t r : Nat) : W32 × Tag :=
  if r = 0 ∨ k.live t = false ∨ k.canRead t r = false then (0, 2)
  else ((k.thread (k.owner t r)).reg r, (k.thread (k.owner t r)).tag r)

/-- Writes register `r` with its tag; v0 discards (R39). -/
def Thread.setReg (th : Thread) (r : Nat) (v : W32) (t : Tag) : Thread :=
  if r = 0 then th else { th with v := Map.set 0 th.v r v, tags := Map.set 2 th.tags r t }

/-- Writes an x-pair, low word first, one tag in both halves (R40, R48); x0 discards. -/
def Thread.setPair (th : Thread) (r : Nat) (v : W64) (t : Tag) : Thread :=
  if r = 0 then th else (th.setReg r (v.setWidth 32) t).setReg (r + 1) ((v >>> 32).setWidth 32) t

/-- Reads predicate `i`; p0 is true (R41). -/
def Thread.pred (th : Thread) (i : Nat) : Bool := i == 0 || th.p.getLsbD i
/-- Writes predicate `i`; p0 discards (R41). -/
def Thread.setPred (th : Thread) (i : Nat) (b : Bool) : Thread :=
  if i = 0 then th
  else { th with p := if b then th.p ||| (1#8 <<< i) else th.p &&& ~~~(1#8 <<< i) }

def Thread.raise (th : Thread) (f : BitVec 4) : Thread := { th with fpf := th.fpf ||| f }
/-- SATC of R57. -/
def Thread.setSatc (th : Thread) (b : Bool) : Thread := if b then { th with status := th.status ||| 2#2 } else th
/-- UNIF of R57. -/
def Thread.setUnif (th : Thread) : Thread := { th with status := th.status ||| 1#2 }

/-- A result of register `r` of thread `t` is still due (R16). -/
def Core.pending (k : Core) (t r : Nat) : Bool :=
  r != 0 && (k.thread (k.owner t r)).pend.any (fun p => p.reg == r && p.err.isNone)

/-- The address of the COPYERR that a reader of register `r` takes (R88). -/
def Core.pendErr (k : Core) (t r : Nat) : Option W64 :=
  if r = 0 then none
  else ((k.thread (k.owner t r)).pend.find? (fun p => p.reg == r && p.err.isSome)).bind (·.err)

def Thread.dropPend (th : Thread) (r : Nat) : Thread := { th with pend := th.pend.filter (fun p => p.reg != r) }

/-! ### Registers a thread sees of its group (R23, R24, R120) -/

def Core.grpOf (k : Core) (t : Nat) : Option Nat := if ((k.thread t).sub).isSome then none else (k.thread t).grp
def Core.gsize (k : Core) (t : Nat) : Nat := match k.grpOf t with | some g => (k.group g).members.length | none => 0
def rankIn (members : List Nat) (t : Nat) : Nat := (members.filter (fun m => decide (rankKey m < rankKey t))).length
def Core.grank (k : Core) (t : Nat) : Option Nat := (k.grpOf t).map (fun g => rankIn (k.group g).members t)

/-! ### Transfer barriers (R86) -/

def TBar.init (b : TBar) (n : BitVec 16) : TBar :=
  { excess := false, fail := false, complete := n == 0, gen := if n == 0 then !b.gen else b.gen, done := 0, expected := n }

def TBar.signal (b : TBar) (failed : Bool) : TBar :=
  if b.complete then { b with excess := true }
  else
    let b := { b with done := b.done + 1, fail := b.fail || failed }
    if b.done = b.expected then { b with complete := true, gen := !b.gen } else b


def TBar.bits (b : TBar) : W64 :=
  (b.expected.setWidth 64) ||| (b.done.setWidth 64 <<< 16) ||| (if b.gen then 1#64 <<< 32 else 0) |||
    (if b.complete then 1#64 <<< 33 else 0) ||| (if b.fail then 1#64 <<< 34 else 0) ||| (if b.excess then 1#64 <<< 35 else 0)

def TBar.ofBits (w : W64) : TBar :=
  { excess := w.getLsbD 35, fail := w.getLsbD 34, complete := w.getLsbD 33, gen := w.getLsbD 32, done := fld w 16 16,
    expected := fld w 0 16 }

/-! ### Commands that leave the copy unit -/

/-- A line that a release at `.core` or wider finds dirty (R82). -/
def Line.release (l : Line) : Line := if l.st = 2 then { l with st := 3 } else l

/-- A release at `.core` or wider turns every state 2 into 3 (R82). -/
def Core.relMark (k : Core) : Core := { k with lines := k.lines.mapVal (fun _ l => l.release) }

/-- Signals a transfer barrier, which is a release at `.core` (R86); `aside` for a command of the save routine, which changes no line state
(R113). -/
def Core.signal (k : Core) (tb : Option Nat) (failed : Bool) (aside : Bool := false) : Core :=
  match tb with
  | some t =>
    let k := { k with tbs := Map.put k.tbs t ((k.tb t).signal failed) }
    if aside then k else k.relMark
  | none => k

/-- A command has retired (R87, R99). -/
def Core.relDropCmd (k : Core) (id : Nat) : Core :=
  { k with
    threads := k.threads.mapVal (fun _ th =>
      { th with relSet := th.relSet.map (fun r => { r with cmds := r.cmds.filter (· != id) }), ntCmds := th.ntCmds.filter (· != id) })
    cmds := k.cmds.map (fun c => { c with rel := c.rel.map (fun r => { r with cmds := r.cmds.filter (· != id) }) }) }

/-- The waiting DISPENSEs without thread `t`; a claim that none of them awaits any longer is not made (R270, R343). -/
def Disp.drop (t : Nat) (d : Disp) : Disp :=
  let q := (d.queue.map (fun r => { r with targets := r.targets.filter (· != t) })).filter (fun r => r.targets != [])
  { d with queue := q, claiming := d.claiming && q != [] }

/-- A SEMWAIT whose thread traps or ends leaves the copy unit, a waiting DISPENSE its queue: both restart with their thread (R270, R285,
R343). -/
def Core.dropSem (k : Core) (t : Nat) : Core :=
  match (k.thread t).block with
  | some (.sem id) =>
    let k := k.updThread t (fun th => { th with pend := th.pend.filter (fun p => p.src != .cmd id) })
    let k := { k with cmds := k.cmds.map (fun (m : Cmd) => if m.id = id then { m with targets := m.targets.filter (· != t) } else m) }
    if k.cmds.any (fun (m : Cmd) => m.id == id && m.targets == []) then Core.relDropCmd { k with cmds := k.cmds.filter (fun (m : Cmd) => m.id != id) } id
    else k
  | some (.disp _) => { k with inst := k.inst.map (fun i => { i with disp := i.disp.mapVal (fun _ d => d.drop t) }) }
  | _ => k

/-! ### Recruitment: ending iterations and subordinates (R121 to R126) -/

/-- One fold step (R122): the accumulator and the flags. -/
def foldStep (op : Nat) (acc v : W32) : FRes :=
  match op with
  | 1 => f32.add 0 acc v
  | 2 => (acc + v, 0)
  | 3 => f32.minmax false acc v
  | 4 => f32.minmax true acc v
  | 5 => (if acc.toInt ≤ v.toInt then acc else v, 0)
  | 6 => (if v.toInt ≤ acc.toInt then acc else v, 0)
  | _ => (acc, 0)

/-- The window entry of record `r` for the index `oldest + off`. -/
def Core.winAt (k : Core) (r off : Nat) : Option Nat :=
  (List.range 64).find? (fun e => (k.win e).st != 0 && (k.win e).rid == r && (k.win e).off == off)

/-- Entries of a record move down when OLDEST advances. -/
def Core.shiftWin (k : Core) (r : Nat) : Core :=
  { k with window := k.window.mapVal (fun _ e => if e.rid == r && e.st != 0 then { e with off := e.off - 1 } else e) }

/-- Folds the entry at OLDEST while it is done (R122); at most 64 entries can be. -/
def Core.foldDone (k : Core) (r : Nat) : Nat → Core
  | 0 => k
  | n + 1 =>
    match k.winAt r 0 with
    | some e =>
      let w := k.win e
      if w.st = 2 then
        let rc := k.rcd r
        let (acc, fl) := if w.val then foldStep rc.op rc.acc w.value else (rc.acc, 0)
        let k := { k with window := Map.erase k.window e }
        let k := { k with recs := Map.put k.recs r { rc with acc := acc, fflags := rc.fflags ||| fl, oldest := rc.oldest + 1 } }
        Core.foldDone (k.shiftWin r) r n
      else k
    | none => k

/-- Ends the current iteration of thread `t`, failed or not, and folds what can be folded (R121, R122, R124). -/
def Core.endIter (k : Core) (t : Nat) (failed : Bool) : Core :=
  match (k.thread t).iter with
  | none => k
  | some e =>
    let w := k.win e
    let w' := { w with st := 2, val := w.val && !failed }
    let rc := k.rcd w.rid
    let k := { k with window := Map.put k.window e w',
                      recs := Map.put k.recs w.rid (if failed then rc else { rc with done := rc.done + 1 }) }
    let k := k.updThread t (fun th => { th with iter := none })
    k.foldDone w.rid 64

/-- What a thread that has ended leaves in its context: its registers, tags, predicates and flags, until another thread takes the context
(R27, R38, R117, R324, R333, log 19). -/
def Thread.ended (th : Thread) (st : Life) (ex : Option (Nat × Nat)) : Thread :=
  { st := st, exitGrp := ex, v := th.v, tags := th.tags, p := th.p, fpf := th.fpf, status := th.status, lk := th.lk }

/-- A subordinate ends: its flags go to the record, its context is as before (R122, R126). -/
def Core.endSub (k : Core) (t : Nat) (sb : Sub) : Core :=
  let k := k.dropSem t
  let rc := k.rcd sb.rid
  let th := k.thread t
  let k := { k with recs := Map.put k.recs sb.rid { rc with fflags := rc.fflags ||| th.fpf } }
  { k with threads := Map.put k.threads t (th.ended sb.prev th.exitGrp) }

/-- A trap in a subordinate (R124): the lowest failed index is recorded, its context freed. An instruction before the entry header is
recorded at 0xFFFF (log 106). -/
def Core.subTrap (k : Core) (t : Nat) (sb : Sub) (cause : Nat) (tpc : W64) : Core :=
  let rc := k.rcd sb.rid
  let idx : W32 := match (k.thread t).iter with
    | some e => rc.oldest + BitVec.ofNat 32 (k.win e).off
    | none => 0xFFFFFFFF
  let off := if tpc.toNat < sb.entry.toNat then 0xFFFF else min ((tpc.toNat - sb.entry.toNat) / 8) 0xFFFF
  let rc' := if rc.failed && decide (rc.failk.toNat ≤ idx.toNat) then rc
    else { rc with failed := true, failk := idx, fcause := cause, failoff := off }
  let k := { k with recs := Map.put k.recs sb.rid rc' }
  (k.endIter t true).endSub t sb

/-! ### Interrupt events (R302) -/

def evKICK : BitVec 6 := 1
def evIDLE : BitVec 6 := 2
def evTICK : BitVec 6 := 4
def evFAULT : BitVec 6 := 8
def evIPI : BitVec 6 := 16
def evGANG : BitVec 6 := 32

/-- Raises events on control core `cc`. -/
def State.raiseEvt (s : State) (cc : Nat) (e : BitVec 6) : State := s.updCore (208 + cc) (fun k => { k with evt := k.evt ||| e })

/-- Sends vector `v` of function `f` (R401): a message, or the pending bit while the vector is masked or MSI-X is off. -/
def State.irq (s : State) (f v : Nat) : State :=
  let fn := s.fn f
  if fn.msix && !fn.mask.getLsbD v && s.link then { s with irqs := (f, v) :: s.irqs }
  else if fn.msix then { s with fns := Map.put s.fns f { fn with pend := fn.pend ||| (1#66 <<< v) } }
  else s

/-! ### What the queue engines ask for (R385, R393, R398) -/

/-- The name of an access to the 64 KiB of an address. -/
def pageUser (part : Option Nat) (pasid va acc : Nat) : User := .page part pasid (va / 65536) acc

/-- What the queue engines have asked for under this name. -/
def State.askedFor (s : State) (u : User) : Option Asked := s.asked.find? (fun e => e.user == u)

/-- The question has no answer yet. -/
def Asked.open (e : Asked) : Bool := match e.xs with | .failed _ => false | _ => true

/-! ### A start (R410, R424) -/

/-- What a start and a die reset keep of a core: its retirement and its errors (R417). -/
def Core.keepWarm (k : Core) : Core := { retired := k.retired, outNext := k.outNext, errs := k.errs }
/-- A core that is to be retired is out from the next start on (R417). -/
def Core.atStart (k : Core) : Core := { k with retired := k.retired || k.outNext, outNext := false }

/-- What a die reset keeps of a die: its fault ring registers (log 8). -/
def Die.keepReset (d : Die) : Die :=
  { fqbase := d.fqbase, fqsize := d.fqsize, fqtail := d.fqtail, fqhead := d.fqhead, nextToken := d.nextToken, temp := d.temp,
    vcore := d.vcore, freq := d.freq, throt := d.throt, droops := d.droops, refresh := d.refresh, ecc := d.ecc, serdes := d.serdes,
    wasReset := d.wasReset }

/-- The QCBs whose LAUNCH was in flight (R380). -/
def State.inFlight (s : State) : List Nat :=
  (s.slots.filter (fun e => e.2.launch.isSome || e.2.resume == .reset)).map (fun e => e.2.qcb.toNat)

/-- Where the queue of a slot stands. -/
def Slot.cursor (x : Slot) (old : Kept) : Kept :=
  { old with ring := x.ring, commit := x.commit, stack := x.stack, skip := x.skip, launch := old.launch.map (fun l => { l with ran := l.ran + x.ran }) }
/-- A bound queue holds a pre-empted LAUNCH that its packets have still to reach (R377). -/
def Slot.resuming (x : Slot) : Bool :=
  x.resume == .saved && x.err == 0 && (x.pkt.isSome || x.laPkt.isSome || x.la != [] || x.stack != [] || decide (x.read < x.write))
/-- A queue stands at a packet boundary: no record is held, no FRAME is on its way, and a LAUNCH in flight that has to drain runs again
(R307, R368). A WAIT is given up and begins again (R380). -/
def Slot.atBoundary (x : Slot) (pre : Bool) : Bool := x.record.isNone && x.phase != .frame && (pre || !x.resuming)
/-- The cursors of some slots are kept, by QCB (R371, R374, R380). -/
def keepCursors (slots : Map Slot) (kept : Map Kept) : Map Kept :=
  slots.foldl (fun m e => if e.2.bound then Map.put m e.2.qcb.toNat (e.2.cursor (Map.get {} m e.2.qcb.toNat)) else m) kept

/-- Any change of READY raises vector 65 (R411). -/
def State.setReady (s : State) (b : Bool) : State :=
  if s.boot.ready = b then s else ({ s with boot := { s.boot with ready := b } }).irq 0 65

/-- A warm start begins (R410): control cores, queue engines and compute dies are reset; memory, KWR, pending bits and the PTP clock
are kept. -/
def State.warmStart (s : State) : State :=
  let s := s.setReady false
  { s with
    cores := s.cores.mapVal (fun _ k => k.keepWarm.atStart)
    dies := s.dies.mapVal (fun _ d => d.keepReset)
    interrupted := s.interrupted ++ s.inFlight
    slots := [], lastServed := [], inv := none, mig := { s.mig with busy := false, armed := none, migSet := false, drain := none }, ats := [],
    pri := [], asked := [], rdma := [], held := [], kept := keepCursors s.slots s.kept, ports := [], rstBusy := false, gangs := [], streams := []
    boot := { s.boot with start := 2, phase := 1, error := 0, since := s.ptime, stuck := false } }

/-- What outlives a cold start of a core: its retirement, which ends with the module (R417). -/
def Core.keepCold (k : Core) : Core := { retired := k.retired || k.outNext }

/-- Everything but the flash, the fuses, the retired cores, the count of failed starts and what the model itself holds of the outside is
lost (R410, R424). An update agent of the side-band port goes on (R415). -/
def State.wiped (s : State) : State :=
  { State.reset with
    cores := Map.mapVal (fun _ k => Core.keepCold k) (s.cores.filter (fun e => e.2.keepCold.retired))
    flash := { s.flash with measure := [], image := [], updating := s.flash.updating.filter (fun pcie => !pcie) }
    boot := { fails := s.boot.fails }
    irqs := s.irqs, sent := s.sent, pkts := s.pkts, svcs := s.svcs, replies := s.replies, mainPower := s.mainPower, present := s.present
    agenda := s.agenda, fresh := s.fresh, remote := s.remote, host := s.host }

/-- A cold start begins (R410), from the primary or the recovery image. The link trains again in its first step. -/
def State.coldStart (s : State) (recovery : Bool) : State :=
  let s := (s.setReady false).wiped
  { s with boot := { s.boot with recovery := recovery, start := 1, phase := 1 } }

/-! ### Traps (R124, R334 to R339) -/

/-- The causes of R339. -/
inductive Cause where
  | illegal | badhdr | priv | landtag | retnull | uniform | fmt | regx | barcount | sprange | misalign | copyerr | streamdesync
  | matparam | helper | detviol | watchdog | bartimeout | brk | soft | preempt | cvstream | accovf | route | setrevoked
  deriving DecidableEq, Repr

/-- The code written to %tcause (R339). -/
def Cause.code : Cause → Nat
  | .illegal => 0x01 | .badhdr => 0x02 | .priv => 0x03 | .landtag => 0x04 | .retnull => 0x05 | .uniform => 0x06 | .fmt => 0x07
  | .regx => 0x08 | .barcount => 0x09 | .sprange => 0x0A | .misalign => 0x0B | .copyerr => 0x0C | .streamdesync => 0x0D
  | .matparam => 0x0E | .helper => 0x0F | .detviol => 0x10 | .watchdog => 0x11 | .bartimeout => 0x12 | .brk => 0x13 | .soft => 0x14
  | .preempt => 0x15 | .cvstream => 0x16 | .accovf => 0x17 | .route => 0x18 | .setrevoked => 0x19

def Level.num : Level → W32
  | .kl => 0
  | .sl => 1
  | .cl => 2

/-- The vector is the firmware entry (R336). -/
def Core.toFirmware (k : Core) (th : Thread) (cause : Cause) : Bool :=
  cause == .preempt || cause == .watchdog || th.level == .sl || k.tvec == 0xFFFFFFF8

/-- The trap vector (R336). -/
def Core.vector (k : Core) (th : Thread) (cause : Cause) : W64 :=
  if k.toFirmware th cause then k.fwEntry
  else (match k.inst with | some i => i.codebase | none => 0) + k.tvec.setWidth 64

/-- The acquiring GATOM that a wait is for (R94). -/
def Wait.gatom : Wait → Option Nat
  | .order id => some id
  | _ => none

/-- Trap entry of a thread that vectors (R335): the saved registers, the level, the PC. Waits end, but the order of an acquiring GATOM, which
is set aside while the handler runs (R94, R113); no register, predicate, tag, hold entry, membership or barrier count changes. -/
def Thread.enterTrap (th : Thread) (cause : Cause) (tpc tval vec : W64) : Thread :=
  { th with
    tcause := BitVec.ofNat 32 cause.code, tpc := tpc, tval := tval, tlev := th.level.num, level := .sl, pc := vec, blk := none,
    vec := true, block := none, order := (th.block.bind Wait.gatom).or th.order, relSet := none, promo := [], acq := false, winOk := false, kept := none,
    batch := none, pend := th.pend.filter (fun p => p.src != .stall) }

/-- A core's first trap: among threads that trap in the same cycle the lowest %tid counts as first (R338). -/
def TrapRep.first (old : Option TrapRep) (r : TrapRep) : Bool :=
  match old with
  | none => true
  | some x => x.clock == r.clock && decide (r.tid < x.tid)

/-- The launch takes the report of logical core `k`, which replaces `old` of the same core: the reports of one cycle count by logical
core (R338, log 112). -/
def Launch.take (l : Launch) (k : Nat) (old : Option TrapRep) (r : TrapRep) : Launch :=
  let first := match l.trap with
    | none => true
    | some (k', x) => (k' == k && some x == old) || (x.time == r.time && decide (k < k'))
  { l with trap := if first then some (k, r) else l.trap, closed := true }

/-- The first trap of a core that the firmware entry ends is reported to the queue engine, and no further logical core starts (R338). -/
def State.reportTrap (s : State) (c t : Nat) (cause : Cause) (tpc tval : W64) : State :=
  match (s.core c).inst with
  | none => s
  | some i =>
    let r : TrapRep := { cause := cause.code, tid := t, tpc := tpc, tval := tval, clock := (s.core c).clock, time := s.ptime }
    if TrapRep.first i.trap r then
      (s.updCore c (fun k => { k with inst := some { i with trap := some r } })).updSlot i.slot (fun q =>
        { q with launch := q.launch.map (fun l => l.take i.lcore.toNat i.trap r) })
    else s

/-- A trap on a control core stops it: IPI on control core 0, and on control core 0 itself a warm start (R334). -/
def State.haltCtl (s : State) (c : Nat) : State :=
  if c = 208 then s.warmStart else (s.updCore c (fun k => { k with halted := true })).raiseEvt 0 evIPI

/-- A trap of thread `t` of core `c`: trap entry, the end of a subordinate, or the stop of a control core (R124, R334, R335). -/
def State.trap (s : State) (c t : Nat) (cause : Cause) (tpc tval : W64) : State :=
  let s := s.updCore c (fun k => k.dropSem t)
  if isCtl c then s.haltCtl c
  else match ((s.core c).thread t).sub with
    | some sb => s.updCore c (fun k => k.subTrap t sb cause.code tpc)
    | none =>
      let k := s.core c
      let th := k.thread t
      let s' := s.updThread c t (fun th => th.enterTrap cause tpc tval (k.vector th cause))
      if k.toFirmware th cause && cause != .preempt then s'.reportTrap c t cause tpc tval else s'

/-- A second trap because the vector's header is bad (R335): to the firmware entry with BADHDR; %tpc and %tlev stay
(log 10). -/
def State.badVector (s : State) (c t : Nat) (vec : W64) : State :=
  let k := s.core c
  let th := k.thread t
  let s' := s.updThread c t (fun th =>
    { th with tcause := BitVec.ofNat 32 Cause.badhdr.code, tval := vec, pc := k.fwEntry, blk := none, vec := true, block := none })
  s'.reportTrap c t .badhdr th.tpc vec

/-! ### Flow of a thread -/

/-- The thread completes its instruction: its PC moves on, and after the last word of a block stands at the next header. A wait record
is dropped by any instruction but its own (R182, R265). -/
def Thread.next (th : Thread) (last : Bool) : Thread :=
  { th with
    pc := th.pc + 8, blk := if last then none else th.blk, block := none, vec := false, heldFor := 0,
    wrec := if th.level == .sl then th.wrec else none, relSet := none, promo := [], acq := false, winOk := false, kept := none,
    batch := none }

/-- The thread continues at a header. -/
def Thread.goto (th : Thread) (pc : W64) : Thread :=
  { th with
    pc := pc, blk := none, block := none, vec := false, heldFor := 0, wrec := if th.level == .sl then th.wrec else none,
    relSet := none, promo := [], acq := false, winOk := false, kept := none, batch := none }

/-- The thread waits and issues its instruction again later. -/
def Thread.wait (th : Thread) (w : Wait) : Thread := { th with block := some w }

/-- The destinations of an instruction that has issued and still waits are due (R16, R67, R68). -/
def Thread.due (th : Thread) (dsts : List Nat) : Thread :=
  { th with pend := th.pend.filter (fun p => !dsts.contains p.reg) ++ (dsts.filter (· != 0)).map (fun r => { reg := r, src := .stall }) }

/-- Pushes a reconvergence address; a full stack drops the oldest (R20). -/
def Thread.push (th : Thread) (a : W64) : Thread := { th with hold0 := a, hold1 := th.hold0, hold2 := th.hold1, hold3 := th.hold2, heldFor := 0 }
/-- Pops the top entry. -/
def Thread.pop (th : Thread) : Thread := { th with hold0 := th.hold1, hold1 := th.hold2, hold2 := th.hold3, hold3 := 0, heldFor := 0 }
def Thread.clearHold (th : Thread) : Thread := { th with hold0 := 0, hold1 := 0, hold2 := 0, hold3 := 0, heldFor := 0 }
/-- The thread is held: at a block boundary whose address is its top entry (R21, R182). -/
def Thread.held (th : Thread) : Bool := th.hold0 != 0 && th.pc == th.hold0 && th.blk.isNone

/-! ### Headers (R180 to R182) -/

def hdrLen (h : W64) : Nat := (fld h 52 8).toNat
def hdrTag (h : W64) : Nat := (fld h 44 8).toNat
def hdrKind (h : W64) : Nat := (fld h 8 5).toNat
/-- RECONV, a signed word offset. -/
def hdrReconv (h : W64) : Int := (fld h 28 16).toInt
def hdrCheck (h : W64) : BitVec 8 :=
  fld h 56 8 ^^^ fld h 48 8 ^^^ fld h 40 8 ^^^ fld h 32 8 ^^^ fld h 24 8 ^^^ fld h 16 8 ^^^ fld h 8 8

/-- The judgement of a header: nothing wrong, BADHDR, or ILLEGAL (R182). -/
inductive HdrVerdict where
  | ok | bad | reserved
  deriving DecidableEq, Repr

/-- Validity (R182): the form and the check are judged before the fields (R180, R181); a reserved field makes it ILLEGAL and not BADHDR (log 130). -/
def headerOk (h : W64) : HdrVerdict :=
  if (fld h 60 4).toNat ≠ 15 ∨ fld h 0 8 ≠ hdrCheck h then .bad
  else
    let tag := hdrTag h
    let kind := hdrKind h
    let pairing := (tag == 0xFC) == (kind == 4) && (tag == 0xFE) == (kind == 3) && (tag != 0xFD || decide (kind ≤ 2))
    if hdrLen h = 0 ∨ 5 ≤ kind ∨ (0xF0 ≤ tag ∧ tag ≤ 0xFB) ∨ tag = 0xFF ∨ pairing = false then .reserved else .ok

/-- The PASID that the instruction fetches and the map unit of a core translate under (R384, R385). -/
def Core.fetchPasid (k : Core) : Nat := match k.inst with | some i => i.pasid | none => 0

/-- The key of an instruction-cache line: 256 bytes under a PASID. -/
def lineKey (pasid : Nat) (pc : W64) : Nat := pasid * 2 ^ 56 + pc.toNat / 256

/-- The word at a PC, from the instruction cache. -/
def Core.fetch (k : Core) (pc : W64) : Option W64 :=
  match Map.find k.icache (lineKey k.fetchPasid pc) with
  | some ws => some (ws.getD (pc.toNat / 8 % 32) 0)
  | none => none

/-! ### Groups and barriers (R23 to R25, R260, R261, R266) -/

def bcntGen (w : W32) : Bool := w.getLsbD 31
def bcntExp (w : W32) : Nat := (w.extractLsb' 16 15).toNat
def bcntArr (w : W32) : Nat := (w.extractLsb' 0 16).toNat
def mkBcnt (gen : Bool) (exp arr : Nat) : W32 :=
  (if gen then 0x80000000#32 else 0) ||| (BitVec.ofNat 15 exp).setWidth 32 <<< 16 ||| (BitVec.ofNat 16 arr).setWidth 32

def Core.setGroup (k : Core) (g : Nat) (x : Group) : Core := { k with groups := Map.put k.groups g x }

/-- The members of group `g` that have arrived at barrier 0. -/
def Core.arrived0 (k : Core) (g : Nat) : Nat := ((k.group g).members.filter (fun m => (k.thread m).arr0)).length

/-- %bcnt of barrier `b` of group `g` (R45, R261): barrier 0 counts members. -/
def Core.bcnt (k : Core) (g b : Nat) : W32 :=
  if b = 0 then mkBcnt (k.group g).b0gen (k.group g).members.length (k.arrived0 g) else Map.get 0 (k.group g).bcnt b

/-- The generation of a barrier. -/
def Core.barGen (k : Core) (g b : Nat) : Bool := bcntGen (k.bcnt g b)

/-- Barrier 0 completes when every current member has arrived (R261). -/
def Core.check0 (k : Core) (g : Nat) : Core :=
  let gr := k.group g
  if gr.members != [] && gr.members.all (fun m => (k.thread m).arr0) then
    let k := gr.members.foldl (fun k m => k.updThread m (fun th => { th with arr0 := false })) k
    k.setGroup g { gr with b0gen := !gr.b0gen }
  else k

/-- A group without members ceases to exist: its barrier state and its LEND flag are discarded (R23, R115). -/
def Core.removeMember (k : Core) (g t : Nat) : Core :=
  let gr := k.group g
  let ms := gr.members.filter (· != t)
  if ms = [] then { k with groups := Map.erase k.groups g } else k.setGroup g { gr with members := ms }

def insertRank (t : Nat) : List Nat → List Nat
  | [] => [t]
  | m :: ms => if rankKey t < rankKey m then t :: m :: ms else if t = m then m :: ms else m :: insertRank t ms

/-- Puts thread `t` into group `g`, creating it when it has no members (R23). -/
def Core.addMember (k : Core) (g t : Nat) : Core :=
  let gr := k.group g
  let k := if gr.members = [] then { k with nextInc := k.nextInc + 1 } else k
  let gr := if gr.members = [] then { inc := k.nextInc } else gr
  (k.setGroup g { gr with members := insertRank t gr.members }).updThread t (fun th => { th with grp := some g })

/-! ### Scratchpad lines and regions (R78 to R82) -/

def Region.isLive (r : Region) : Bool := r.ctl.getLsbD 31
def Region.wb (r : Region) : Nat := (r.ctl.extractLsb' 2 2).toNat
def Region.fill (r : Region) : Nat := (r.ctl.extractLsb' 0 2).toNat
def Region.setLive (r : Region) (b : Bool) : Region :=
  { r with ctl := if b then r.ctl ||| 0x80000000#32 else r.ctl &&& 0x7FFFFFFF#32 }
def Region.holds (r : Region) (off : Nat) : Bool :=
  r.isLive && decide (r.spbase.toNat ≤ off ∧ off < r.spbase.toNat + r.size.toNat)
/-- STATUS: the code of the last event (R78). -/
def Region.setCode (r : Region) (code : Nat) : Region :=
  { r with status := (r.status &&& 0xFFFFFF00#32) ||| BitVec.ofNat 32 (code % 256) }
/-- A failed line: the code, the count of failed lines (saturating) and FAILVA (R78, R88). -/
def Region.failLine (r : Region) (code : Nat) (va : Nat) : Region :=
  let n := min 255 ((r.status.extractLsb' 8 8).toNat + 1)
  { r with status := BitVec.ofNat 32 (n * 256 + code), failva := BitVec.ofNat 64 va }

/-- The live region that holds a local offset. -/
def Core.regionAt (k : Core) (off : Nat) : Option Nat := (List.range 16).find? (fun i => (k.region i).holds off)
/-- The global address of a line of a region. -/
def Core.lineVa (k : Core) (r line : Nat) : Nat := (k.region r).va.toNat + (line * 256 - (k.region r).spbase.toNat)

def Core.setLine (k : Core) (l : Nat) (x : Line) : Core := { k with lines := Map.put k.lines l x }

/-- The PASID that the commands of a core translate under (R384, R385). -/
def Core.cmdPasid (k : Core) : Nat :=
  if k.saving then 0 else match k.inst with | some i => if i.restored then 0 else i.pasid | none => 0

/-- Starts a map-unit operation: its address is the tenant's, even while the firmware saves or restores (R384). -/
def Core.addMop (k : Core) (kind : MKind) (va : Nat) : Core :=
  { k with mops := k.mops ++ [{ id := k.nextId, kind := kind, pasid := k.fetchPasid, va := va }], nextId := k.nextId + 1 }

/-- Starts the fill of an invalid line (R80). -/
def Core.startFill (k : Core) (r l : Nat) (nt : Bool) : Core :=
  if (k.line l).filling then k
  else (k.addMop (.fill l nt) (k.lineVa r l)).setLine l { k.line l with filling := true }

/-- Asks for the write-back of a dirty line, unless one is on its way (R80, R99). -/
def Core.startWback (k : Core) (r l : Nat) : Core :=
  if (k.line l).wback then k
  else (k.addMop (.wback l) (k.lineVa r l)).setLine l { k.line l with wback := true }

/-- The lines that `n` bytes at `off` touch. -/
def linesOf (off n : Nat) : List Nat := (List.range ((off + n - 1) / 256 + 1 - off / 256)).map (· + off / 256)

/-- The words of a line are new: no store to them is one that a thread may still miss (R80, R96). -/
def Core.forget (k : Core) (l : Nat) : Core := { k with recent := k.recent.filter (fun e => e.1 / 64 != l) }

/-- The state of a line that a load, store or atomic needs: an invalid line of a zero-fill region becomes zeros (R80). -/
def Core.touchLine (k : Core) (l : Nat) : Core :=
  match k.regionAt (l * 256) with
  | none => k
  | some r =>
    if (k.line l).st = 0 ∧ (k.region r).fill = 1 then
      ({ k with scratch := Map.setRange Config.blank k.scratch (l * 256) (List.replicate 256 0) }.forget l).setLine l { k.line l with st := 1 }
    else k

/-- A store's effect on the line it hits: dirty under WB 0 and 2, forwarded under WB 1 (R80, R81, R109). A line that was dirtied before
the latest release stays so (R82, R101). -/
def Core.dirtyLine (k : Core) (l off : Nat) (bytes : List Byte) (nt : Bool) : Core :=
  match k.regionAt (l * 256) with
  | none => k
  | some r =>
    if (k.region r).wb = 1 then k.addMop (.fwd r bytes nt) (k.lineVa r l + off % 256)
    else
      let x := k.line l
      k.setLine l { x with st := if x.st = 3 then 3 else 2, nt := x.nt || nt || (k.region r).wb == 2 }

/-! ### The copy unit's range scoreboard (R83, R84) -/

def Core.ranges (k : Core) : List Rng := k.cmds.flatMap (·.ranges)
def Rng.meets (r : Rng) (off n : Nat) : Bool := decide (off < r.hi ∧ r.lo < off + n)
/-- An entry's bounds are rounded outward to 16 bytes (R83). -/
def mkRng (off n : Nat) (wr : Bool) : List Rng := if n = 0 then [] else [{ lo := off / 16 * 16, hi := (off + n + 15) / 16 * 16, wr := wr }]

/-! ### Releases and acquires (R82, R99, R100) -/

/-- The dirty lines of lazy regions that stand inside release ordering (R99, R109). -/
def Core.lazyDirty (k : Core) : List (Nat × Nat) :=
  k.lines.filterMap (fun e => match k.regionAt (e.1 * 256) with
    | some r => if 2 ≤ e.2.st ∧ (k.region r).wb = 0 ∧ e.2.nt = false then some (r, e.1) else none
    | none => none)

/-- The forwarded writes not yet performed. -/
def Core.fwdIds (k : Core) : List Nat :=
  k.mops.filterMap (fun m => match m.kind with | .fwd _ _ _ => some m.id | _ => none)

/-- Thread `t` runs the pre-emption handler, the save routine or a restore, whose accesses are not the program's: they change no line
state (R113). -/
def Core.aside (k : Core) (t : Nat) : Bool :=
  (k.thread t).level == .sl && (k.saving || (match k.inst with | some i => i.restored | none => false) || (k.thread t).tcause == 0x15)

/-- The effect of a release of thread `t` on the line states (R82, R113). -/
def Core.relMarkBy (k : Core) (t : Nat) : Core := if k.aside t then k else k.relMark

/-- The global atomics of thread `t` that have not been performed: every release of the thread, at any scope, follows them (R94). -/
def Core.ownAtoms (k : Core) (t : Nat) : List Nat := (k.cmds.filter (fun c => c.op == 0xA6 && c.targets.contains t)).map (·.id)

/-- What a release of thread `t` at `.dev` or `.sys` waits for, its write-backs asked for (R99). -/
def Core.startRelease (k : Core) (t : Nat) : Core × RelSet :=
  let ls := if k.aside t then [] else k.lazyDirty
  let own := (k.cmds.filter (fun c => c.targets.contains t && !(k.thread t).ntCmds.contains c.id)).map (·.id)
  (ls.foldl (fun k e => k.startWback e.1 e.2) k, { lines := ls.map (·.2), fwds := k.fwdIds, cmds := own })

def RelSet.empty (r : RelSet) : Bool := r.lines == [] && r.fwds == [] && r.cmds == []

def unionRel (a b : RelSet) : RelSet :=
  { lines := a.lines ++ b.lines.filter (fun x => !a.lines.contains x), fwds := a.fwds ++ b.fwds.filter (fun x => !a.fwds.contains x),
    cmds := a.cmds ++ b.cmds.filter (fun x => !a.cmds.contains x) }

/-- Starts, or looks at, the release of some threads of one access (R94, R99): true when it may be performed. All wait for the same set;
a narrow release waits for the threads' global atomics alone. -/
def State.releaseReady (s : State) (c : Nat) (ts : List Nat) (wide : Bool := true) : State × Bool :=
  let k := s.core c
  if ts.all (fun t => (k.thread t).relSet.isSome) then
    (s, ts.all (fun t => match (k.thread t).relSet with | some r => r.empty | none => true))
  else
    let start (k : Core) (t : Nat) : Core × RelSet := if wide then k.startRelease t else (k, { cmds := k.ownAtoms t })
    let (k, r) := ts.foldl (fun (a : Core × RelSet) t => let x := start a.1 t; (x.1, unionRel a.2 x.2)) (k, {})
    (s.updCore c (fun _ => ts.foldl (fun k t => k.updThread t (fun th => { th with relSet := some r })) k), r.empty)

/-- An acquire at `.dev`, `.sys` or `.rmt` invalidates the valid-clean lines of fill-on-first-touch regions; a filling line is filled
again (R100). The lines that the acquiring access itself has just filled and read are spared. -/
def Core.acqInvalidate (k : Core) (spare : List Nat) : Core :=
  { k with lines := k.lines.mapVal (fun l x => match k.regionAt (l * 256) with
      | some r =>
        if (k.region r).fill = 0 && !spare.contains l then
          { x with st := if x.st = 1 then 0 else x.st, refill := x.refill || x.filling }
        else x
      | none => x) }

/-- The effect of an acquire of thread `t` at `.dev` or wider on the line states (R100, R113). -/
def Core.acqInvalidateBy (k : Core) (t : Nat) (spare : List Nat) : Core := if k.aside t then k else k.acqInvalidate spare

/-- The thread has made an acquire at the core's count `n`: its earlier relaxed reads are no longer a fence's concern (R104), and it misses
no store made so far (R94 to R96). -/
def Thread.acquired (n : Nat) (th : Thread) : Thread := { th with acqLines := [], acqAt := n, seen := [] }

/-- An acquire of thread `t`; one of the save routine is not the program's (R113). -/
def Core.acquiredBy (k : Core) (t : Nat) : Core := if k.aside t then k else k.updThread t (Thread.acquired k.seq)

/-- An access to these bytes stalls (R84, R249): a range entry overlaps them, or a line is invalid in a region that fills on touch. -/
def Core.stalls (k : Core) (off n : Nat) : Bool :=
  k.ranges.any (fun r => r.meets off n) ||
    (linesOf off n).any (fun l => match k.regionAt (l * 256) with
      | some r => (k.region r).fill == 0 && (k.line l).st == 0
      | none => false)

/-- A line is written back or its failure recorded: no release waits for it any longer (R99), and a promotion of it counts as acknowledged
(R101; after a failure this is the model's choice, log 123). -/
def Core.relDropLine (k : Core) (l : Nat) : Core :=
  { k with
    threads := k.threads.mapVal (fun _ th => { th with relSet := th.relSet.map (fun r => { r with lines := r.lines.filter (· != l) }) })
    cmds := k.cmds.map (fun c => { c with rel := c.rel.map (fun r => { r with lines := r.lines.filter (· != l) }) })
    promoLines := k.promoLines.filter (· != l) }

/-- A forwarded write is performed or its failure recorded (R99). -/
def Core.relDropFwd (k : Core) (id : Nat) : Core :=
  { k with
    threads := k.threads.mapVal (fun _ th => { th with relSet := th.relSet.map (fun r => { r with fwds := r.fwds.filter (· != id) }) })
    cmds := k.cmds.map (fun c => { c with rel := c.rel.map (fun r => { r with fwds := r.fwds.filter (· != id) }) }) }

/-! ### The return from a trap (R303) -/

/-- ERET takes effect: level and PC from %tlev and %tpc; a wait record of another PC is discarded (R265), and the order of an acquiring
GATOM holds the thread again (R94, R113). -/
def Thread.doEret (th : Thread) (blk : Option (W64 × W64)) : Thread :=
  { th with
    level := if th.tlev = 0 then .kl else .sl, pc := th.tpc, blk := blk, block := th.order.map Wait.order, order := none, vec := false, waitFor := 0,
    wrec := th.wrec.filter (fun w => w.pc == th.tpc), relSet := none, promo := [], acq := false, winOk := false,
    kept := none, batch := none }

end Sys2Proof.Machine
end

