-- ==== Sys2Proof/Machine/Operands.lean ====
section
/-! DEFINITION. Every operand form: lane routing (R63 to R72), the reads of ReadV (R187), the checks of an issue in the order of R185,
the uniform bit (R178, R179), and the writing of register results. -/

namespace Sys2Proof.Machine

/-- What every meaning answers. -/
abbrev Out := Host.Outcome State Fault Refusal

/-- Where an opcode may run (R184). -/
inductive Avail where
  /-- every level and a control core -/
  | all
  /-- every level of a core, ILLEGAL on a control core -/
  | core
  /-- SL only; ILLEGAL on a control core -/
  | sl
  /-- SL and CL -/
  | slcl
  /-- CL only -/
  | cl
  deriving DecidableEq, Repr

/-- A source field: its register, routing descriptor, number of registers, the type it is checked against (R50), and its index in
%tval (0 A, 1 B, 2 C, 3 D). -/
structure Src where
  reg : Nat
  desc : BitVec 9 := 0
  n : Nat := 1
  ty : Option Nat := none
  idx : Nat := 0
  deriving DecidableEq, Repr

/-- The registers that a source names; x0 reads 0 in both halves (R40). -/
def Src.regs (x : Src) : List Nat := if x.n = 2 ∧ x.reg = 0 then [0, 0] else (List.range x.n).map (x.reg + ·)

/-- A destination field: its first register, how many, its index in %tval. -/
structure Dst where
  reg : Nat
  n : Nat := 1
  idx : Nat := 3
  deriving DecidableEq, Repr

/-- The operands of an instruction, as the checks of R185 need them; `lateDst` for one that writes its destination only once no
subordinate lives (R123). -/
structure OpSpec where
  h : Head
  avail : Avail := .all
  endsBlock : Bool := false
  noSub : Bool := false
  srcs : List Src := []
  edge : Nat := 0
  dsts : List Dst := []
  keepIdle : Bool := false
  lateDst : Bool := false
  deriving DecidableEq, Repr

/-- The registers that the destinations name. -/
def OpSpec.dstRegs (o : OpSpec) : List Nat := o.dsts.flatMap (fun x => (List.range x.n).map (x.reg + ·))

/-- An operand as read: its registers with their tags. -/
abbrev Opnd := List (W32 × Tag)

def Opnd.lo (o : Opnd) : W32 := (o.headD (0, 2)).1
def Opnd.tag (o : Opnd) : Tag := (o.headD (0, 2)).2
def Opnd.hi (o : Opnd) : W32 := (o.getD 1 (0, 2)).1
def Opnd.tagHi (o : Opnd) : Tag := (o.getD 1 (0, 2)).2
/-- An x-pair as 64 bits (R40). -/
def Opnd.x (o : Opnd) : W64 := o.hi ++ o.lo

/-! ### Lane routing (R63 to R72) -/

/-- What a descriptor selects: the thread of a lane of the segment, the zero of the edge rule, or the reader's own register. -/
inductive Pick where
  | lane (l : Nat) | zero | own
  deriving DecidableEq, Repr

/-- The edge rule for a source lane outside the segment (R66). -/
def edgePick (w edge : Nat) (s : Int) : Pick :=
  match edge with
  | 0 => .zero
  | 1 => .lane (if s < 0 then 0 else w - 1)
  | 2 => .lane (s % (w : Int)).toNat
  | _ => .own

def inSeg (w edge : Nat) (s : Int) : Pick := if 0 ≤ s ∧ s < (w : Int) then .lane s.toNat else edgePick w edge s

/-- The source lane of a descriptor for segment lane `l` (R64); `ix` is the value of the index register. -/
def pickLane (w l edge : Nat) (d : BitVec 9) (ix : W32) : Pick :=
  let arg := d.extractLsb' 0 6
  match (d.extractLsb' 6 3).toNat with
  | 0 => .own
  | 1 => .lane (((l : Int) + arg.toInt) % (w : Int)).toNat
  | 2 => inSeg w edge ((l : Int) + arg.toInt)
  | 3 => inSeg w edge (arg.toNat : Int)
  | 4 => .lane (l ^^^ arg.toNat)
  | 5 => inSeg w edge (ix.toNat : Int)
  | 6 => .lane (l ^^^ (2 ^ arg.toNat - 1))
  | _ => .own

/-- A descriptor that the segment width refuses (R65). -/
def routeBad (w : Nat) (d : BitVec 9) : Bool :=
  let arg := (d.extractLsb' 0 6).toNat
  match (d.extractLsb' 6 3).toNat with
  | 4 => decide (w ≤ arg)
  | 6 => decide (w < 2 ^ arg)
  | _ => false

/-- The index register of an IX descriptor (R64). -/
def ixReg (d : BitVec 9) : Option Nat := if (d.extractLsb' 6 3).toNat = 5 then some (d.extractLsb' 0 6).toNat else none

/-- The thread whose register source `x` of thread `t` reads; none for the zero of the edge rule. -/
def Core.srcTid (k : Core) (t : Nat) (edge : Nat) (x : Src) : Option Nat :=
  let w := k.segW
  let lane := laneOf t
  let ix := match ixReg x.desc with | some j => (k.readReg t j).1 | none => 0
  match pickLane w (lane % w) edge x.desc ix with
  | .own => some t
  | .zero => none
  | .lane l => some (t - lane + (lane / w * w + l))

/-- ReadV (R187), without its checks. -/
def Core.readSrc (k : Core) (t edge : Nat) (x : Src) : Opnd :=
  match k.srcTid t edge x with
  | some q => x.regs.map (k.readReg q)
  | none => List.replicate x.n (0, 2)

/-! ### The checks of an issue (R185) -/

/-- A register above the level, in the order of the fields (R37, R64, R339). -/
def OpSpec.regx (o : OpSpec) (k : Core) (t : Nat) : Option (Nat × Nat) :=
  let src := o.srcs.findSome? (fun x =>
    if !x.regs.all (k.canRead t) then some (x.reg, x.idx)
    else match ixReg x.desc with
      | some j => if k.canRead t j = false then some (j, x.idx) else none
      | none => none)
  match src with
  | some e => some e
  | none => o.dsts.findSome? (fun x =>
      if x.n = 0 ∨ (k.canWrite t x.reg && k.canWrite t (x.reg + x.n - 1)) = true then none else some (x.reg, x.idx))

/-- ROUTE (R65). Where the descriptors of several operands fail, the first of A, B, C is named (log 118). -/
def OpSpec.routeTrap (o : OpSpec) (k : Core) : Option W64 :=
  o.srcs.findSome? (fun x =>
    if routeBad k.segW x.desc then some (BitVec.ofNat 64 (x.idx + x.desc.toNat * 256)) else none)

/-- The registers whose results an issue of thread `t` waits for (R16, R67, R168). -/
def OpSpec.keys (o : OpSpec) (k : Core) (t : Nat) : List (Nat × Nat) :=
  let src := o.srcs.flatMap (fun x =>
    let own := match ixReg x.desc with | some j => if k.pending t j then [(t, j)] else [] | none => []
    own ++ match k.srcTid t o.edge x with
      | some q => (x.regs.map (fun r => (q, r))).filter (fun e => k.pending e.1 e.2)
      | none => [])
  src ++ o.dsts.flatMap (fun x => ((List.range x.n).map (fun i => (t, x.reg + i))).filter (fun e => k.pending e.1 e.2))

/-- The failed result that a read meets first (R69, R88): the thread and the register that it reads, and the address of the COPYERR. -/
def OpSpec.failedRead (o : OpSpec) (k : Core) (t : Nat) : Option (Nat × Nat × W64) :=
  let one (q r : Nat) : Option (Nat × Nat × W64) := (k.pendErr q r).map (fun a => (k.owner q r, r, a))
  o.srcs.findSome? (fun x => ((ixReg x.desc).bind (one t)).or (match k.srcTid t o.edge x with
    | some q => x.regs.findSome? (one q)
    | none => none))

/-- The COPYERR that a read of a failed result takes (R88). -/
def OpSpec.copyErr (o : OpSpec) (k : Core) (t : Nat) : Option W64 := (o.failedRead k t).map (·.2.2)

/-- The results of the source that register `r` awaits, an x-pair's both, are no longer due. -/
def Thread.dropFailed (th : Thread) (r : Nat) : Thread :=
  { th with pend := th.pend.filter (fun p => !(p.err.isSome && th.pend.any (fun q => q.reg == r && q.src == p.src))) }

/-- The first reader has taken the failure: later readers find what the registers hold (R88). -/
def OpSpec.errTaken (o : OpSpec) (k : Core) (t : Nat) (k' : Core) : Core :=
  match o.failedRead k t with
  | some (q, r, _) => k'.updThread q (fun th => th.dropFailed r)
  | none => k'

/-- A principal whose subordinates live may not write v1 to v31 (R119). -/
def Core.hasSubs (k : Core) (t : Nat) : Bool :=
  k.threads.any (fun e => match e.2.sub with
    | some sb => e.2.live && (k.rcd sb.rid).live && (k.rcd sb.rid).tid == t
    | none => false)
def OpSpec.stallsPrincipal (o : OpSpec) (k : Core) (t : Nat) : Bool :=
  !o.lateDst && (k.thread t).sub.isNone && o.dsts.any (fun x => x.n != 0 && decide (1 ≤ x.reg ∧ x.reg ≤ 31)) && k.hasSubs t

/-- FMT (R50): the first source whose tag is neither its type nor b32. -/
def fmtTrap (tagchk : Bool) (srcs : List Src) (ops : List Opnd) : Option W64 :=
  if tagchk then
    (srcs.zip ops).findSome? (fun e => match e.1.ty with
      | some ty => e.2.findSome? (fun r =>
          if r.2.toNat = ty ∨ r.2 = 2 then none else some (BitVec.ofNat 64 (e.1.idx + r.2.toNat * 16)))
      | none => none)
  else none

/-- One execution: the lane whose operands it uses, the operands, the threads that take its result (R178). -/
structure Exec where
  lead : Nat
  ops : List Opnd
  targets : List Nat
  deriving DecidableEq, Repr

def Exec.op (e : Exec) (i : Nat) : Opnd := e.ops.getD i []

/-- The fate of each thread of an issue. -/
structure Gathered where
  block : List (Nat × Wait) := []
  traps : List (Nat × Cause × W64) := []
  idle : List Nat := []
  unif : List Nat := []
  execs : List Exec := []
  deriving DecidableEq, Repr

/-- p[G] xor N (R177). -/
def Core.active (k : Core) (h : Head) (t : Nat) : Bool := (k.thread t).pred h.g.toNat != h.n

/-- PRIV (R184). -/
def Avail.privileged (a : Avail) (l : Level) : Bool :=
  match a, l with
  | .all, _ => false
  | .core, _ => false
  | .sl, .kl => true
  | .slcl, .kl => true
  | .cl, .kl => true
  | .cl, .sl => true
  | _, _ => false

def Core.unichk (k : Core) : Bool := match k.inst with | some i => i.unichk | none => false
def Core.tagchk (k : Core) : Bool := match k.inst with | some i => i.tagchk | none => false

/-- The first operand in which a thread differs from the lead, with the thread's segment lane (R179). -/
def firstDiff (w : Nat) (srcs : List Src) (lead : List Opnd) (others : List (Nat × List Opnd)) : Option W64 :=
  (List.range srcs.length).findSome? (fun i =>
    let vals (o : List Opnd) := (o.getD i []).map (·.1)
    match others.find? (fun e => vals e.2 != vals lead) with
    | some e => some (BitVec.ofNat 64 ((srcs.getD i { reg := 0 }).idx + laneOf e.1 % w * 256))
    | none => none)

/-- The operands of thread `t`: as read now, or as kept since its issue (R67, R68). -/
def OpSpec.opsOf (o : OpSpec) (k : Core) (t : Nat) : List Opnd := ((k.thread t).kept).getD (o.srcs.map (k.readSrc t o.edge))

/-- The executions of one segment under U (R178, R179). Where the operands differ and the tag check then fails, UNIF is set all the same
(log 119). -/
def uniSegment (k : Core) (o : OpSpec) (ts : List Nat) : Gathered :=
  match ts with
  | [] => {}
  | lead :: rest =>
    let ops := o.opsOf k lead
    let others := rest.map (fun t => (t, o.opsOf k t))
    let diff := firstDiff k.segW o.srcs ops others
    if diff.isSome && k.unichk then { traps := ts.map (fun t => (t, .uniform, diff.getD 0)) }
    else
      let unif := if diff.isSome then ts else []
      match fmtTrap k.tagchk o.srcs ops with
      | some v => { traps := ts.map (fun t => (t, .fmt, v)), unif := unif }
      | none => { execs := [{ lead := lead, ops := ops, targets := ts }], unif := unif }

def Gathered.append (a b : Gathered) : Gathered :=
  { block := a.block ++ b.block, traps := a.traps ++ b.traps, idle := a.idle ++ b.idle, unif := a.unif ++ b.unif,
    execs := a.execs ++ b.execs }

/-- One thread's own execution. -/
def lonePart (k : Core) (o : OpSpec) (t : Nat) : Gathered :=
  let ops := o.opsOf k t
  match fmtTrap k.tagchk o.srcs ops with
  | some v => { traps := [(t, .fmt, v)] }
  | none => { execs := [{ lead := t, ops := ops, targets := [t] }] }

/-- What stands before the operands are read: a wait, a trap, or neither (R16, R185 checks 1 to 4, R88). A thread that keeps its operands
has passed these checks at its issue. -/
inductive Front where
  | idle | block (w : Wait) | trap (c : Cause) (v : W64) | go
  deriving DecidableEq, Repr

def OpSpec.front (o : OpSpec) (k : Core) (word : W64) (t : Nat) : Front :=
  if (k.thread t).kept.isSome then .go
  else if o.avail.privileged (k.thread t).level then .trap .priv word
  else if !k.active o.h t then .idle
  else if o.noSub && (k.thread t).sub.isSome then .trap .illegal word
  else match o.regx k t with
    | some (r, i) => .trap .regx (BitVec.ofNat 64 (r + i * 256))
    | none =>
      match o.routeTrap k with
      | some v => .trap .route v
      | none =>
        if o.keys k t != [] then .block (.regs (o.keys k t))
        else if o.stallsPrincipal k t then .block .princ
        else match o.copyErr k t with
          | some a => .trap .copyerr a
          | none => .go

/-- The whole issue traps ILLEGAL: an opcode not available on a control core, or a control instruction that does not end its block
(R182, R184). -/
def OpSpec.refusedAt (o : OpSpec) (c : Nat) (last : Bool) : Bool :=
  (isCtl c && (o.avail == .core || o.avail == .sl)) || (o.endsBlock && !last)
def OpSpec.refused (o : OpSpec) (s : State) : Bool := o.refusedAt s.cur.core s.cur.last

/-- The fate of every thread of the issuing set (R177 to R179, R185). -/
def gather (o : OpSpec) (s : State) : Gathered :=
  let k := s.core s.cur.core
  if o.refused s then { traps := s.cur.set.map (fun t => (t, .illegal, s.cur.word)) }
  else
    let fates := s.cur.set.map (fun t => (t, o.front k s.cur.word t))
    let go := (fates.filter (fun e => e.2 == .go)).map (·.1)
    let base : Gathered :=
      { block := fates.filterMap (fun e => match e.2 with | .block w => some (e.1, w) | _ => none)
        traps := fates.filterMap (fun e => match e.2 with | .trap c v => some (e.1, c, v) | _ => none)
        idle := (fates.filter (fun e => e.2 == .idle)).map (·.1) }
    if o.h.u then
      (List.range (64 / k.segW)).foldl (fun g i =>
        g.append (uniSegment k o (go.filter (fun t => laneOf t / k.segW == i)))) base
    else go.foldl (fun g t => g.append (lonePart k o t)) base

/-! ### Committing an issue -/

/-- The thread stalls after its issue: it keeps its operands, and its destinations are due (R37, R67, R68, R77). -/
def Thread.stall (th : Thread) (ops : List Opnd) (dsts : List Nat) (w : Wait) : Thread :=
  { (th.wait w).due dsts with kept := some ops }

/-- The thread has issued: its PC is the instruction's, inside its block (R182). -/
def Thread.commit (p : Port) (th : Thread) : Thread := { th with pc := p.pc, blk := p.blk, block := none, waitFor := 0 }

/-- An issue resets the counts of the segments that it issues to (R18). -/
def Core.noteIssue (k : Core) (p : Nat) (ts : List Nat) : Core :=
  let x := k.phrase p
  let segs := ts.foldl (fun m t => Map.erase m (laneOf t / k.segW)) x.segWait
  if segs = x.segWait then k else { k with phrases := Map.put k.phrases p { x with segWait := segs } }

/-- Threads that wait do so before issue; the others have issued; a failure that is taken is over; traps are taken; inactive threads move on; UNIF is set (R177 to
R179, R185). -/
def State.settle (s : State) (o : OpSpec) (g : Gathered) : State :=
  let c := s.cur.core
  let s := g.block.foldl (fun s e => s.updThread c e.1 (fun th => th.wait e.2)) s
  let moving := s.cur.set.filter (fun t => !g.block.any (fun e => e.1 == t))
  let k := s.core c
  let s := s.updCore c (fun k => k.noteIssue s.cur.phrase moving)
  let s := moving.foldl (fun s t => s.updThread c t (Thread.commit s.cur)) s
  let s := (g.traps.filter (fun e => e.2.1 == .copyerr)).foldl (fun s e => s.updCore c (o.errTaken k e.1)) s
  let s := g.unif.foldl (fun s t => s.updThread c t Thread.setUnif) s
  let s := if o.keepIdle then s else g.idle.foldl (fun s t => s.updThread c t (fun th => th.next s.cur.last)) s
  g.traps.foldl (fun s e => s.trap c e.1 e.2.1 s.cur.pc e.2.2) s

/-- Gathers the operands, settles the issue and runs the executions in order. -/
def runExecs (o : OpSpec) (f : State → Exec → State) (s : State) : State :=
  let g := gather o s
  g.execs.foldl f (s.settle o g)

/-! ### Register results -/

/-- The results of one execution: registers with tags, predicates, flags, SATC. -/
structure Res where
  regs : List (Nat × W32 × Tag) := []
  preds : List (Nat × Bool) := []
  fpf : BitVec 4 := 0
  satc : Bool := false
  deriving DecidableEq, Repr

/-- One register with its tag. -/
def Res.one (r : Nat) (v : W32) (t : Nat) : Res := { regs := [(r, v, BitVec.ofNat 4 t)] }
/-- An x-pair with one tag; x0 discards both halves (R40, R48). -/
def Res.pair (r : Nat) (v : W64) (t : Nat) : Res :=
  if r = 0 then {} else { regs := [(r, v.setWidth 32, BitVec.ofNat 4 t), (r + 1, (v >>> 32).setWidth 32, BitVec.ofNat 4 t)] }

/-- A write over a register whose failed result nobody read drops the failure. -/
def Thread.put (th : Thread) (r : Nat) (v : W32) (t : Tag) : Thread := (th.dropPend r).setReg r v t

def Thread.apply (th : Thread) (r : Res) : Thread :=
  let th := r.regs.foldl (fun th e => th.put e.1 e.2.1 e.2.2) th
  let th := r.preds.foldl (fun th e => th.setPred e.1 e.2) th
  (th.raise r.fpf).setSatc r.satc

/-- A target takes the result and completes. -/
def State.finish (s : State) (t : Nat) (r : Res) : State :=
  s.updThread s.cur.core t (fun th => (th.apply r).next s.cur.last)

/-- Every target of an execution takes the result. -/
def State.finishAll (s : State) (e : Exec) (r : Res) : State := e.targets.foldl (fun s t => s.finish t r) s

/-- An instruction that computes registers from its operands and the lead lane's predicates, and does nothing else (R188). -/
def alu (o : OpSpec) (comp : Thread → Exec → Res) (s : State) : Out :=
  .next (runExecs o (fun s e => s.finishAll e (comp ((s.core s.cur.core).thread e.lead) e)) s)

end Sys2Proof.Machine

namespace Sys2Proof
open Sys2Proof.Machine

/-! ### The operands of the forms (R170 to R176) -/

def WForm.srcA (f : WForm) (n : Nat) (ty : Option Nat) : Src := { reg := f.a.toNat, desc := f.ra, n := n, ty := ty, idx := 0 }
def WForm.srcB (f : WForm) (n : Nat) (ty : Option Nat) : Src := { reg := f.b.toNat, desc := f.rb, n := n, ty := ty, idx := 1 }
def VForm.srcA (f : VForm) (n : Nat) (ty : Option Nat) : Src := { reg := f.a.toNat, desc := f.ra, n := n, ty := ty, idx := 0 }
def VForm.srcB (f : VForm) (n : Nat) (ty : Option Nat) : Src := { reg := f.b.toNat, desc := f.rb, n := n, ty := ty, idx := 1 }
/-- The routing of C (R171): identity, the RA or the RB descriptor, SH with k = -1. -/
def rcsDesc (ra rb : BitVec 9) (rcs : BitVec 2) : BitVec 9 :=
  match rcs.toNat with
  | 0 => 0
  | 1 => ra
  | 2 => rb
  | _ => 0x0BF
def VForm.srcC (f : VForm) (n : Nat) (ty : Option Nat) : Src :=
  { reg := f.c.toNat, desc := rcsDesc f.ra f.rb f.rcs, n := n, ty := ty, idx := 2 }
def IForm.srcA (f : IForm) (ty : Option Nat) : Src := { reg := f.a.toNat, desc := f.ra, ty := ty, idx := 0 }
/-- The destination D: `n` registers; a write to x0 is discarded (R40). -/
def dstD (d : BitVec 7) (n : Nat) : Dst := { reg := d.toNat, n := if n = 2 ∧ d = 0 then 0 else n, idx := 3 }
/-- The immediate of the I form, sign-extended to 32 bits (R172). -/
def IForm.sImm (f : IForm) : W32 := f.imm.signExtend 32
/-- Registers of a type: an x-pair for i64 and n64 (R188). -/
def nregs (ty : Nat) : Nat := if is64 ty then 2 else 1

end Sys2Proof

namespace Sys2Proof.Machine
open Sys2Proof

/-! ### Common operand lists -/

/-- A type that governs a source; b32 leaves it unchecked (R188). -/
def chk (ty : Nat) : Option Nat := if ty = 2 then none else some ty

/-- W form: A and B of one type, D of that type. -/
def specW (f : WForm) (ty : Nat) : OpSpec :=
  { h := f.h, edge := f.edge.toNat, srcs := [f.srcA (nregs ty) (chk ty), f.srcB (nregs ty) (chk ty)], dsts := [dstD f.d (nregs ty)] }

/-- W form: A alone. -/
def specW1 (f : WForm) (na : Nat) (ta : Option Nat) (nd : Nat) : OpSpec :=
  { h := f.h, edge := f.edge.toNat, srcs := [f.srcA na ta], dsts := [dstD f.d nd] }

/-- W form: A and B with their own types and counts. -/
def specW2 (f : WForm) (na : Nat) (ta : Option Nat) (nb : Nat) (tb : Option Nat) (nd : Nat) : OpSpec :=
  { h := f.h, edge := f.edge.toNat, srcs := [f.srcA na ta, f.srcB nb tb], dsts := [dstD f.d nd] }

/-- V form: three single registers. -/
def specV (f : VForm) (ta tb tc : Option Nat) : OpSpec :=
  { h := f.h, edge := f.edge.toNat, srcs := [f.srcA 1 ta, f.srcB 1 tb, f.srcC 1 tc], dsts := [dstD f.d 1] }

/-- I form: A and an immediate. -/
def specI (f : IForm) (ty : Option Nat) : OpSpec := { h := f.h, srcs := [f.srcA ty], dsts := [dstD f.d 1] }

/-- The value of an operand of type `ty`, in 64 bits. -/
def Opnd.ofTy (o : Opnd) (ty : Nat) : W64 := if is64 ty then o.x else o.lo.setWidth 64

/-- A result of type `ty`. -/
def Res.ofTy (d : BitVec 7) (ty : Nat) (v : W64) : Res :=
  if is64 ty then Res.pair d.toNat v ty else Res.one d.toNat (v.setWidth 32) ty

end Sys2Proof.Machine
end

