-- ==== Sys2Proof/Machine/IntAlu.lean ====
section
/-! DEFINITION. NOP and the integer instructions 0x10 to 0x1F (R189 to R198). -/

namespace Sys2Proof.Machine
open Sys2Proof

/-- NOP (R189). -/
def execNop (f : VForm) (s : State) : Out := alu { h := f.h } (fun _ _ => {}) s

/-! ### Elements (R190) -/

/-- Element width. -/
def elemW (ty : Nat) : Nat :=
  match ty with
  | 0 | 1 | 2 | 3 => 32
  | 8 | 9 => 64
  | 6 | 4 | 5 | 0xA | 0xB | 0xC | 0xD => 16
  | _ => 8
/-- Number of elements. -/
def elemN (ty : Nat) : Nat := if ty = 7 then 4 else if ty = 6 ∨ ty = 4 ∨ ty = 5 then 2 else 1
/-- Elements are signed for i types and for packed types; variants 1 and 3 read packed elements as unsigned. -/
def elemSigned (ty var : Nat) : Bool :=
  if ty = 6 ∨ ty = 7 then var % 2 == 0 else ty % 2 == 0

/-- Bits of an element. -/
def elemBits (w : Nat) (v : W64) (e : Nat) : Nat := v.toNat / 2 ^ (w * e) % 2 ^ w
/-- A number of `w` bits read as signed or unsigned. -/
def asInt (signed : Bool) (w b : Nat) : Int := if signed && decide (2 ^ (w - 1) ≤ b) then (b : Int) - ((2 ^ w : Nat) : Int) else (b : Int)
/-- Val of R190. -/
def elemVal (signed : Bool) (w : Nat) (v : W64) (e : Nat) : Int := asInt signed w (elemBits w v e)

/-- Puts element results together, each mod 2^w; a scalar narrower than 32 bits is extended (R51). -/
def packElems (ty : Nat) (xs : List Int) : W64 :=
  let w := elemW ty
  if 1 < elemN ty then
    BitVec.ofNat 64 (xs.foldr (fun x acc => acc * 2 ^ w + (x % ((2 ^ w : Nat) : Int)).toNat) 0)
  else
    let x := xs.headD 0
    let b := (x % ((2 ^ w : Nat) : Int)).toNat
    if w < 32 then BitVec.ofInt 64 (asInt (ty % 2 == 0) w b) else BitVec.ofNat 64 b

/-- Applies an element operation. -/
def elemMap (ty var : Nat) (op : Int → Int → Int) (a b : W64) : List Int :=
  (List.range (elemN ty)).map (fun e => op (elemVal (elemSigned ty var) (elemW ty) a e) (elemVal (elemSigned ty var) (elemW ty) b e))

/-- Clamp of R190 over the elements, under SAT. -/
def satElems (ty var : Nat) (sat : Bool) (xs : List Int) : List Int × Bool :=
  if sat then
    let rs := xs.map (clampInt (elemSigned ty var) (elemW ty))
    (rs.map (·.1), rs.any (·.2))
  else (xs, false)

/-- An integer instruction of R190 with element operation `op`. -/
def intOp (f : WForm) (op : Int → Int → Int) (s : State) : Out :=
  let ty := f.ty
  alu (specW f ty) (fun _ e =>
    let (xs, sat) := satElems ty f.var f.sat (elemMap ty f.var op ((e.op 0).ofTy ty) ((e.op 1).ofTy ty))
    { Res.ofTy f.d ty (packElems ty xs) with satc := sat }) s

/-- ADD (R191). -/
def execAdd (f : WForm) (s : State) : Out := intOp f (fun x y => x + y) s
/-- SUB (R191). -/
def execSub (f : WForm) (s : State) : Out := intOp f (fun x y => x - y) s
/-- MUL (R192). -/
def execMul (f : WForm) (s : State) : Out :=
  intOp f (fun x y => if f.var < 2 then x * y else x * y / ((2 ^ elemW f.ty : Nat) : Int)) s
/-- MIN (R195). -/
def execMin (f : WForm) (s : State) : Out := intOp f (fun x y => if x ≤ y then x else y) s
/-- MAX (R195). -/
def execMax (f : WForm) (s : State) : Out := intOp f (fun x y => if x ≤ y then y else x) s

/-- The tag that ABSD writes: the unsigned scalar of the width, or the packed type (R195). -/
def absdTy (ty : Nat) : Nat := if ty = 6 ∨ ty = 7 then ty else ty / 2 * 2 + 1

/-- ABSD (R195). -/
def execAbsd (f : WForm) (s : State) : Out :=
  let ty := f.ty
  alu (specW f ty) (fun _ e =>
    Res.ofTy f.d (absdTy ty) (packElems (absdTy ty)
      (elemMap ty f.var (fun x y => ((x - y).natAbs : Int)) ((e.op 0).ofTy ty) ((e.op 1).ofTy ty)))) s

/-- DIV and REM (R194): the quotient, the remainder, SATC. -/
def divide (signed sat : Bool) (w : Nat) (x y : Int) : Int × Int × Bool :=
  if y = 0 then (if signed then -1 else ((2 ^ w : Nat) : Int) - 1, x, false)
  else if signed ∧ x = intMin true w ∧ y = -1 then (if sat then intMax true w else intMin true w, 0, sat)
  else (x.tdiv y, x - x.tdiv y * y, false)

/-- DIV (R194). -/
def execDiv (f : WForm) (s : State) : Out :=
  let ty := f.ty
  let sg := ty % 2 == 0
  alu (specW f ty) (fun _ e =>
    let r := divide sg f.sat (elemW ty) (elemVal sg (elemW ty) ((e.op 0).ofTy ty) 0) (elemVal sg (elemW ty) ((e.op 1).ofTy ty) 0)
    { Res.ofTy f.d ty (packElems ty [r.1]) with satc := r.2.2 }) s

/-- REM (R194). -/
def execRem (f : WForm) (s : State) : Out :=
  let ty := f.ty
  let sg := ty % 2 == 0
  alu (specW f ty) (fun _ e =>
    let r := divide sg false (elemW ty) (elemVal sg (elemW ty) ((e.op 0).ofTy ty) 0) (elemVal sg (elemW ty) ((e.op 1).ofTy ty) 0)
    Res.ofTy f.d ty (packElems ty [r.2.1])) s

/-- MAD (R193). -/
def execMad (f : VForm) (s : State) : Out :=
  alu (specV f none none none) (fun _ e => Res.one f.d.toNat ((e.op 0).lo * (e.op 1).lo + (e.op 2).lo) 2) s

/-- MADHI.i (R193). -/
def execMadhiI (f : VForm) (s : State) : Out :=
  alu (specV f (some 0) (some 0) (some 0)) (fun _ e =>
    Res.one f.d.toNat (BitVec.ofInt 32 ((e.op 0).lo.toInt * (e.op 1).lo.toInt / 4294967296 + (e.op 2).lo.toInt)) 0) s

/-- MADHI.n (R193). -/
def execMadhiN (f : VForm) (s : State) : Out :=
  alu (specV f (some 1) (some 1) (some 1)) (fun _ e =>
    Res.one f.d.toNat (BitVec.ofNat 32 ((e.op 0).lo.toNat * (e.op 1).lo.toNat / 4294967296 + (e.op 2).lo.toNat)) 1) s

/-- The pass-through rule of R196: the tag of A when it is i32 or n32, else b32. -/
def passTag (t : Tag) : Nat := if t = 0 then 0 else if t = 1 then 1 else 2

/-- ADDI (R196). -/
def execAddi (f : IForm) (s : State) : Out :=
  alu (specI f none) (fun _ e => Res.one f.d.toNat ((e.op 0).lo + f.sImm) (passTag (e.op 0).tag)) s

/-- MULI (R196). -/
def execMuli (f : IForm) (s : State) : Out :=
  alu (specI f none) (fun _ e => Res.one f.d.toNat ((e.op 0).lo * f.sImm) (passTag (e.op 0).tag)) s

/-- The carry predicate of ADDC and SUBB, FN[5:3] (R197). -/
def WForm.carry (f : WForm) : Nat := (f.fn.extractLsb' 3 3).toNat

/-- ADDC (R197). -/
def execAddc (f : WForm) (s : State) : Out :=
  alu (specW f f.ty) (fun th e =>
    let k := WForm.carry f
    let x := (e.op 0).lo.toNat + (e.op 1).lo.toNat + (if th.pred k then 1 else 0)
    { Res.one f.d.toNat (BitVec.ofNat 32 x) f.ty with preds := [(k, decide (2 ^ 32 ≤ x))] }) s

/-- SUBB (R197). -/
def execSubb (f : WForm) (s : State) : Out :=
  alu (specW f f.ty) (fun th e =>
    let k := WForm.carry f
    let x : Int := (e.op 0).lo.toNat - (e.op 1).lo.toNat - (if th.pred k then 1 else 0)
    { Res.one f.d.toNat (BitVec.ofInt 32 x) f.ty with preds := [(k, decide (x < 0))] }) s

/-- The byte `k` of a value. -/
def byteN (v : W32) (k : Nat) : Nat := v.toNat / 256 ^ k % 256

/-- SAD (R198). -/
def execSad (f : VForm) (s : State) : Out :=
  alu (specV f none none none) (fun _ e =>
    let sum := (List.range 4).foldl (fun acc k =>
      acc + ((byteN (e.op 0).lo k : Int) - (byteN (e.op 1).lo k : Int)).natAbs) 0
    Res.one f.d.toNat ((e.op 2).lo + BitVec.ofNat 32 sum) 1) s

end Sys2Proof.Machine
end

