-- ==== Sys2Proof/Machine/Logic.lean ====
section
/-! DEFINITION. Logic, shifts, bit fields and byte permutation: 0x20 to 0x2F and PERMB (R199 to R205). -/

namespace Sys2Proof.Machine
open Sys2Proof

/-- The operands of a bitwise instruction: registers of any type (R199). -/
def bitSpec (f : WForm) : OpSpec := { specW f f.ty with srcs := [f.srcA (nregs f.ty) none, f.srcB (nregs f.ty) none] }

/-- A bitwise instruction: b32 in every register written (R199). -/
def bitOp (f : WForm) (op : W64 → W64 → W64) (s : State) : Out :=
  let ty := f.ty
  alu (bitSpec f) (fun _ e =>
    let v := op ((e.op 0).ofTy ty) ((e.op 1).ofTy ty)
    if is64 ty then Res.pair f.d.toNat v 2 else Res.one f.d.toNat (v.setWidth 32) 2) s

/-- AND (R199). -/
def execAnd (f : WForm) (s : State) : Out := bitOp f (fun a b => a &&& b) s
/-- OR (R199). -/
def execOr (f : WForm) (s : State) : Out := bitOp f (fun a b => a ||| b) s
/-- XOR (R199). -/
def execXor (f : WForm) (s : State) : Out := bitOp f (fun a b => a ^^^ b) s
/-- ANDN (R199). -/
def execAndn (f : WForm) (s : State) : Out := bitOp f (fun a b => a &&& ~~~b) s

/-- A bitwise instruction with an immediate (R199). -/
def bitImm (f : IForm) (op : W32 → W32 → W32) (s : State) : Out :=
  alu (specI f none) (fun _ e => Res.one f.d.toNat (op (e.op 0).lo f.sImm) 2) s

/-- ANDI (R199). -/
def execAndi (f : IForm) (s : State) : Out := bitImm f (fun a b => a &&& b) s
/-- ORI (R199). -/
def execOri (f : IForm) (s : State) : Out := bitImm f (fun a b => a ||| b) s
/-- XORI (R199). -/
def execXori (f : IForm) (s : State) : Out := bitImm f (fun a b => a ^^^ b) s

/-- The shifts of `w` bits by `k`: 0 SHL, 1 SHR, 2 SAR, 3 ROTL (R200, R201). -/
def shiftBits (kind w x k : Nat) : Nat :=
  match kind with
  | 0 => x * 2 ^ k % 2 ^ w
  | 1 => x / 2 ^ k
  | 2 => (asInt true w x / ((2 ^ k : Nat) : Int) % ((2 ^ w : Nat) : Int)).toNat
  | _ => (x * 2 ^ k + x / 2 ^ (w - k)) % 2 ^ w

/-- A shift by a register amount, per element (R200). -/
def shiftOp (f : WForm) (kind : Nat) (s : State) : Out :=
  let ty := f.ty
  let w := elemW ty
  alu (specW2 f (nregs ty) (chk ty) 1 none (nregs ty)) (fun _ e =>
    let k := (e.op 1).lo.toNat % w
    let a := (e.op 0).ofTy ty
    Res.ofTy f.d ty (packElems ty ((List.range (elemN ty)).map (fun i => (shiftBits kind w (elemBits w a i) k : Int))))) s

/-- SHL (R200). -/
def execShl (f : WForm) (s : State) : Out := shiftOp f 0 s
/-- SHR (R200). -/
def execShr (f : WForm) (s : State) : Out := shiftOp f 1 s
/-- SAR (R200). -/
def execSar (f : WForm) (s : State) : Out := shiftOp f 2 s
/-- ROTL (R200). -/
def execRotl (f : WForm) (s : State) : Out := shiftOp f 3 s

/-- SHI (R201). -/
def execShi (f : IForm) (s : State) : Out :=
  alu (specI f none) (fun _ e =>
    let kind := (f.imm.extractLsb' 26 2).toNat
    let k := (f.imm.extractLsb' 0 5).toNat
    Res.one f.d.toNat (BitVec.ofNat 32 (shiftBits kind 32 (e.op 0).lo.toNat k)) (passTag (e.op 0).tag)) s

/-- FUNNEL (R202). -/
def execFunnel (f : VForm) (s : State) : Out :=
  alu (specV f none none none) (fun _ e =>
    Res.one f.d.toNat (((((e.op 0).lo ++ (e.op 1).lo : W64)) >>> ((e.op 2).lo.toNat % 32)).setWidth 32) 2) s

/-- A field descriptor (R203): pos and len. -/
def fieldOf (d : W32) : Nat × Nat := ((d.extractLsb' 0 5).toNat, min 32 (d.extractLsb' 8 6).toNat)

/-- BFX (R203). -/
def bfxVal (signed : Bool) (a : W32) (pos len : Nat) : W32 :=
  if len = 0 then 0
  else
    let x := (if signed then a.toInt else (a.toNat : Int)) / ((2 ^ pos : Nat) : Int)
    BitVec.ofInt 32 (asInt signed len (x % ((2 ^ len : Nat) : Int)).toNat)

/-- BFX (R203). -/
def execBfx (f : WForm) (s : State) : Out :=
  alu (specW2 f 1 (chk f.ty) 1 none 1) (fun _ e =>
    let (pos, len) := fieldOf (e.op 1).lo
    Res.one f.d.toNat (bfxVal (f.ty == 0) (e.op 0).lo pos len) f.ty) s

/-- BFI (R203). -/
def execBfi (f : VForm) (s : State) : Out :=
  alu (specV f none none none) (fun _ e =>
    let (pos, len) := fieldOf (e.op 2).lo
    let m : W32 := BitVec.ofNat 32 ((2 ^ len - 1) * 2 ^ pos)
    Res.one f.d.toNat (((e.op 0).lo &&& ~~~m) ||| (((e.op 1).lo <<< pos) &&& m)) 2) s

def popcount (w n : Nat) : Nat := ((List.range w).filter (fun i => n.testBit i)).length
def leadZeros (w n : Nat) : Nat := if n = 0 then w else w - 1 - Nat.log2 n
def trailZeros (w n : Nat) : Nat := ((List.range w).find? (fun i => n.testBit i)).getD w
def bitReverse (w n : Nat) : Nat := (List.range w).foldl (fun acc i => acc + if n.testBit i then 2 ^ (w - 1 - i) else 0) 0

/-- The operands of BITOP: BREV alone has a result of the operand's width. -/
def bitopSpec (f : WForm) : OpSpec := specW1 f (nregs f.ty) none (if f.var = 3 then nregs f.ty else 1)

/-- BITOP (R204): 0 POPC, 1 CLZ, 2 CTZ, 3 BREV. -/
def execBitop (f : WForm) (s : State) : Out :=
  let ty := f.ty
  let w := if ty = 9 then 64 else 32
  alu (bitopSpec f) (fun _ e =>
    let n := ((e.op 0).ofTy ty).toNat
    match f.var with
    | 0 => Res.one f.d.toNat (BitVec.ofNat 32 (popcount w n)) 1
    | 1 => Res.one f.d.toNat (BitVec.ofNat 32 (leadZeros w n)) 1
    | 2 => Res.one f.d.toNat (BitVec.ofNat 32 (trailZeros w n)) 1
    | _ => if ty = 9 then Res.pair f.d.toNat (BitVec.ofNat 64 (bitReverse w n)) 2
           else Res.one f.d.toNat (BitVec.ofNat 32 (bitReverse w n)) 2) s

/-- A byte of PERMB's result by its selector (R205). -/
def permByte (a : W32) (sel : Nat) : Nat :=
  let b := byteN a (sel % 4)
  if sel / 4 % 2 = 1 then 0
  else if sel / 8 % 2 = 0 then b
  else if 128 ≤ b then 255 else 0

/-- PERMB (R205). -/
def execPermb (f : WForm) (s : State) : Out :=
  alu (specW2 f 1 none 1 none 1) (fun _ e =>
    Res.one f.d.toNat (BitVec.ofNat 32 ((List.range 4).foldl (fun acc k =>
      acc + permByte (e.op 0).lo ((e.op 1).lo.toNat / 16 ^ k % 16) * 256 ^ k) 0)) 2) s

end Sys2Proof.Machine
end

