-- ==== Sys2Proof/Machine/PredMove.lean ====
section
/-! DEFINITION. Predicates, selection, constants and moves: 0x30 to 0x34 and 0x40 to 0x44 (R206 to R210, R214 to R216). -/

namespace Sys2Proof.Machine
open Sys2Proof

/-- The format of a float type code. -/
def fmtOf (ty : Nat) : Option Fmt :=
  match ty with
  | 3 => some f32
  | 0xA | 4 => some f16
  | 0xB | 5 => some bf16
  | _ => none

/-- The integer compare codes (R206): 0 EQ, 1 NE, 2 LT, 3 LE, 4 GT, 5 GE. -/
def intCmp (cc : Nat) (x y : Int) : Bool :=
  match cc with
  | 0 => x == y
  | 1 => x != y
  | 2 => decide (x < y)
  | 3 => decide (x ≤ y)
  | 4 => decide (y < x)
  | _ => decide (y ≤ x)

/-- The operands of SETP, SETPI, SEL and PMOV. -/
def setpSpec (f : WForm) : OpSpec := { specW f f.ty with dsts := [] }
def setpiSpec (f : IForm) : OpSpec := { h := f.h, srcs := [f.srcA (some (if f.imm.getLsbD 20 then 1 else 0))] }
def selSpec (f : VForm) : OpSpec := { h := f.h, edge := f.edge.toNat, srcs := [f.srcA 1 none, f.srcB 1 none], dsts := [dstD f.d 1] }
def pmovSpec (f : WForm) : OpSpec :=
  let rd := f.var = 1 ∨ f.var = 3
  { h := f.h, edge := f.edge.toNat, srcs := if rd then [f.srcA 1 none] else [], dsts := if rd then [] else [dstD f.d 1] }

/-- SETP (R206). -/
def execSetp (f : WForm) (s : State) : Out :=
  let ty := f.ty
  alu (setpSpec f) (fun _ e =>
    let d := f.d.toNat % 8
    match fmtOf ty with
    | some fm =>
      let (r, fl) := fm.compare f.var (e.op 0).lo (e.op 1).lo
      { preds := [(d, r)], fpf := fl }
    | none =>
      let val (o : Opnd) : Int := elemVal (ty % 2 == 0) (elemW ty) (o.ofTy ty) 0
      { preds := [(d, intCmp f.var (val (e.op 0)) (val (e.op 1)))] }) s

/-- SETPI (R207). -/
def execSetpi (f : IForm) (s : State) : Out :=
  let uns := f.imm.getLsbD 20
  alu (setpiSpec f) (fun _ e =>
    let a := (e.op 0).lo
    let b : W32 := (f.imm.extractLsb' 0 20).signExtend 32
    let cc := (f.imm.extractLsb' 24 4).toNat
    let r := if uns then intCmp cc a.toNat b.toNat else intCmp cc a.toInt b.toInt
    { preds := [((f.imm.extractLsb' 21 3).toNat, r)] }) s

/-- PLOGIC (R208). -/
def execPlogic (f : WForm) (s : State) : Out :=
  alu { h := f.h } (fun th _ =>
    let i := (if th.pred (f.a.toNat % 8) then 2 else 0) + (if th.pred (f.b.toNat % 8) then 1 else 0)
    { preds := [(f.d.toNat % 8, f.var.testBit i)] }) s

/-- SEL (R209). -/
def execSel (f : VForm) (s : State) : Out :=
  alu (selSpec f) (fun th e =>
    let o := if th.pred (f.c.toNat % 8) then e.op 0 else e.op 1
    Res.one f.d.toNat o.lo o.tag.toNat) s

/-- PMOV (R210): 0 get, 1 set, 2 save, 3 load. -/
def execPmov (f : WForm) (s : State) : Out :=
  alu (pmovSpec f)
    (fun th e =>
      match f.var with
      | 0 => Res.one f.d.toNat (if th.pred (f.a.toNat % 8) then 1 else 0) 1
      | 1 => { preds := [(f.d.toNat % 8, (e.op 0).lo != 0)] }
      | 2 => Res.one f.d.toNat ((th.p ||| 1).setWidth 32) 1
      | _ => { preds := (List.range 7).map (fun i => (i + 1, (e.op 0).lo.getLsbD (i + 1))) }) s

/-- LEA (R214). -/
def execLea (f : WForm) (s : State) : Out :=
  let ty := f.ty
  alu (specW2 f (nregs ty) (chk ty) 1 none (nregs ty)) (fun _ e =>
    if is64 ty then Res.pair f.d.toNat ((e.op 0).x + ((e.op 1).lo.signExtend 64 <<< f.var)) ty
    else Res.one f.d.toNat ((e.op 0).lo + ((e.op 1).lo <<< f.var)) ty) s

/-- MOVI (R215). -/
def execMovi (f : IForm) (s : State) : Out :=
  alu { h := f.h, dsts := [dstD f.d 1] } (fun _ _ => Res.one f.d.toNat f.sImm 2) s

/-- MOVIH (R215). -/
def execMovih (f : IForm) (s : State) : Out :=
  alu (specI f none) (fun _ e =>
    Res.one f.d.toNat (((e.op 0).lo &&& 0x0FFFFFFF) ||| ((f.imm.extractLsb' 0 4).setWidth 32 <<< 28)) 2) s

/-- MOV (R216). -/
def execMov (f : WForm) (s : State) : Out :=
  alu (specW1 f 1 none 1) (fun _ e => Res.one f.d.toNat (e.op 0).lo (if f.var = 0 then (e.op 0).tag.toNat else 2)) s

/-- MOVX (R216): both halves with their own tags. -/
def execMovx (f : WForm) (s : State) : Out :=
  alu (specW1 f 2 none 2) (fun _ e =>
    if f.d = 0 then {}
    else if f.var = 0 then
      { regs := [(f.d.toNat, (e.op 0).lo, (e.op 0).tag), (f.d.toNat + 1, (e.op 0).hi, (e.op 0).tagHi)] }
    else Res.pair f.d.toNat (e.op 0).x 2) s

/-- TAGSET (R231). -/
def execTagset (f : WForm) (s : State) : Out := alu (specW1 f 1 none 1) (fun _ e => Res.one f.d.toNat (e.op 0).lo f.ty) s

/-- TAGGET (R231). -/
def execTagget (f : WForm) (s : State) : Out :=
  alu (specW1 f 1 none 1) (fun _ e => Res.one f.d.toNat ((e.op 0).tag.setWidth 32) 1) s

end Sys2Proof.Machine
end

