-- ==== Sys2Proof/Machine/Float.lean ====
section
/-! DEFINITION. Floating point: 0x50 to 0x69 (R217 to R225). -/

namespace Sys2Proof.Machine
open Sys2Proof

/-- The format of an instruction's type; the decoder admits float types only. -/
def WForm.fmt (f : WForm) : Fmt := (fmtOf f.ty).getD f32

/-- A scalar floating-point instruction of two sources (R217). -/
def fpOp (f : WForm) (op : Fmt → W32 → W32 → FRes) (s : State) : Out :=
  alu (specW f f.ty) (fun _ e =>
    let r := op (WForm.fmt f) (e.op 0).lo (e.op 1).lo
    { Res.one f.d.toNat r.1 f.ty with fpf := r.2 }) s

/-- FADD (R217). -/
def execFadd (f : WForm) (s : State) : Out := fpOp f (fun m a b => m.add f.rm a b) s
/-- FSUB (R217). -/
def execFsub (f : WForm) (s : State) : Out := fpOp f (fun m a b => m.sub f.rm a b) s
/-- FMUL (R217). -/
def execFmul (f : WForm) (s : State) : Out := fpOp f (fun m a b => m.mul f.rm a b) s
/-- FMIN (R217). -/
def execFmin (f : WForm) (s : State) : Out := fpOp f (fun m a b => m.minmax false a b) s
/-- FMAX (R217). -/
def execFmax (f : WForm) (s : State) : Out := fpOp f (fun m a b => m.minmax true a b) s

/-- A V-form instruction of three sources with one result and its flags. -/
def vOp (f : VForm) (ta tc td : Nat) (op : W32 → W32 → W32 → FRes) (s : State) : Out :=
  alu (specV f (some ta) (some ta) (some tc)) (fun _ e =>
    let r := op (e.op 0).lo (e.op 1).lo (e.op 2).lo
    { Res.one f.d.toNat r.1 td with fpf := r.2 }) s

/-- FFMA (R218). -/
def execFfma (f : VForm) (s : State) : Out := vOp f 3 3 3 (fun a b c => f32.fma 0 a b c) s

/-- FMULI (R219): the multiplier has the bits IMM << 4. -/
def execFmuli (f : IForm) (s : State) : Out :=
  alu (specI f (some 3)) (fun _ e =>
    let r := f32.mul 0 (e.op 0).lo (f.imm.setWidth 32 <<< 4)
    { Res.one f.d.toNat r.1 3 with fpf := r.2 }) s

/-- A scalar result, or the two elements of a packed one, with the flags of both (R223). -/
def perElem (packed : Bool) (op : Nat → FRes) : FRes :=
  if packed then
    let r0 := op 0
    let r1 := op 1
    ((r0.1 &&& 0xFFFF) ||| (r1.1 <<< 16), r0.2 ||| r1.2)
  else op 0

/-- Element `i` of a packed 16-bit value. -/
def half (v : W32) (i : Nat) : W32 := (v >>> (16 * i)) &&& 0xFFFF

/-- Packed float types. -/
def isPacked (ty : Nat) : Bool := ty == 4 || ty == 5

/-- FUNARY (R220). -/
def execFunary (f : WForm) (s : State) : Out :=
  alu (specW1 f 1 (some f.ty) 1) (fun _ e =>
    let a := (e.op 0).lo
    let r := perElem (isPacked f.ty) (fun i => (WForm.fmt f).unary f.var (if isPacked f.ty then half a i else a))
    { Res.one f.d.toNat r.1 f.ty with fpf := r.2 }) s

/-- FSPECIAL (R221). -/
def execFspecial (f : WForm) (s : State) : Out :=
  alu (specW1 f 1 (some 3) 1) (fun _ e =>
    let r := specialFn f.var (e.op 0).lo
    { Res.one f.d.toNat r.1 3 with fpf := r.2 }) s

/-- FCLASS (R222). -/
def execFclass (f : WForm) (s : State) : Out :=
  alu (specW1 f 1 (some f.ty) 1) (fun _ e =>
    Res.one f.d.toNat (BitVec.ofNat 32 (2 ^ (WForm.fmt f).classOf (e.op 0).lo)) 1) s

/-- A packed 16-bit instruction of two sources (R223). -/
def packedOp (f : WForm) (op : Fmt → W32 → W32 → FRes) (s : State) : Out :=
  alu (specW f f.ty) (fun _ e =>
    let r := perElem true (fun i => op (WForm.fmt f) (half (e.op 0).lo i) (half (e.op 1).lo i))
    { Res.one f.d.toNat r.1 f.ty with fpf := r.2 }) s

/-- HADD2 (R223). -/
def execHadd2 (f : WForm) (s : State) : Out := packedOp f (fun m a b => m.add f.rm a b) s
/-- HMUL2 (R223). -/
def execHmul2 (f : WForm) (s : State) : Out := packedOp f (fun m a b => m.mul f.rm a b) s
/-- HMIN2 (R223). -/
def execHmin2 (f : WForm) (s : State) : Out := packedOp f (fun m a b => m.minmax false a b) s
/-- HMAX2 (R223). -/
def execHmax2 (f : WForm) (s : State) : Out := packedOp f (fun m a b => m.minmax true a b) s

/-- HFMA2 (R224). -/
def execHfma2 (f : VForm) (s : State) : Out :=
  vOp f 4 4 4 (fun a b c => perElem true (fun i => f16.fma 0 (half a i) (half b i) (half c i))) s
/-- BFMA2 (R224). -/
def execBfma2 (f : VForm) (s : State) : Out :=
  vOp f 5 5 5 (fun a b c => perElem true (fun i => bf16.fma 0 (half a i) (half b i) (half c i))) s

/-- HDOT2 (R225). -/
def execHdot2 (f : VForm) (s : State) : Out := vOp f 4 3 3 (dot2 f16) s
/-- BDOT2 (R225). -/
def execBdot2 (f : VForm) (s : State) : Out := vOp f 5 3 3 (dot2 bf16) s

/-- The sum of byte products and `c` mod 2^32 (R225). -/
def idot (signed : Bool) (a b c : W32) : W32 :=
  c + BitVec.ofInt 32 ((List.range 4).foldl (fun acc k =>
    acc + asInt signed 8 (byteN a k) * asInt signed 8 (byteN b k)) 0)

/-- IDOT4 (R225). -/
def execIdot4 (f : VForm) (s : State) : Out := vOp f 7 0 0 (fun a b c => (idot true a b c, 0)) s
/-- IDOT4N (R225). -/
def execIdot4n (f : VForm) (s : State) : Out := vOp f 7 1 1 (fun a b c => (idot false a b c, 0)) s

end Sys2Proof.Machine
end

