-- ==== Sys2Proof/Machine/GroupOps.lean ====
section
/-! DEFINITION. Group operations: arrivals at barriers (R260, R261), collectives with their rank-order tree (R73, R74, R211 to
R213, R266 to R268), leaving a group, the end of a thread, register granules (R34 to R37). -/

namespace Sys2Proof.Machine
open Sys2Proof

/-- %tval of BARCOUNT (R339): the count offered, the barrier, the reason. -/
def barVal (n b why : Nat) : W64 := BitVec.ofNat 64 (2 ^ 63 + n % 65536 * 2 ^ 32 + b * 256 + why)

/-- The thread's instruction is the last of its block. -/
def Thread.lastWord (th : Thread) : Bool :=
  match th.blk with
  | some (a, h) => th.pc == a + 8 * BitVec.ofNat 64 (hdrLen h)
  | none => true

/-! ### The rank-order tree (R73, R74) -/

/-- A value in a tree with the flags and SATC of the steps that formed it. -/
structure TreeVal where
  v : W64
  fl : BitVec 4 := 0
  sat : Bool := false
  deriving DecidableEq, Repr

/-- One step of REDUCE and SCAN (R267). -/
def treeStep (op ty : Nat) (sat : Bool) (a b : TreeVal) : TreeVal :=
  let j (v : W64) (fl : BitVec 4) (s : Bool) : TreeVal := { v := v, fl := a.fl ||| b.fl ||| fl, sat := a.sat || b.sat || s }
  let x := elemVal (ty % 2 == 0) (elemW ty) a.v 0
  let y := elemVal (ty % 2 == 0) (elemW ty) b.v 0
  match op with
  | 0 =>
    if ty = 3 then
      let r := f32.add 0 (a.v.setWidth 32) (b.v.setWidth 32)
      j (r.1.setWidth 64) r.2 false
    else
      let (z, c) := if sat then clampInt (ty % 2 == 0) (elemW ty) (x + y) else (x + y, false)
      j (packElems ty [z]) 0 c
  | 1 =>
    if ty = 3 then
      let r := f32.minmax false (a.v.setWidth 32) (b.v.setWidth 32)
      j (r.1.setWidth 64) r.2 false
    else j (if x ≤ y then a.v else b.v) 0 false
  | 2 =>
    if ty = 3 then
      let r := f32.minmax true (a.v.setWidth 32) (b.v.setWidth 32)
      j (r.1.setWidth 64) r.2 false
    else j (if x ≤ y then b.v else a.v) 0 false
  | 3 => j (a.v &&& b.v) 0 false
  | 4 => j (a.v ||| b.v) 0 false
  | _ => j (a.v ^^^ b.v) 0 false

/-- The identity of an operation (R267). -/
def treeIdent (op ty : Nat) : W64 :=
  let w := elemW ty
  let sg := ty % 2 == 0
  match op with
  | 0 => if ty = 3 then 0x80000000 else 0
  | 1 => if ty = 3 then 0x7F800000 else packElems ty [intMax sg w]
  | 2 => if ty = 3 then 0xFF800000 else packElems ty [intMin sg w]
  | 3 => BitVec.ofNat 64 (2 ^ w - 1)
  | _ => 0

/-- One round of the tree: neighbours combine, the lower rank on the left. -/
def treeRound (f : TreeVal → TreeVal → TreeVal) : List TreeVal → List TreeVal
  | a :: b :: r => f a b :: treeRound f r
  | r => r

/-- Tree(a, m) of R73: rounds until one value is left; 12 rounds do for 2,048 members. -/
def tree (f : TreeVal → TreeVal → TreeVal) : Nat → List TreeVal → Option TreeVal
  | 0, xs => xs.head?
  | n + 1, xs => match xs with
    | [] => none
    | [x] => some x
    | _ => tree f n (treeRound f xs)

/-! ### Collectives (R211 to R213, R266 to R268) -/

/-- A member at completion: its rank, whether it contributes, its value. -/
structure Member where
  rank : Nat
  contrib : Bool
  val : W64
  deriving DecidableEq, Repr

/-- The mask of the contributors of one 64-rank window for which `p` holds. -/
def rankMask (ms : List Member) (q : Nat) (p : Member → Bool) : W64 :=
  BitVec.ofNat 64 (ms.foldl (fun acc m => if m.contrib && m.rank / 64 == q && p m then acc + 2 ^ (m.rank % 64) else acc) 0)

/-- The result of a completed collective for one member (R212, R213, R268). -/
def collResult (op : Nat) (fn : BitVec 10) (ms : List Member) (me : Member) : CollRes :=
  let var := (fn.extractLsb' 2 4).toNat
  let ty := (fn.extractLsb' 6 4).toNat
  let cs := ms.filter (·.contrib)
  let isTrue (m : Member) : Bool := m.val != 0
  if op = 0x35 then
    match var with
    | 0 => { val := if cs.any isTrue then 1 else 0 }
    | 1 => { val := if cs.all isTrue then 1 else 0 }
    | 2 => { val := rankMask ms (me.rank / 64) isTrue }
    | _ => { val := BitVec.ofNat 64 (cs.filter isTrue).length }
  else if op = 0x36 then
    match var with
    | 0 => { val := rankMask ms (me.rank / 64) (fun m => m.val == me.val) }
    | 1 => { val := BitVec.ofNat 64 (cs.filter (fun m => m.val == me.val)).length }
    | _ => { val := BitVec.ofNat 64 (((cs.filter (fun m => m.val == me.val)).map (·.rank)).foldl Nat.min me.rank) }
  else
    let o := (fn.extractLsb' 2 3).toNat
    let sat := fn.getLsbD 1
    let vals : List TreeVal := ms.map (fun m => { v := if m.contrib then m.val else treeIdent o ty })
    let n := if op = 0x80 then vals.length else if fn.getLsbD 5 then me.rank else me.rank + 1
    match tree (treeStep o ty sat) 12 (vals.take n) with
    | some r => { val := r.v, fpf := r.fl, satc := r.sat }
    | none => { val := treeIdent o ty }

/-- How a result is written: registers, or a predicate (R212, R213, R268). -/
def collWrite (op : Nat) (fn : BitVec 10) (d : Nat) (r : CollRes) : Res :=
  let var := (fn.extractLsb' 2 4).toNat
  let ty := (fn.extractLsb' 6 4).toNat
  if op = 0x35 then
    if var < 2 then { preds := [(d % 8, r.val != 0)] }
    else if var = 2 then Res.pair d r.val 2 else Res.one d (r.val.setWidth 32) 1
  else if op = 0x36 then
    if var = 0 then Res.pair d r.val 2 else Res.one d (r.val.setWidth 32) 1
  else
    { (if is64 ty then Res.pair d r.val ty else Res.one d (r.val.setWidth 32) ty) with fpf := r.fpf, satc := r.satc }

/-- A member takes its result: at once when it waits at the collective, else when it comes back to it (R343). -/
def Thread.takeColl (th : Thread) (op : Nat) (fn : BitVec 10) (r : CollRes) : Thread :=
  let th' := { th with arrC := false }
  match th.block with
  | some (.coll d) =>
    if th.arrN then { th'.next th.lastWord with arrN := false, collRes := none }
    else { (th'.apply (collWrite op fn d r)).next th.lastWord with collRes := none }
  | _ => { th' with collRes := some r }

/-- The open collective of a group completes when every current member has arrived (R25, R266). -/
def Core.checkColl (k : Core) (g : Nat) : Core :=
  let gr := k.group g
  match gr.coll with
  | none => k
  | some c =>
    if gr.members != [] && gr.members.all (fun m => (k.thread m).arrC) then
      let ms : List (Nat × Member) := gr.members.zipIdx.map (fun e =>
        (e.1, { rank := e.2, contrib := !(k.thread e.1).arrN, val := (k.thread e.1).tcval }))
      let k := k.setGroup g { gr with coll := none }
      ms.foldl (fun k e => k.updThread e.1 (fun th => th.takeColl c.op c.fn (collResult c.op c.fn (ms.map (·.2)) e.2))) k
    else k

/-! ### Barriers (R260, R261) -/

/-- Completion of barrier `b`'s generation when its arrivals reach the expected count. -/
def closeBar (w : W32) : W32 :=
  if bcntArr w = bcntExp w then mkBcnt (!bcntGen w) (bcntExp w) 0 else w

/-- Notes an arrival for the timeout (R264). -/
def Group.stamp (g : Group) (b clock : Nat) : Group := { g with last := Map.put g.last b clock }

/-- A barrier's generation has completed (R262): the threads that wait for it go on together, and the wait record of a thread that is in a
trap handler notes it (R265). The completion is an acquire (R98), at the core's count `n`. -/
def Thread.genDone (n g b : Nat) (gen : Bool) (th : Thread) : Thread :=
  match th.wrec with
  | some w =>
    if w.grp = g ∧ w.bar = b ∧ w.gen = gen ∧ w.past = false then
      match th.block with
      | some (.bar _ _) => { (th.next th.lastWord).acquired n with wrec := none }
      | _ => { th with wrec := some { w with past := true } }
    else th
  | none => th

/-- Wakes the waiters of a generation of a barrier. -/
def Core.wakeAll (k : Core) (g b : Nat) (gen : Bool) : Core :=
  { k with threads := k.threads.mapVal (fun _ th => if th.live then th.genDone k.seq g b gen else th) }

/-- Wakes the waiters of a generation of a barrier that has completed. -/
def Core.wakeBar (k : Core) (g b : Nat) (gen : Bool) : Core := if k.barGen g b = gen then k else k.wakeAll g b gen

/-- Arrive(b) of R260 for barriers 1 to 15; `n` is the explicit count. None is BARCOUNT: no arrival was made. -/
def Core.arrive (k : Core) (g b : Nat) (n : Option Nat) : Option Core :=
  let gr := k.group g
  let w := k.bcnt g b
  let bad := match n with
    | some x => x == 0 || decide (32767 < x) || (bcntArr w != 0 && x != bcntExp w)
    | none => false
  if bad then none
  else
    let e := if bcntArr w = 0 then n.getD gr.members.length else bcntExp w
    let w' := closeBar (mkBcnt (bcntGen w) e (bcntArr w + 1))
    some ((k.setGroup g { gr.stamp b k.clock with bcnt := Map.set 0 gr.bcnt b w' }).wakeBar g b (bcntGen w))

/-- An arrival at barrier 0 (R261). -/
def Core.arrive0 (k : Core) (g t : Nat) : Core :=
  let k := k.updThread t (fun th => { th with arr0 := true })
  ((k.setGroup g ((k.group g).stamp 0 k.clock)).check0 g).wakeBar g 0 (k.barGen g 0)

/-! ### Leaving a group and the end of a thread (R22, R23, R38, R240, R261) -/

/-- LEAVE's effect on the group: barrier 0 and the open collective are checked (R25, R261). -/
def Core.leaveGroup (k : Core) (t : Nat) : Core :=
  match (k.thread t).grp with
  | none => k
  | some g =>
    let k := k.updThread t (fun th => { th with grp := none, arr0 := false, arrC := false, arrN := false })
    let k := k.removeMember g t
    if (k.group g).members = [] then k else ((k.check0 g).wakeBar g 0 (k.barGen g 0)).checkColl g

/-- JOIN's effect (R23, R257): the id the thread was in stays when it names it again. -/
def Core.joinGroup (k : Core) (t g : Nat) : Core :=
  if (k.thread t).grp = some g then k else (k.leaveGroup t).addMember g t

/-- The granules of a phrase return when its last thread exits (R38). -/
def Core.freePhrase (k : Core) (p : Nat) : Core :=
  if k.threads.any (fun e => e.2.live && phraseOf e.1 == p && e.2.sub.isNone) then k
  else { k with phrases := Map.erase k.phrases p }

/-- A thread ends (R38): it leaves its group, and its context is free. -/
def Core.endThread (k : Core) (t : Nat) : Core :=
  let ex := (k.thread t).grp.map (fun g => (g, (k.group g).inc))
  let k := k.leaveGroup t
  let k := { k with threads := Map.put k.threads t ((k.thread t).ended .exited ex) }
  k.freePhrase (phraseOf t)

/-! ### Register granules (R34 to R37, R271, R272) -/

/-- Granules of a slot's pool in use. -/
def Core.granules (k : Core) (slot : Nat) : Nat :=
  (k.phrases.filter (fun e => e.1 % 4 == slot)).foldl (fun a e => a + e.2.xlev.toNat) 0

/-- The new registers of a phrase read 0 with tag b32 (R35). -/
def Thread.clearFrom (th : Thread) (r : Nat) : Thread :=
  { th with v := th.v.filter (fun e => decide (e.1 < r)), tags := th.tags.filter (fun e => decide (e.1 < r)) }

/-- Sets a phrase's level; registers above the lower of the two levels are lost (R35). -/
def Core.setLevel (k : Core) (p l : Nat) : Core :=
  let lo := min l (k.phrase p).xlev.toNat
  let k := { k with threads := k.threads.mapVal (fun t (th : Thread) =>
      if phraseOf t == p && th.live && th.sub.isNone then th.clearFrom (32 * (lo + 1)) else th) }
  { k with phrases := Map.put k.phrases p { k.phrase p with xlev := BitVec.ofNat 2 l } }

/-- A request still stands while a thread of its phrase waits for it. -/
def Core.rgetStands (k : Core) (r : RgetReq) : Bool :=
  k.threads.any (fun e => e.2.live && phraseOf e.1 == r.phrase && e.2.block == some (.rget r.k))

/-- A request is served: its threads go on, whatever becomes of the level before they issue again (R36, R272). -/
def Core.rgetGo (k : Core) (r : RgetReq) : Core :=
  { k with threads := k.threads.mapVal (fun t (th : Thread) =>
      if th.live && phraseOf t == r.phrase && th.block == some (.rget r.k) then th.next th.lastWord else th) }

/-- Serves blocked RGET requests of a slot in their order of issue (R36). -/
def Core.serveRget (k : Core) (slot : Nat) : List RgetReq → Core
  | [] => { k with rgetQ := Map.erase k.rgetQ slot }
  | r :: rs =>
    let cur := (k.phrase r.phrase).xlev.toNat
    if !k.rgetStands r then k.serveRget slot rs
    else if r.k ≤ cur then (k.rgetGo r).serveRget slot rs
    else if k.granules slot + (r.k - cur) ≤ 16 then ((k.setLevel r.phrase r.k).rgetGo r).serveRget slot rs
    else { k with rgetQ := Map.put k.rgetQ slot (r :: rs) }

def Core.serveSlot (k : Core) (slot : Nat) : Core := k.serveRget slot (Map.get [] k.rgetQ slot)

end Sys2Proof.Machine
end

