-- ==== Sys2Proof/Machine/Issue.lean ====
section
/-! DEFINITION. The parts of an issue cycle (R16 to R18, R21), instruction fetch and header checks (R168, R182, R335), and the
clocks. -/

namespace Sys2Proof.Machine

/-! ### Waits -/

/-- The registers of the phrase of thread `t` at level `k` or above have no result due (R272). -/
def Core.regsQuiet (k : Core) (keys : List (Nat × Nat)) : Bool := keys.all (fun e => !k.pending e.1 e.2)

/-- ITER of thread `t` need not stall (R121). -/
def Core.canPass (k : Core) (t : Nat) : Bool :=
  let r := match (k.thread t).sub with | some sb => some sb.rid | none => k.principalRec t
  match r with
  | none => true
  | some r =>
    let rc := k.rcd r
    (match (k.thread t).sub with | some sb => sb.mark.isSome | none => false) || decide (rc.count.toNat ≤ rc.next.toNat) ||
      (List.range 64).any (fun e => (k.win e).st == 3 && (k.win e).rid == r) ||
      (decide (rc.next.toNat < rc.oldest.toNat + 64) && (List.range 64).any (fun e => (k.win e).st == 0))

/-- No handed-out iteration of the recruitment of thread `t` runs (R123). -/
def Core.restDone (k : Core) (t : Nat) : Bool :=
  match k.principalRec t with
  | some r => k.window.all (fun e => !(e.2.st == 1 && e.2.rid == r))
  | none => true

/-- Room for a command with so many range entries (R83, R275). -/
def Core.room (k : Core) (cmds entries : Nat) : Bool := decide (k.cmds.length + cmds ≤ 32) && decide (k.ranges.length + entries ≤ 64)

/-- The ticket that an MWAIT waits for (R131): 0, and one not yet issued, stand for the last. -/
def Core.mwaitFor (k : Core) (t : W32) : W32 := if t = 0 ∨ 0 < (t - k.mticket).toInt then k.mticket else t
def ticketLe (a b : W32) : Bool := decide ((a - b).toInt ≤ 0)
/-- Every operation up to the ticket has ended, or stands stopped (R131, R290). -/
def Core.mwaitOver (k : Core) (t : W32) : Bool := !k.mq.any (fun o => ticketLe o.ticket (k.mwaitFor t) && !o.stopped)

/-- A line of the instruction cache is being fetched (R168). -/
def Core.fetching (k : Core) (line : Nat) : Bool := k.mops.any (fun m => m.kind == .ifetch && m.pasid * 2 ^ 56 + m.va / 256 == line)

/-- The condition that ends a wait holds (R16, and the rule that each wait names). A wait that an event of the table ends has none. -/
def State.waitOver (s : State) (c t : Nat) (w : Wait) : Bool :=
  let k := s.core c
  let th := k.thread t
  match w with
  | .fetch line => !k.fetching line
  | .fetchSet line => !k.fetching line
  | .regs keys => k.regsQuiet keys
  | .princ => !k.hasSubs t
  | .release => match th.relSet with | some r => r.empty | none => true
  | .bar _ _ => match th.wrec with | some w => w.past || k.barGen w.grp w.bar != w.gen | none => true
  | .bar0 _ => !th.arr0
  | .order id => !k.cmds.any (fun m => m.id == id)
  | .yield till => decide (till ≤ k.clock)
  | .rput regs => k.regsQuiet regs
  | .exitSubs => !k.hasSubs t
  | .mem _ all => all.all (fun a => !(s.core a.1).stalls a.2.1 a.2.2)
  | .promote => th.promo.all (fun o => !(s.core o).promoReq && (s.core o).promoLines == [])
  | .tb b => (k.tb b).complete
  | .iter => k.canPass t
  | .rjoin => !k.hasSubs t && k.restDone t
  | .copyQueue cmds entries => k.room cmds entries
  | .matQueue => decide (k.mq.length < 4)
  | .covQueue => decide (k.cov.queue.length < 4)
  | .mwait t => k.mwaitOver t
  | .rmap lo hi => !k.ranges.any (fun r => r.meets lo (hi - lo))
  | .wfi mask => decide (mask &&& k.evt.toNat ≠ 0)
  | .qunbind q => !(s.slot q).bound || (s.slot q).atBoundary ((s.slot q).unbinding.getD true)
  | .page va => match s.askedFor (pageUser none 0 va 0) with | some e => !e.open | none => true
  | .window _ _ => false
  | .coll _ => false
  | .disp _ => false
  | .rget _ => false
  | .sem _ => false
  | .sleep _ => false
  | .sleave _ => false

/-- The word at an address may be a header: it is one in form and check (R182, R183). -/
def Core.headerAt (k : Core) (pc : W64) : Bool :=
  decide (pc.toNat % 8 = 0) && match k.fetch pc with
    | some h => headerOk h != .bad
    | none => false

/-- Thread `t` is held (R21): at its top entry, at a block boundary. An entry that does not point at a header never holds (R183). -/
def Core.held (k : Core) (t : Nat) : Bool := (k.thread t).held && k.headerAt (k.thread t).pc

/-- Ready to issue (R16) but for the registers of its next instruction: live, on a core that runs, neither blocked nor held. -/
def State.ready (s : State) (c t : Nat) : Bool :=
  let k := s.core c
  let th := k.thread t
  th.live && !k.halted && !k.held t &&
    match th.block with
    | none => true
    | some w => s.waitOver c t w

/-! ### The hold stack (R21) -/

/-- The members of the group of thread `t` that hold the same top entry. -/
def Core.holders (k : Core) (t : Nat) : List Nat :=
  let e := (k.thread t).hold0
  match k.grpOf t with
  | some g => (k.group g).members.filter (fun m => (k.thread m).hold0 == e)
  | none => [t]

/-- A new arrival at an entry starts the count of its holders again. A held thread that no cycle has noted counts 0. -/
def Core.noteArrivals (k : Core) : Core :=
  let fresh := k.liveTids.filter (fun t => k.held t && (k.thread t).heldFor == 0)
  fresh.foldl (fun k t => ((k.holders t).filter k.held).foldl
    (fun k m => k.updThread m (fun th => { th with heldFor := 1 })) k) k

/-- First event of R21: every holder has arrived. -/
def Core.popArrived (k : Core) : Core :=
  let out := k.liveTids.filter (fun t => k.held t && (k.holders t).all k.held)
  out.foldl (fun k t => k.updThread t Thread.pop) k

/-- Second event of R21: 256 issue cycles of the phrase without an arrival. -/
def Core.holdDue (k : Core) (t : Nat) : Bool := (k.thread t).live && k.held t && decide (257 ≤ (k.thread t).heldFor)

/-! ### The choice of R17 and R18 -/

/-- The live threads of a phrase, by lane. -/
def Core.phraseTids (k : Core) (p : Nat) : List Nat := k.liveTids.filter (fun t => phraseOf t == p)

/-- The lowest PC of some threads. -/
def Core.lowPc (k : Core) (ts : List Nat) : Option W64 :=
  ts.foldl (fun m t =>
    let pc := (k.thread t).pc
    match m with
    | none => some pc
    | some x => if pc.toNat < x.toNat then some pc else m) none

/-- The PC that the segment guard forces (R18): of the lowest segment that has waited 16 issue cycles. -/
def Core.segGuard (k : Core) (p : Nat) (ready : List Nat) : Option W64 :=
  ((List.range (64 / k.segW)).find? (fun g =>
    decide (16 ≤ Map.get 0 (k.phrase p).segWait g) && ready.any (fun t => laneOf t / k.segW == g))).bind
    (fun g => k.lowPc (ready.filter (fun t => laneOf t / k.segW == g)))

/-- The PC that the thread-age guard forces (R18): of the thread that has waited longest, 64 issue cycles or more. -/
def Core.ageGuard (k : Core) (ready : List Nat) : Option W64 :=
  (ready.foldl (fun (m : Option Nat) t =>
    if (k.thread t).waitFor < 64 then m
    else match m with
      | none => some t
      | some x => if (k.thread x).waitFor < (k.thread t).waitFor then some t else m) none).map (fun t => (k.thread t).pc)

/-- The PCs of the two ports (R17, R18). -/
def Core.portPcs (k : Core) (p : Nat) (ready : List Nat) : List W64 :=
  match k.lowPc ready with
  | none => []
  | some p0 =>
    let second := k.lowPc (ready.filter (fun t => (k.thread t).pc != p0))
    let forced := (k.segGuard p ready).or (k.ageGuard ready)
    match forced with
    | some f => if f = p0 then p0 :: second.toList else [p0, f]
    | none => p0 :: second.toList

/-- The issues at one PC: threads of one PC that stand in different blocks are taken apart. -/
def splitByBlk (k : Core) (c p : Nat) (pc : W64) (ts : List Nat) : List Port :=
  let blks := ts.foldl (fun (l : List (Option (W64 × W64))) t =>
    if l.contains (k.thread t).blk then l else l ++ [(k.thread t).blk]) []
  blks.map (fun b => { core := c, phrase := p, pc := pc, set := ts.filter (fun t => (k.thread t).blk == b), blk := b })

/-- Counts of R18 and R21 for the phrase that was chosen, one more for each of its threads and for each segment that holds one; an issue then
resets those of its threads and segments (log 102). -/
def Core.countCycle (k : Core) (p : Nat) : Core :=
  let ts := k.phraseTids p
  let k := ts.foldl (fun k t => k.updThread t (fun th =>
    { th with heldFor := if k.held t then th.heldFor + 1 else th.heldFor, waitFor := th.waitFor + 1 })) k
  let segs := (List.range (64 / k.segW)).foldl (fun (m : Map Nat) g =>
    Map.set 0 m g (if ts.any (fun t => laneOf t / k.segW == g) then Map.get 0 m g + 1 else 0)) (k.phrase p).segWait
  { k with phrases := Map.put k.phrases p { k.phrase p with segWait := segs } }

/-- SLEEP is over: the thread goes on (R243). -/
def Core.wakeSleeper (k : Core) (t : Nat) : Core :=
  match (k.thread t).block with
  | some (.sleep till) => if till ≤ k.clock then k.updThread t (fun th => th.next th.lastWord) else k
  | _ => k

/-- YIELD's 32 cycles are over (R241). -/
def Core.wakeYield (k : Core) (t : Nat) : Core :=
  match (k.thread t).block with
  | some (.yield till) => if till ≤ k.clock then k.updThread t (fun th => { th with block := none }) else k
  | _ => k

/-- What is due before a slot chooses: sleepers, blocked RGETs, arrivals at hold entries (R21, R36, R241, R243). -/
def Core.beforeIssue (k : Core) (slot : Nat) : Core :=
  let k := k.liveTids.foldl (fun k t => (k.wakeSleeper t).wakeYield t) k
  (k.serveSlot slot).noteArrivals.popArrived

/-! ### Fetch (R168, R182) -/

/-- Threads wait for a line of the instruction cache; its fill is started once. -/
def State.waitFetch (s : State) (c : Nat) (ts : List Nat) (pc : W64) : State :=
  let key := lineKey (s.core c).fetchPasid pc
  let s := ts.foldl (fun s t => s.updThread c t (fun th => th.wait (.fetch key))) s
  s.updCore c (fun k =>
    if k.fetching key then k
    else { k with mops := k.mops ++ [{ id := k.nextId, kind := .ifetch, pasid := k.fetchPasid, va := pc.toNat / 256 * 256 }],
                  nextId := k.nextId + 1 })

/-- An issue that ends in a trap of its header or its word has been made (R18). -/
def State.issued (s : State) (c p : Nat) (ts : List Nat) : State :=
  s.updCore c (fun k => ts.foldl (fun k t => k.updThread t (fun th => { th with waitFor := 0 })) (k.noteIssue p ts))

/-- Reads the instruction of a port issue whose block is known. -/
def State.fetchWord (s : State) (p : Port) (hdr : W64 × W64) (ipc : W64) : State × Option Instr :=
  match (s.core p.core).fetch ipc with
  | none => (s.waitFetch p.core p.set ipc, none)
  | some w =>
    let cur : Port := { p with pc := ipc, blk := some hdr, word := w,
                               last := ipc == hdr.1 + 8 * BitVec.ofNat 64 (hdrLen hdr.2) }
    let s := { s with cur := cur }
    match decode w with
    | some i => (s, some i)
    | none => (p.set.foldl (fun s t => s.trap p.core t .illegal ipc w) (s.issued p.core p.phrase p.set), none)

/-- A trap vector's header must have TAG 0xFC and KIND 4 (R335). -/
def vectorOk (h : W64) : Bool := headerOk h == .ok && hdrTag h == 0xFC && hdrKind h == 4

/-- The front of a port issue: the threads still ready at its PC, the header at a block boundary (a PC that is no multiple of 8 names
none, which BADHDR answers), the word. The answer is the
instruction to execute, if there is one. -/
def State.front (s : State) (p : Port) : State × Option Instr :=
  let k := s.core p.core
  let set := p.set.filter (fun t => s.ready p.core t && (k.thread t).pc == p.pc && (k.thread t).blk == p.blk)
  if set = [] then (s, none)
  else
    match p.blk with
    | some h => s.fetchWord { p with set := set } h p.pc
    | none =>
      match if p.pc.toNat % 8 = 0 then k.fetch p.pc else some 0 with
      | none => (s.waitFetch p.core set p.pc, none)
      | some h =>
        let bad := if vectorOk h then [] else set.filter (fun t => (k.thread t).vec)
        let rest := set.filter (fun t => !bad.contains t)
        let s := bad.foldl (fun s t => s.badVector p.core t p.pc) (if bad = [] then s else s.issued p.core p.phrase bad)
        if rest = [] then (s, none)
        else match headerOk h with
          | .ok => s.fetchWord { p with set := rest } (p.pc, h) (p.pc + 8)
          | .bad => (rest.foldl (fun s t => s.trap p.core t .badhdr p.pc p.pc) (s.issued p.core p.phrase rest), none)
          | .reserved => (rest.foldl (fun s t => s.trap p.core t .illegal p.pc p.pc) (s.issued p.core p.phrase rest), none)

end Sys2Proof.Machine
end

