-- ==== Sys2Proof/Machine/Control.lean ====
section
/-! DEFINITION. Control: 0x01 to 0x0B (R235 to R244), with the divergence rule of R20. -/

namespace Sys2Proof.Machine
open Sys2Proof

/-- What a transfer does to one thread: goes on at a PC (with a new link), traps, or ends otherwise. -/
inductive Move where
  | to (pc : W64) (link : Option W64)
  | trap (c : Cause) (v : W64)
  | ended
  | blocked (w : Wait)
  deriving DecidableEq, Repr

/-- The reconvergence address of the block that ends in the transfer (R20); none for RECONV 0. -/
def Port.reconv (p : Port) : Option W64 :=
  match p.blk with
  | some (a, h) => if hdrReconv h = 0 then none else some (a + BitVec.ofInt 64 (8 * hdrReconv h))
  | none => none

/-- The threads of one group that go different ways each push the reconvergence address (R20, R235). -/
def diverges (k : Core) (dest : List (Nat × W64)) (t : Nat) : Bool :=
  match k.grpOf t with
  | none => false
  | some g =>
    let mine := dest.filter (fun e => k.grpOf e.1 == some g)
    mine.any (fun e => mine.any (fun x => x.2 != e.2))

/-- Completes a transfer: pushes, then every thread goes to its next PC (R20, R235). -/
def State.land (s : State) (dest : List (Nat × W64 × Option W64)) : State :=
  let c := s.cur.core
  let k := s.core c
  let pcs := dest.map (fun e => (e.1, e.2.1))
  dest.foldl (fun s e => s.updThread c e.1 (fun th =>
    let th := match s.cur.reconv with
      | some r => if diverges k pcs e.1 then th.push r else th
      | none => th
    let th := match e.2.2 with | some l => { th with lk := l } | none => th
    th.goto e.2.1)) s

/-- The judgement of a target header (R182, R183): none when it is right. -/
def targetTrap (h : W64) (target : W64) (tag : Option Nat) : Option (Cause × W64) :=
  match headerOk h with
  | .bad => some (.badhdr, target)
  | .reserved => some (.illegal, target)
  | .ok => match tag with
    | some t => if hdrTag h = t then none else some (.landtag, target)
    | none => none

/-- Where a transfer sends a thread: the target with the tag it must show and the link it writes, or a trap. -/
abbrev Aim := Except (Cause × W64) (W64 × Option Nat × Option W64)

/-- Threads that stand at the issuing transfer, inside its block: a fetch of its target that fails traps there (R183). -/
def State.stand (s : State) (ts : List Nat) : State :=
  ts.foldl (fun s' t => s'.updThread s.cur.core t (fun th => { th with pc := s.cur.pc, blk := s.cur.blk })) s

/-- A transfer with target headers. When a target's line is not in the instruction cache, the whole issue waits for it and issues
again (log 11); a fetch that fails traps the lanes that need the line, and no other (R185). -/
def transfer (o : OpSpec) (aim : Thread → Exec → Aim) (s : State) : Out :=
  let o := { o with endsBlock := true, keepIdle := true }
  let g := gather o s
  let c := s.cur.core
  let k := s.core c
  let aims := g.execs.map (fun e => (e.lead, aim (k.thread e.lead) e))
  let miss := aims.findSome? (fun a => match a.2 with
    | .ok (pc, _) => if pc.toNat % 8 = 0 ∧ (k.fetch pc).isNone then some pc else none
    | .error _ => none)
  match miss with
  | some pc =>
    let late := g.idle ++ aims.map (·.1)
    let key := lineKey k.fetchPasid pc
    let need := (aims.filter (fun a => match a.2 with
      | .ok (q, _) => q.toNat % 8 == 0 && lineKey k.fetchPasid q == key
      | .error _ => false)).map (·.1)
    let s := s.settle o { g with block := g.block ++ late.map (fun t => (t, Wait.fetchSet key)), idle := [], execs := [] }
    .next ((s.stand late).waitFetch c need pc)
  | none =>
    let fates : List (Nat × Move) := aims.map (fun a => match a.2 with
      | .error (cz, v) => (a.1, .trap cz v)
      | .ok (pc, tag, link) =>
        if pc.toNat % 8 ≠ 0 then (a.1, .trap .badhdr pc)
        else match targetTrap ((k.fetch pc).getD 0) pc tag with
          | some (cz, v) => (a.1, .trap cz v)
          | none => (a.1, .to pc link))
    let s := s.settle o g
    let dest := g.idle.map (fun t => (t, s.cur.pc + 8, none)) ++ fates.filterMap (fun f => match f.2 with
      | .to pc link => some (f.1, pc, link)
      | _ => none)
    let s := s.land dest
    .next (fates.foldl (fun s f => match f.2 with
      | .trap cz v => s.trap c f.1 cz s.cur.pc v
      | _ => s) s)

/-- The target of a direct transfer: this instruction + 8 × OFF (R236). -/
def CForm.target (f : CForm) (pc : W64) : W64 := pc + BitVec.ofInt 64 (8 * f.off.toInt)
/-- The address in x-pair A, unrouted (R238). -/
def CForm.spec (f : CForm) (useA : Bool) : OpSpec :=
  { h := f.h, srcs := if useA then [{ reg := f.a.toNat, n := 2, idx := 0 }] else [] }

/-- BRA (R236). -/
def execBra (f : CForm) (s : State) : Out :=
  transfer (CForm.spec f false) (fun _ _ => .ok (CForm.target f s.cur.pc, none, none)) s

/-- CALL (R237). -/
def execCall (f : CForm) (s : State) : Out :=
  transfer (CForm.spec f false) (fun _ _ => .ok (CForm.target f s.cur.pc, none, some (s.cur.pc + 8))) s

/-- JMPI (R238). -/
def execJmpi (f : CForm) (s : State) : Out :=
  transfer (CForm.spec f true) (fun _ e => .ok ((e.op 0).x, some f.tag.toNat, none)) s

/-- CALLI (R238). -/
def execCalli (f : CForm) (s : State) : Out :=
  transfer (CForm.spec f true) (fun _ e => .ok ((e.op 0).x, some f.tag.toNat, some (s.cur.pc + 8))) s

/-- RET (R239). -/
def execRet (f : CForm) (s : State) : Out :=
  transfer (CForm.spec f false) (fun th _ => if th.lk = 0 then .error (.retnull, 0) else .ok (th.lk, some 0xFE, none)) s

/-- A control instruction without a target: every thread falls through, and `eff` acts on the active ones. -/
def fallThrough (f : CForm) (eff : State → Nat → State) (s : State) : Out :=
  .next (runExecs { CForm.spec f false with endsBlock := true } (fun s e => eff s e.lead) s)

/-- A subordinate of record `r` that `which` takes and that carries no mark yet. -/
def Thread.toMark (r : Nat) (which : Sub → Bool) (th : Thread) : Bool :=
  match th.sub with
  | some sb => sb.rid == r && which sb && sb.mark.isNone
  | none => false

/-- Marks the subordinates of a record for release (R125); the record's release bit is set when one is marked (R128). -/
def Core.markSubs (k : Core) (r : Nat) (which : Sub → Bool) : Core :=
  { k with
    threads := k.threads.mapVal (fun _ (th : Thread) =>
      if th.toMark r which then { th with sub := th.sub.map (fun sb => { sb with mark := some k.clock }) } else th)
    recs := if k.threads.any (fun e => e.2.toMark r which) then Map.put k.recs r { k.rcd r with release := true } else k.recs }

/-- Discards a record and its window entries (R125). -/
def Core.freeRec (k : Core) (r : Nat) : Core :=
  { k with
    recs := Map.put k.recs r { k.rcd r with live := false }
    window := k.window.filter (fun e => e.2.rid != r) }

/-- EXIT of one thread (R126, R240). A subordinate's current iteration ends as done (log 108). -/
def State.exitThread (s : State) (t : Nat) : State :=
  let c := s.cur.core
  s.updCore c (fun k =>
    match (k.thread t).sub with
    | some sb => (k.endIter t false).endSub t sb
    | none =>
      match k.principalRec t with
      | some r =>
        let k := k.markSubs r (fun _ => true)
        if k.hasSubs t then k.updThread t (fun th => th.wait .exitSubs) else (k.freeRec r).endThread t
      | none => k.endThread t)

/-- EXIT (R240). -/
def execExit (f : CForm) (s : State) : Out := fallThrough f (fun s t => s.exitThread t) s

/-- YIELD (R241): the next header, not ready for 32 core cycles. -/
def execYield (f : CForm) (s : State) : Out :=
  fallThrough f (fun s t => s.updCore s.cur.core (fun k =>
    k.updThread t (fun th => (th.next true).wait (.yield (k.clock + 32))))) s

/-- HOLDX (R242). -/
def execHoldx (f : CForm) (s : State) : Out :=
  fallThrough f (fun s t => s.updThread s.cur.core t (fun th => (if th.hold0 = 0 then th else th.pop).next true)) s

/-- SLEEP (R243). -/
def execSleep (f : IForm) (s : State) : Out :=
  .next (runExecs { h := f.h } (fun s e => s.updCore s.cur.core (fun k => k.updThread e.lead (fun th =>
    if f.imm = 0 then th.next s.cur.last else th.wait (.sleep (k.clock + f.imm.toNat))))) s)

/-- TRAP (R244). -/
def execTrap (f : IForm) (s : State) : Out :=
  .next (runExecs { h := f.h } (fun s e => s.trap s.cur.core e.lead .soft s.cur.pc (f.imm.setWidth 64)) s)

/-- BRK (R244). -/
def execBrk (f : IForm) (s : State) : Out :=
  .next (runExecs { h := f.h } (fun s e => s.trap s.cur.core e.lead .brk s.cur.pc (f.imm.setWidth 64)) s)

/-! ### The events of waits (R21, R241, R243) -/

/-- SLEEP_EXPIRE (R243). -/
def execSleepExpire (core tid : Nat) (s : State) : Out := .next (s.updCore core (fun k => k.wakeSleeper tid))

/-- YIELD_EXPIRE (R241). -/
def execYieldExpire (core tid : Nat) (s : State) : Out := .next (s.updCore core (fun k => k.wakeYield tid))

/-- HOLD_TIMEOUT (R21): the entry pops. -/
def execHoldTimeout (core tid : Nat) (s : State) : Out :=
  .next (s.updCore core (fun k => if k.holdDue tid then k.updThread tid Thread.pop else k))

end Sys2Proof.Machine
end

