-- ==== Sys2Proof/Machine/Groups.lean ====
section
/-! DEFINITION. Groups, barriers, collectives, dispensers, register granules: VOTE, MATCH, 0x80 to 0x87, 0x8C to 0x8F but for
recruitment, and their events (R211 to R213, R257 to R272, R300). -/

namespace Sys2Proof.Machine
open Sys2Proof

/-! ### Collectives -/

/-- A control core completes a collective at once over its single thread (R184). -/
def soloResult (op : Nat) (fn : BitVec 10) (v : W64) : CollRes :=
  collResult op fn [{ rank := 0, contrib := true, val := v }] { rank := 0, contrib := true, val := v }

/-- A member arrives at a collective and waits for its completion; the registers `dsts` that its result goes to are due (R67, R68, R211). -/
def Thread.arrived (th : Thread) (d : Nat) (dsts : List Nat) (v : Option W64) : Thread :=
  { (th.wait (.coll d)).due (if v.isSome then dsts else []) with arrC := true, arrN := v.isNone, tcval := v.getD th.tcval }

/-- The arrival of one thread; `v` is none for a member whose guard is false (R211, R266). -/
def State.arriveColl (s : State) (op : Nat) (fn : BitVec 10) (d : Nat) (dsts : List Nat) (t : Nat) (v : Option W64) : State :=
  let c := s.cur.core
  let k := s.core c
  let th := k.thread t
  let go (f : Thread → Thread) : State :=
    s.updThread c t (fun th => { (f th).next s.cur.last with arrC := false, arrN := false, collRes := none })
  let fail (why : Nat) : State := match v with
    | some _ => s.trap c t .barcount s.cur.pc (barVal 0 0 why)
    | none => go id
  if th.sub.isSome then fail 4
  else if isCtl c then
    match v with
    | some x => go (fun th => th.apply (collWrite op fn d (soloResult op fn x)))
    | none => go id
  else match th.grp with
    | none => fail 1
    | some g =>
      match th.collRes with
      | some r => match v with
        | some _ => go (fun th => th.apply (collWrite op fn d r))
        | none => go id
      | none =>
        if th.arrC then s.updThread c t (fun th => (th.wait (.coll d)).due (if th.arrN then [] else dsts))
        else
          let gr := k.group g
          let key : Coll := { op := op, fn := fn }
          match gr.coll with
          | some x =>
            if x = key then
              s.updCore c (fun k => (k.updThread t (fun th => th.arrived d dsts v)).checkColl g)
            else s.trap c t .barcount s.cur.pc (barVal 0 0 3)
          | none =>
            s.updCore c (fun k => ((k.setGroup g { gr with coll := some key }).updThread t (fun th => th.arrived d dsts v)).checkColl g)

def insertTid (e : Nat × Option W64) : List (Nat × Option W64) → List (Nat × Option W64)
  | [] => [e]
  | x :: xs => if e.1 < x.1 then e :: x :: xs else x :: insertTid e xs

/-- A group collective: active and inactive threads arrive in lane order (R211, R266). -/
def collective (o : OpSpec) (op : Nat) (fn : BitVec 10) (d : BitVec 7) (val : Thread → Exec → W64) (s : State) : Out :=
  let o := { o with keepIdle := true }
  let g := gather o s
  let k := s.core s.cur.core
  let arr := g.idle.foldl (fun l t => insertTid (t, none) l) (g.execs.map (fun e => (e.lead, some (val (k.thread e.lead) e))))
  .next (arr.foldl (fun s e => s.arriveColl op fn d.toNat o.dstRegs e.1 e.2) (s.settle o g))

/-- The operands of VOTE: two variants write a predicate. -/
def voteSpec (f : WForm) : OpSpec :=
  let nd := match f.var with | 2 => 2 | 3 => 1 | _ => 0
  { h := f.h, dsts := if nd = 0 then [] else [dstD f.d nd] }
/-- The operands of MATCH, and of REDUCE and SCAN. -/
def matchSpec (f : WForm) : OpSpec := specW1 f (nregs f.ty) (chk f.ty) (if f.var = 0 then 2 else 1)
def reduceSpec (f : WForm) : OpSpec := specW1 f (nregs f.ty) (chk f.ty) (nregs f.ty)

/-- VOTE (R212). -/
def execVote (f : WForm) (s : State) : Out :=
  collective (voteSpec f) 0x35 f.fn f.d
    (fun th _ => if th.pred (f.a.toNat % 8) then 1 else 0) s

/-- MATCH (R213). -/
def execMatchG (f : WForm) (s : State) : Out :=
  collective (matchSpec f) 0x36 f.fn f.d (fun _ e => (e.op 0).ofTy f.ty) s

/-- REDUCE (R267, R268). -/
def execReduce (f : WForm) (s : State) : Out :=
  collective (reduceSpec f) 0x80 f.fn f.d (fun _ e => (e.op 0).ofTy f.ty) s

/-- SCAN (R267, R268). -/
def execScan (f : WForm) (s : State) : Out :=
  collective (reduceSpec f) 0x81 f.fn f.d (fun _ e => (e.op 0).ofTy f.ty) s

/-! ### JOIN and LEAVE (R257, R258) -/

/-- The id of the group a thread was in. -/
def oldGrp (th : Thread) : W32 := match th.grp with | some g => BitVec.ofNat 32 g | none => 0xFFFFFFFF

/-- The operands of JOIN and of LEAVE. -/
def joinSpec (f : IForm) : OpSpec := { specI f none with avail := .core, noSub := true }
def leaveSpec (f : IForm) : OpSpec := { h := f.h, avail := .core, noSub := true, dsts := [dstD f.d 1] }

/-- JOIN (R257). -/
def execJoin (f : IForm) (s : State) : Out :=
  .next (runExecs (joinSpec f) (fun s e =>
    let c := s.cur.core
    let id := (e.op 0).lo.toNat + f.imm.toNat % 256
    let old := oldGrp ((s.core c).thread e.lead)
    if 255 < id then e.targets.foldl (fun s t => s.trap c t .barcount s.cur.pc (BitVec.ofNat 64 id)) s
    else e.targets.foldl (fun s t =>
      let s := s.updCore c (fun k => (k.joinGroup t id).updThread t Thread.clearHold)
      s.finish t (Res.one f.d.toNat old 1)) s) s)

/-- LEAVE (R258). -/
def execLeave (f : IForm) (s : State) : Out :=
  .next (runExecs (leaveSpec f) (fun s e =>
    let c := s.cur.core
    let old := oldGrp ((s.core c).thread e.lead)
    e.targets.foldl (fun s t =>
      let s := s.updCore c (fun k => (k.leaveGroup t).updThread t Thread.clearHold)
      s.finish t (Res.one f.d.toNat old 1)) s) s)

/-! ### Barriers (R259 to R265) -/

/-- The barrier waits over for thread `t`: its record goes, though not one of an instruction that a trap has interrupted (R265), and it moves
on. A completed wait is an acquire (R98, R262). -/
def State.passBar (s : State) (t : Nat) (waits : Bool) : State :=
  s.updCore s.cur.core (fun k => k.updThread t (fun th =>
    let th : Thread := { th.next s.cur.last with wrec := (th.next s.cur.last).wrec.filter (fun w => w.pc != s.cur.pc) }
    if waits then th.acquired k.seq else th))

/-- A release of thread `t` at a narrow scope may be made: it follows the thread's global atomics (R94). -/
def State.narrowRelease (s : State) (t : Nat) : State × Bool :=
  if (s.core s.cur.core).ownAtoms t = [] then (s, true) else s.releaseReady s.cur.core [t] (wide := false)

/-- One thread at BARA, BARS or BARW: whether it arrives, whether it waits (R260 to R263, R265). While it waits it keeps its operands `ops`
(R37). A record of its own that it makes in a trap handler takes the place of the interrupted instruction's (log 131). -/
def State.barrier (s : State) (t b : Nat) (ops : List Opnd) (n : Option Nat) (arrives waits : Bool) : State :=
  let c := s.cur.core
  let k := s.core c
  let th := k.thread t
  if th.sub.isSome then s.trap c t .barcount s.cur.pc (barVal (n.getD 0) b 4)
  else match th.grp with
    | none => s.trap c t .barcount s.cur.pc (barVal (n.getD 0) b 1)
    | some g =>
      let mine := th.wrec.filter (fun w => waits && w.bar == b && w.grp == g && w.pc == s.cur.pc)
      match mine with
      | some w =>
        if w.past || k.barGen g b != w.gen then s.passBar t true else s.updThread c t (fun th => th.stall ops [] (.bar b k.clock))
      | none =>
        if arrives && b == 0 && th.arr0 then s.updThread c t (fun th => th.stall ops [] (.bar0 k.clock))
        else
          let (s, free) := if arrives then s.narrowRelease t else (s, true)
          if !free then s.updThread c t (fun th => th.stall ops [] .release)
          else
            let k := s.core c
            let gen := k.barGen g b
            let k' := if !arrives then some k else if b = 0 then some (k.arrive0 g t) else k.arrive g b n
            match k' with
            | none => s.trap c t .barcount s.cur.pc (barVal (n.getD 0) b 2)
            | some k' =>
              let s := s.updCore c (fun _ => k')
              if !waits || k'.barGen g b != gen then s.passBar t waits
              else s.updThread c t (fun th =>
                { th.stall ops [] (.bar b k.clock) with wrec := some { bar := b, grp := g, gen := gen, pc := s.cur.pc } })

/-- The operands of BARA and BARS: the count register. -/
def barSpec (f : IForm) : OpSpec := { h := f.h, avail := .core, srcs := [f.srcA none] }
def barNum (f : IForm) : Nat := f.imm.toNat % 16
/-- The count an arrival offers; none when A names v0 (R260). -/
def barCount (f : IForm) (e : Exec) : Option Nat := if f.a = 0 then none else some (e.op 0).lo.toNat

/-- BARA (R260). -/
def execBara (f : IForm) (s : State) : Out :=
  .next (runExecs (barSpec f) (fun s e => s.barrier e.lead (barNum f) e.ops (barCount f e) true false) s)

/-- BARS (R262). -/
def execBars (f : IForm) (s : State) : Out :=
  .next (runExecs (barSpec f) (fun s e => s.barrier e.lead (barNum f) e.ops (barCount f e) true true) s)

/-- BARW (R262). -/
def execBarw (f : IForm) (s : State) : Out :=
  .next (runExecs { h := f.h, avail := .core } (fun s e => s.barrier e.lead (barNum f) e.ops none false true) s)

/-- %tval of BARTIMEOUT (R264). -/
def timeoutVal (k : Core) (g b : Nat) : W64 := BitVec.ofNat 64 ((k.bcnt g b).toNat * 2 ^ 32 + b)

/-- BARTIMEOUT (R264): 2^24 core cycles without an arrival. -/
def execBartimeout (core tid : Nat) (s : State) : Out :=
  let k := s.core core
  let th := k.thread tid
  let on := match k.inst with | some i => i.barto | none => false
  let due (g b since : Nat) : Bool := decide (max since (Map.get 0 (k.group g).last b) + 2 ^ 24 ≤ k.clock)
  match th.live && on, th.grp, th.block with
  | true, some g, some (.bar b since) =>
    .next (if due g b since && !s.waitOver core tid (.bar b since) then s.trap core tid .bartimeout th.pc (timeoutVal k g b) else s)
  | true, some g, some (.bar0 since) =>
    .next (if due g 0 since && th.arr0 then s.trap core tid .bartimeout th.pc (timeoutVal k g 0) else s)
  | _, _, _ => .next s

/-! ### Dispensers (R30 to R33, R269, R270) -/

/-- The next index of a dispenser (R31 to R33): an index, exhaustion, or a wait for a chunk. -/
inductive Hand where
  | index (i : Nat) | gone | wait
  deriving DecidableEq, Repr

def Inst.hand (i : Inst) (n : Nat) : Hand × Inst :=
  let d := Map.get ({} : Disp) i.disp n
  let total := d.x.toNat * d.y.toNat
  if i.det then
    let x := i.lcore.toNat + d.k.toNat * i.ncore.toNat
    if x < total ∧ d.dry = false then
      (.index x, { i with disp := Map.put i.disp n { d with k := d.k + 1, dry := decide (2 ^ 32 ≤ d.k.toNat + 1) } })
    else (.gone, i)
  else if d.next ≠ d.fin then (.index d.next.toNat, { i with disp := Map.put i.disp n { d with next := d.next + 1 } })
  else if d.dry || total == 0 then (.gone, i)
  else (.wait, { i with disp := Map.put i.disp n { d with claiming := true } })

/-- What DISPENSE writes (R30, R33). -/
def Hand.result (h : Hand) (x : W32) (d p : Nat) : Res :=
  match h with
  | .index i => { Res.pair d (BitVec.ofNat 32 (i / x.toNat) ++ BitVec.ofNat 32 (i % x.toNat)) 1 with preds := [(p, true)] }
  | _ => { Res.pair d 0xFFFFFFFFFFFFFFFF 1 with preds := [(p, false)] }

/-- A DISPENSE goes to the end of the queue of its dispenser; the oldest one leaves it (R31). -/
def Inst.queueReq (i : Inst) (n : Nat) (r : DispReq) : Inst :=
  let d := Map.get ({} : Disp) i.disp n
  { i with disp := Map.put i.disp n { d with queue := d.queue ++ [r] } }
def Inst.dropReq (i : Inst) (n : Nat) : Inst :=
  let d := Map.get ({} : Disp) i.disp n
  { i with disp := Map.put i.disp n { d with queue := d.queue.drop 1 } }

/-- The operands of DISPENSE. -/
def dispSpec (f : WForm) : OpSpec := { h := f.h, avail := .core, noSub := true, dsts := [dstD f.d 2] }

/-- DISPENSE (R269). It waits behind those that wait already (R31). -/
def execDispense (f : WForm) (s : State) : Out :=
  let n := f.var
  let p := f.a.toNat % 8
  .next (runExecs (dispSpec f) (fun s e =>
    let c := s.cur.core
    let inst : Inst := (s.core c).inst.getD {}
    let d := Map.get ({} : Disp) inst.disp n
    let (h, inst') := if d.queue = [] then inst.hand n else (.wait, inst)
    let s := s.updCore c (fun k => { k with inst := k.inst.map (fun _ => inst') })
    match h with
    | .wait =>
      let s := s.updCore c (fun k => { k with inst := k.inst.map (fun i => i.queueReq n { targets := e.targets, d := f.d.toNat, p := p }) })
      e.targets.foldl (fun s t => s.updThread c t (fun th => th.stall e.ops (dispSpec f).dstRegs (.disp n))) s
    | h => s.finishAll e (h.result d.x f.d.toNat p)) s)

/-- The waiting DISPENSEs take their indices in order of issue, as far as indices go (R31, R270). -/
def State.serveDisp (c n : Nat) : List DispReq → State → State
  | [], s => s
  | r :: rs, s =>
    let inst : Inst := (s.core c).inst.getD {}
    let (h, inst') := inst.hand n
    let s := s.updCore c (fun k => { k with inst := k.inst.map (fun _ => inst') })
    match h with
    | .wait => s
    | h =>
      let s := s.updCore c (fun k => { k with inst := k.inst.map (fun i => i.dropReq n) })
      let res := h.result (Map.get ({} : Disp) inst.disp n).x r.d r.p
      State.serveDisp c n rs (r.targets.foldl (fun s t => s.updThread c t (fun th => (th.apply res).next th.lastWord)) s)

/-- DISPENSER_CLAIM (R31): the core claims the next chunk of the launch's counter, for the DISPENSEs that wait; none is made while its state
is saved (R270). Indices and the end of a
chunk are kept modulo 2^32, the greatest X × Y of R321 (log 101). -/
def execDispenserClaim (core disp : Nat) (s : State) : Out :=
  match (s.core core).inst with
  | none => .next s
  | some i =>
    let d := Map.get ({} : Disp) i.disp disp
    if !d.claiming || (s.core core).saving then .next s
    else
      let total := d.x.toNat * d.y.toNat
      let ctr := match (s.slot i.slot).launch with | some l => l.disp.getD disp 0 | none => total
      let d' : Disp := if total ≤ ctr then { d with claiming := false, dry := true }
        else { d with claiming := false, next := BitVec.ofNat 32 ctr, fin := BitVec.ofNat 32 (min total (ctr + d.chunk.toNat)) }
      let s := s.updCore core (fun k => { k with inst := some { i with disp := Map.put i.disp disp d' } })
      .next (State.serveDisp core disp d'.queue <| s.updSlot i.slot (fun q => { q with launch := q.launch.map (fun l =>
        { l with disp := l.disp.set disp (ctr + d.chunk.toNat) }) }))

/-! ### Register granules (R35, R36, R271, R272) -/

def granSpec (f : IForm) : OpSpec := { h := f.h, avail := .core, noSub := true }

/-- RGET (R35, R36). -/
def execRget (f : IForm) (s : State) : Out :=
  let o := granSpec f
  let g := gather o s
  let s := s.settle o g
  let ts := g.execs.flatMap (·.targets)
  if ts = [] then .next s
  else
    let c := s.cur.core
    let l := f.imm.toNat % 4
    let p := s.cur.phrase
    let k := (s.core c).serveSlot (p % 4)
    let cur := (k.phrase p).xlev.toNat
    let done (k : Core) : Core := ts.foldl (fun k t => k.updThread t (fun th => th.next s.cur.last)) k
    .next (s.updCore c (fun _ =>
      if l ≤ cur then done k
      else if Map.get [] k.rgetQ (p % 4) = [] ∧ k.granules (p % 4) + (l - cur) ≤ 16 then done (k.setLevel p l)
      else
        let k := ts.foldl (fun k t => k.updThread t (fun th => th.wait (.rget l))) k
        { k with rgetQ := Map.put k.rgetQ (p % 4) (Map.get [] k.rgetQ (p % 4) ++ [{ phrase := p, k := l }]) }))

/-- The results still due to registers above level `l` of a phrase (R272). -/
def Core.dueAbove (k : Core) (p l : Nat) : List (Nat × Nat) :=
  k.threads.flatMap (fun e => if e.2.live && phraseOf e.1 == p && e.2.sub.isNone then
    (e.2.pend.filter (fun x => decide (32 * (l + 1) ≤ x.reg) && x.err.isNone)).map (fun x => (e.1, x.reg)) else [])

/-- RPUT (R35, R272). -/
def execRput (f : IForm) (s : State) : Out :=
  let o := granSpec f
  let g := gather o s
  let s := s.settle o g
  let ts := g.execs.flatMap (·.targets)
  if ts = [] then .next s
  else
    let c := s.cur.core
    let l := f.imm.toNat % 4
    let p := s.cur.phrase
    let k := s.core c
    let due := k.dueAbove p l
    .next (s.updCore c (fun k =>
      if l < (k.phrase p).xlev.toNat ∧ due ≠ [] then ts.foldl (fun k t => k.updThread t (fun th => th.wait (.rput due))) k
      else
        let k := if l < (k.phrase p).xlev.toNat then (k.setLevel p l).serveSlot (p % 4) else k
        ts.foldl (fun k t => k.updThread t (fun th => th.next s.cur.last)) k))

end Sys2Proof.Machine
end

