-- ==== Sys2Proof/Machine/Recruit.lean ====
section
/-! DEFINITION. Recruitment: RECRUIT, ITER, CONTRIB, RJOIN, LEND, RECLAIM and the forced release (R114 to R129, R296 to R300). -/

namespace Sys2Proof.Machine
open Sys2Proof

/-! ### Eligible contexts (R115) -/

/-- Whether a context may be lent to principal `p`, and by which LEND flag alone: the group's incarnation number. -/
def Core.eligible (k : Core) (p t : Nat) : Option (Option Nat) :=
  let th := k.thread t
  match th.st with
  | .live => none
  | .never => some none
  | .exited =>
    match th.exitGrp with
    | none => some none
    | some (g, inc) =>
      let gr := k.group g
      if gr.members = [] ∨ gr.inc ≠ inc then some none
      else if (k.thread p).grp = some g then some none
      else if gr.lend then some (some inc)
      else none

/-- The contexts of the principal's slot in (context, lane) order. -/
def slotContexts (p : Nat) : List Nat :=
  (List.range 512).map (fun i => i / 64 * 256 + slotOf p * 64 + i % 64)

/-- The contexts that can be granted to `p`, in order; a control core has none to lend (R184). -/
def Core.eligibles (k : Core) (ctl : Bool) (p : Nat) : List (Nat × Option Nat) :=
  if ctl then [] else (slotContexts p).filterMap (fun t => (k.eligible p t).map (fun l => (t, l)))

/-- Makes a context a subordinate (R117); its first instruction is an acquire (R112). -/
def Core.startSub (k : Core) (rid num : Nat) (entry : W64) (e : Nat × Option Nat) : Core :=
  let old := k.thread e.1
  let th : Thread :=
    { st := .live, exitGrp := old.exitGrp, pc := entry, acqAt := k.seq,
      sub := some { rid := rid, num := num, lend := e.2, entry := entry, prev := old.st } }
  { k with threads := Map.put k.threads e.1 th }

/-- What RECRUIT decides (R116): the cause, A's value, the record to open and the contexts to grant. -/
structure Grant where
  cause : Nat
  a : W32
  rid : Option Nat := none
  subs : List (Nat × Option Nat) := []
  deriving DecidableEq, Repr

def Core.decideGrant (k : Core) (ctl : Bool) (t req n : Nat) : Grant :=
  let want := min (min req 63) (n - 1)
  if (k.thread t).sub.isSome || (k.principalRec t).isSome then { cause := 3, a := 0 }
  else match (List.range 8).find? (fun r => !(k.rcd r).live) with
    | none => { cause := 4, a := 0xFFFFFFFF }
    | some r =>
      if (match k.inst with | some i => i.norec | none => false) then { cause := 2, a := 0, rid := some r }
      else
        let el := k.eligibles ctl t
        if el.length < want then { cause := 1, a := BitVec.ofNat 32 el.length, rid := some r, subs := el }
        else { cause := 0, a := BitVec.ofNat 32 want, rid := some r, subs := el.take want }

/-- The fold code, FN[48:46]. -/
def EForm.fold (f : EForm) : Nat := f.fn.toNat % 8

/-- Results still due to v1 to v31 of a thread, but that of the RECRUIT which waits itself (R114). -/
def Core.lowDue (k : Core) (t : Nat) : List (Nat × Nat) :=
  ((k.thread t).pend.filter (fun x => decide (1 ≤ x.reg ∧ x.reg ≤ 31) && x.err.isNone && x.src != .stall)).map (fun x => (t, x.reg))

/-- RECRUIT has issued and waits: its operands are kept, and A is due (R37, R67). -/
def Thread.stallRecruit (th : Thread) (f : EForm) (e : Exec) (w : Wait) : Thread := th.stall e.ops [f.a.toNat] w

/-- RECRUIT for one thread (R114 to R117). -/
def State.recruitOne (s : State) (f : EForm) (e : Exec) : State :=
  let c := s.cur.core
  let t := e.lead
  let k := s.core c
  let entry := s.cur.pc + BitVec.ofInt 64 (8 * f.x.toInt)
  let (s, free) := s.narrowRelease t
  if k.lowDue t ≠ [] then s.updThread c t (fun th => th.stallRecruit f e (.regs (k.lowDue t)))
  else if !free then s.updThread c t (fun th => th.stallRecruit f e .release)
  else match k.fetch entry with
    | none => (s.updThread c t (fun th => th.stallRecruit f e .release)).waitFetch c [t] entry
    | some h =>
      if headerOk h ≠ .ok then s.trap c t .badhdr s.cur.pc entry
      else if hdrTag h ≠ 0xFD then s.trap c t .landtag s.cur.pc entry
      else
        let g := k.decideGrant (isCtl c) t (e.op 0).lo.toNat (e.op 1).lo.toNat
        let k := (s.core c).relMark
        let k : Core := match g.rid with
          | some r =>
            let rc : RecRec :=
              { tid := t, reissue := f.sig, live := true, op := EForm.fold f, creg := f.c.toNat, count := (e.op 1).lo,
                acc := (e.op 2).lo }
            let k := { k with recs := Map.put k.recs r rc }
            g.subs.zipIdx.foldl (fun (k : Core) x => k.startSub r (x.2 + 1) entry x.1) k
          | none => k
        let granted : W32 := if g.cause = 3 ∨ g.cause = 4 then 0 else g.a
        let s := s.updCore c (fun _ => k.updThread t (fun th => { th with rgrant := granted, rcause := BitVec.ofNat 32 g.cause }))
        s.finish t (Res.one f.a.toNat g.a 1)

/-- The operands of RECRUIT: A is a source and the destination. -/
def recruitSpec (f : EForm) : OpSpec :=
  { h := f.h, srcs := [{ reg := f.a.toNat, idx := 0 }, { reg := f.b.toNat, idx := 1 }, { reg := f.c.toNat, idx := 2 }],
    dsts := [{ reg := f.a.toNat, idx := 0 }] }

/-- RECRUIT (R296). -/
def execRecruit (f : EForm) (s : State) : Out :=
  .next (runExecs (recruitSpec f) (fun s e => s.recruitOne f e) s)

/-! ### ITER, CONTRIB, RJOIN (R121 to R124) -/

/-- The record that a thread takes part in. -/
def Core.myRec (k : Core) (t : Nat) : Option Nat :=
  match (k.thread t).sub with
  | some sb => some sb.rid
  | none => k.principalRec t

/-- The entry that waits for reissue with the lowest index. -/
def Core.reissueEntry (k : Core) (r : Nat) : Option Nat :=
  ((List.range 64).filter (fun e => (k.win e).st == 3 && (k.win e).rid == r)).foldl (fun m e =>
    match m with
    | none => some e
    | some x => if (k.win e).off < (k.win x).off then some e else some x) none

def Core.freeEntry (k : Core) : Option Nat := (List.range 64).find? (fun e => (k.win e).st == 0)

/-- What ITER would hand out (R121). -/
inductive Pass where
  | again (e : Nat) | fresh (e : Nat) | out | stall
  deriving DecidableEq, Repr

def Core.nextPass (k : Core) (t r : Nat) : Pass :=
  let rc := k.rcd r
  let marked := match (k.thread t).sub with | some sb => sb.mark.isSome | none => false
  if marked then .out
  else match k.reissueEntry r with
    | some e => .again e
    | none =>
      if rc.count.toNat ≤ rc.next.toNat then .out
      else if rc.oldest.toNat + 64 ≤ rc.next.toNat then .stall
      else match k.freeEntry with
        | some e => .fresh e
        | none => .stall

/-- The index of an entry. -/
def Core.entryIndex (k : Core) (r e : Nat) : W32 := (k.rcd r).oldest + BitVec.ofNat 32 (k.win e).off

/-- A marked subordinate has executed ITER: it is not killed any more (R126). -/
def Thread.noteIter (th : Thread) : Thread := { th with sub := th.sub.map (fun sb => { sb with iterated := sb.mark.isSome }) }

/-- ITER for one thread (R121, R125). A subordinate's is a release, which follows its global atomics (R94, R112). While it waits, D is due
(R67). -/
def State.iterOne (s : State) (f : WForm) (t : Nat) : State :=
  let c := s.cur.core
  let p := f.a.toNat % 8
  match (s.core c).myRec t with
  | none => s.trap c t .illegal s.cur.pc s.cur.word
  | some r =>
    let (s, free) := if ((s.core c).thread t).sub.isSome then s.narrowRelease t else (s, true)
    let k := (s.core c).endIter t false
    let hand (k : Core) (e : Nat) : State :=
      let k := k.updThread t (fun th => { th with iter := some e })
      (s.updCore c (fun _ => k)).finish t { Res.one f.d.toNat (k.entryIndex r e) 0 with preds := [(p, true)] }
    if !free then s.updThread c t (fun th => th.stall [] [f.d.toNat] .release)
    else match k.nextPass t r with
    | .again e =>
      hand { k with window := Map.put k.window e { k.win e with st := 1, val := false, value := 0 } } e
    | .fresh e =>
      let rc := k.rcd r
      hand { k with window := Map.put k.window e { rid := r, st := 1, off := (rc.next - rc.oldest).toNat },
                    recs := Map.put k.recs r { rc with next := rc.next + 1 } } e
    | .stall => s.updCore c (fun _ => k.updThread t (fun th => th.stall [] [f.d.toNat] .iter))
    | .out =>
      let k := if (k.thread t).sub.isSome then k.relMark.updThread t Thread.noteIter else k
      (s.updCore c (fun _ => k)).finish t { Res.one f.d.toNat 0xFFFFFFFF 0 with preds := [(p, false)] }

/-- The operands of ITER. -/
def iterSpec (f : WForm) : OpSpec := { h := f.h, dsts := [dstD f.d 1] }

/-- ITER (R297). -/
def execIter (f : WForm) (s : State) : Out :=
  .next (runExecs (iterSpec f) (fun s e => s.iterOne f e.lead) s)

/-- The type of a fold code (R122): f32 for 1, 3, 4; i32 for 2, 5, 6. -/
def foldTy (op : Nat) : Nat := if op = 1 ∨ op = 3 ∨ op = 4 then 3 else 0

/-- CONTRIB for one thread (R122). -/
def State.contribOne (s : State) (f : WForm) (e : Exec) : State :=
  let c := s.cur.core
  let k := s.core c
  let t := e.lead
  match k.myRec t, (k.thread t).iter with
  | some r, some w =>
    let op := (k.rcd r).op
    if op = 0 then s.trap c t .illegal s.cur.pc s.cur.word
    else match fmtTrap k.tagchk [f.srcA 1 (some (foldTy op))] e.ops with
      | some v => s.trap c t .fmt s.cur.pc v
      | none => (s.updCore c (fun k =>
          { k with window := Map.put k.window w { k.win w with val := true, value := (e.op 0).lo } })).finish t {}
  | _, _ => s.trap c t .illegal s.cur.pc s.cur.word

/-- The operands of CONTRIB. -/
def contribSpec (f : WForm) : OpSpec := { h := f.h, edge := f.edge.toNat, srcs := [f.srcA 1 none] }

/-- CONTRIB (R298). -/
def execContrib (f : WForm) (s : State) : Out :=
  .next (runExecs (contribSpec f) (fun s e => s.contribOne f e) s)

/-- No handed-out iteration of a record runs (R123). -/
def Core.noneRuns (k : Core) (r : Nat) : Bool := k.window.all (fun e => !(e.2.st == 1 && e.2.rid == r))

/-- The done entries of a record in ascending order of index. -/
def Core.doneEntries (k : Core) (r : Nat) : List WinEnt :=
  (List.range 64).filterMap (fun off => (k.winAt r off).bind (fun e => if (k.win e).st = 2 then some (k.win e) else none))

/-- %tval of HELPER (R124). -/
def helperVal (rc : RecRec) : W64 := BitVec.ofNat 64 (rc.failk.toNat * 2 ^ 32 + rc.failoff * 2 ^ 16 + rc.fcause)

/-- Taking HELPER clears the failure record (R124). -/
def RecRec.clearFailure (rc : RecRec) : RecRec := { rc with failed := false, fcause := 0, failoff := 0, failk := 0 }

/-- RJOIN for one thread (R123, R124). It is an acquire (R112). A register C above a level lowered since RECRUIT receives nothing (log 104);
where D names C too, the count stands in it (log 105). It has issued when it waits for its subordinates (R37), but D is written once they have
ended, and is no result due to them meanwhile (R123). -/
def State.rjoinOne (s : State) (f : IForm) (t : Nat) : State :=
  let c := s.cur.core
  match (s.core c).principalRec t with
  | none => s.trap c t .illegal s.cur.pc s.cur.word
  | some r =>
    let k := (s.core c).endIter t false
    let s := s.updCore c (fun _ => k)
    let rc := k.rcd r
    if k.hasSubs t || !k.noneRuns r then s.updThread c t (fun th => th.stall [] [] .rjoin)
    else if rc.failed then
      (s.updCore c (fun k => { k with recs := Map.put k.recs r rc.clearFailure })).trap c t .helper s.cur.pc (helperVal rc)
    else if rc.op != 0 && k.pending t rc.creg then s.updThread c t (fun th => th.stall [] [] (.regs [(t, rc.creg)]))
    else
      let (acc, fl) := (k.doneEntries r).foldl (fun (a : W32 × BitVec 4) w =>
        if w.val then (let x := foldStep rc.op a.1 w.value; (x.1, a.2 ||| x.2)) else a) (rc.acc, rc.fflags)
      let out := if rc.op = 0 || !k.canWrite t rc.creg then [] else [(rc.creg, acc, BitVec.ofNat 4 (foldTy rc.op))]
      (s.updCore c (fun k => (k.freeRec r).updThread t (Thread.acquired k.seq))).finish t
        { regs := out ++ [(f.d.toNat, rc.done, 1)], fpf := fl }

/-- The operands of RJOIN, which writes D when no subordinate lives any more (R123). -/
def rjoinSpec (f : IForm) : OpSpec := { h := f.h, noSub := true, dsts := [dstD f.d 1], lateDst := true }

/-- RJOIN (R299). -/
def execRjoin (f : IForm) (s : State) : Out :=
  .next (runExecs (rjoinSpec f) (fun s e => s.rjoinOne f e.lead) s)

/-! ### LEND, RECLAIM, the forced release (R115, R125, R126, R300) -/

/-- A group instruction of U form: a thread in no group traps BARCOUNT (R300). -/
def groupWide (f : IForm) (eff : Core → Nat → Core) (s : State) : Out :=
  .next (runExecs { h := f.h, avail := .core, noSub := true } (fun s e =>
    e.targets.foldl (fun s t =>
      let c := s.cur.core
      match ((s.core c).thread t).grp with
      | none => s.trap c t .barcount s.cur.pc (barVal 0 0 1)
      | some g => (s.updCore c (fun k => eff k g)).finish t {}) s) s)

/-- LEND (R300). -/
def execLend (f : IForm) (s : State) : Out := groupWide f (fun k g => k.setGroup g { k.group g with lend := true }) s

/-- RECLAIM (R125, R300): marks the subordinates that this group's LEND flag alone gave. -/
def execReclaim (f : IForm) (s : State) : Out :=
  groupWide f (fun k g =>
    let inc := (k.group g).inc
    let k := k.setGroup g { k.group g with lend := false }
    let rids := (List.range 8).filter (fun r => k.threads.any (fun e => match e.2.sub with
      | some sb => sb.rid == r && sb.lend == some inc
      | none => false))
    rids.foldl (fun k r => k.markSubs r (fun sb => sb.lend == some inc)) k) s

/-- SUBORDINATE_KILL (R126): 4,096 core cycles after the mark, under REISSUE; the index waits for reissue. -/
def execSubordinateKill (core tid : Nat) (s : State) : Out :=
  .next (s.updCore core (fun k =>
    match (k.thread tid).sub with
    | some sb => match sb.mark with
      | some m =>
        if m + 4096 ≤ k.clock ∧ (k.rcd sb.rid).reissue = true ∧ sb.iterated = false then
          let k := match (k.thread tid).iter with
            | some e => { k with window := Map.put k.window e { k.win e with st := 3, val := false, value := 0 } }
            | none => k
          k.endSub tid sb
        else k
      | none => k
    | none => k))

end Sys2Proof.Machine
end

