-- ==== Sys2Proof/Machine/Mem.lean ====
section
/-! DEFINITION. Global memory: device and host bytes, page walks, translation caches, parking and the fault rings (R384 to R394,
R420, R424). -/

namespace Sys2Proof.Machine
open Sys2Proof

/-! ### Bytes (R8) -/

/-- Little-endian value of a list of bytes. -/
def leNat : List Byte → Nat
  | [] => 0
  | b :: bs => b.toNat + 256 * leNat bs

/-- The `n` low bytes of a value, little-endian. -/
def leBytes : Nat → Nat → List Byte
  | 0, _ => []
  | n + 1, v => BitVec.ofNat 8 v :: leBytes n (v / 256)

/-- Device addresses that exist (R4, R388, R400). -/
def inDevice (a n : Nat) : Bool :=
  decide (a + n ≤ Config.hbmSize) || decide (Config.lpBase ≤ a ∧ a + n ≤ Config.lpBase + Config.lpSize)

/-- `n` bytes of device memory. -/
def State.devRead (s : State) (a n : Nat) : List Byte := Map.getRange Config.blank s.mem a n
/-- Writes bytes of device memory. A queue pair whose STATE is not 1 afterwards begins to count again (R405). -/
def State.devWrite (s : State) (a : Nat) (bs : List Byte) : State :=
  let m := Map.setRange Config.blank s.mem a bs
  { s with mem := m, qps := s.qps.filter (fun e => Map.get Config.blank m (s.qpbase.toNat + 64 * e.1) == 1) }
/-- A number of `n` bytes of device memory. -/
def State.devNat (s : State) (a n : Nat) : Nat := leNat (s.devRead a n)
def State.devPut (s : State) (a n v : Nat) : State := s.devWrite a (leBytes n v)

/-- Bytes at a place of device or host memory. -/
def State.readLoc (s : State) (l : Loc) (n : Nat) : List Byte :=
  if l.host then Map.getRange Config.blank s.host l.addr n else s.devRead l.addr n
def State.writeLoc (s : State) (l : Loc) (bs : List Byte) : State :=
  if l.host then { s with host := Map.setRange Config.blank s.host l.addr bs } else s.devWrite l.addr bs

def Xlat.covers (x : Xlat) (pasid va : Nat) : Bool := x.pasid == pasid && decide (x.va ≤ va ∧ va < x.va + x.size)
/-- The place of an address that a translation covers. -/
def Xlat.at (x : Xlat) (va : Nat) : Loc := { x.loc with addr := x.loc.addr + (va - x.va) }

/-! ### Partitions of agents (R417, R420) -/

/-- The partition that a core translates for. -/
def State.corePart (s : State) (c : Nat) : Option Nat := ((s.core c).inst).map (·.part)

/-! ### Walks (R386 to R388) -/

/-- How a walk ends: a translation, a host page that ATS must translate, a recoverable fault with its reason and the size of its page, an
unrecoverable error. -/
inductive WalkEnd where
  | hit (x : Xlat)
  | ats (x : Xlat)
  | fault (reason size : Nat)
  | bad
  deriving DecidableEq, Repr

/-- The PASID's leaf-table entry (R386): its root, PRI, ATS and owner. Bytes +12 to +15 are ignored (R9). -/
structure PasidEntry where
  root : Nat
  pri : Bool
  ats : Bool
  part : Nat
  deriving DecidableEq, Repr

def State.pasidEntry (s : State) (pasid : Nat) : Option PasidEntry :=
  let da := s.ptbase.toNat + 8 * (pasid / 1024 % 1024)
  if !inDevice da 8 then none
  else
    let d := s.devNat da 8
    if d % 2 = 0 ∨ d / 2 % 2 ^ 13 ≠ 0 ∨ 2 ^ 48 ≤ d then none
    else
      let la := d / 2 ^ 14 * 2 ^ 14 + 16 * (pasid % 1024)
      if !inDevice la 16 then none
      else
        let e := s.devNat la 8
        if e % 2 = 0 ∨ e / 8 % 2 ^ 13 ≠ 0 ∨ 2 ^ 48 ≤ e then none
        else some { root := e / 2 ^ 16 * 2 ^ 16, pri := e.testBit 2, ats := e.testBit 1, part := s.devNat (la + 8) 4 }

/-- The tables from the top: level, lowest VA bit it indexes, entries (R387). -/
def levels : List (Nat × Nat × Nat) := [(3, 39, 8192), (2, 30, 512), (1, 21, 512), (0, 16, 32)]

/-- The address of frame `f` of a tier, and whether a page of `n` bytes there is installed (R388). -/
def tierLoc (tier f n : Nat) : Option Nat :=
  match tier with
  | 0 => if f + n ≤ Config.hbmSize then some f else none
  | 1 => if f + n ≤ Config.lpSize then some (Config.lpBase + f) else none
  | _ => none

/-- A walk from the table at `tab` on; `wr` for a write. The pointers it passed come with it. -/
def State.walkFrom (s : State) (pe : PasidEntry) (pasid va : Nat) (wr : Bool) : List (Nat × Nat × Nat) → Nat → WalkEnd × List Ptr
  | [], _ => (.bad, [])
  | (lvl, lo, n) :: rest, tab =>
    let ea := tab + 8 * (va / 2 ^ lo % n)
    if !inDevice ea 8 then (.bad, [])
    else
      let e := s.devNat ea 8
      let addr := e / 2 ^ 12 % 2 ^ 36 * 2 ^ 12
      let tier := e / 16 % 4
      let leaf := e.testBit 1
      if !e.testBit 0 then (.fault 1 65536, [])
      else if e / 2 ^ 48 % 16 ≠ 0 ∨ e / 2 ^ 9 % 8 ≠ 0 ∨ e.testBit 7 ∨ e.testBit 3 ∨ (lvl = 3 ∧ leaf) ∨ (lvl = 0 ∧ !leaf) then (.bad, [])
      else if leaf then
        let size := 2 ^ lo
        let x : Xlat := { pasid := pasid, va := va / size * size, size := size, loc := { host := false, addr := 0 }, w := e.testBit 2,
                          leaf := some ea, part := pe.part }
        if tier = 3 then (.bad, [])
        else if wr && !e.testBit 2 then (.fault 2 size, [])
        else if tier = 2 then (if pe.ats then .ats x else .bad, [])
        else if addr % size ≠ 0 then (.bad, [])
        else match tierLoc tier addr size with
          | some a => (.hit { x with loc := { host := false, addr := a } }, [])
          | none => (.bad, [])
      else
        let (r, ps) := State.walkFrom s pe pasid va wr rest addr
        (r, { pasid := pasid, lvl := lvl, va := va / 2 ^ lo, table := addr } :: ps)

/-- The partition check of R420. A core that no instance holds finishes what its last instance has issued. -/
def partOk (part : Option Nat) (owner : Nat) : Bool := match part with | some p => p == owner | none => true

/-- A whole walk (R386 to R388, R420); `part` is the partition of the translating agent. Cached pointers shorten it (R389). -/
def State.walk (s : State) (ptrs : List Ptr) (part : Option Nat) (pasid va : Nat) (wr : Bool) : WalkEnd × List Ptr :=
  match s.pasidEntry pasid with
  | none => (.bad, [])
  | some pe =>
    if pasid ≠ 0 ∧ partOk part pe.part = false then (.bad, [])
    else
      let cached (lvl lo : Nat) : Option Nat :=
        (ptrs.find? (fun p => p.pasid == pasid && p.lvl == lvl && p.va == va / 2 ^ lo)).map (·.table)
      match cached 1 21, cached 2 30, cached 3 39 with
      | some t, _, _ => s.walkFrom pe pasid va wr (levels.drop 3) t
      | none, some t, _ => s.walkFrom pe pasid va wr (levels.drop 2) t
      | none, none, some t => s.walkFrom pe pasid va wr (levels.drop 1) t
      | none, none, none => s.walkFrom pe pasid va wr levels pe.root

/-- A page marked poisoned: its translation is unrecoverable (R424). -/
def State.poisoned (s : State) (l : Loc) : Bool := !l.host && s.poison.contains (l.addr / 65536)

/-- A cached translation that serves the access: one without W does not serve a write (R390). -/
def findTlb (l : List Xlat) (pasid va : Nat) (wr : Bool) : Option Xlat := l.find? (fun x => x.covers pasid va && (x.w || !wr))

/-- The translation that an address has now; of a host page, one that some die has cached (R384 to R388, R398, R424). -/
def State.lookup (s : State) (pasid va : Nat) : Option Xlat :=
  if 2 ^ 52 ≤ va ∨ va / 2 ^ 48 = 15 then none
  else match s.pasidEntry pasid with
    | none => none
    | some pe => match (s.walkFrom pe pasid va false levels pe.root).1 with
      | .hit x => if s.poisoned (x.at va) then none else some x
      | .ats _ => s.dies.findSome? (fun d => (findTlb d.2.dtlb pasid va false).filter (fun x => x.loc.host))
      | _ => none

/-- Where a page lies now, for the directory of the memory-side cache (R101). -/
def State.peek (s : State) (pasid va : Nat) : Option Loc := (s.lookup pasid va).map (fun x => x.at va)

/-! ### Users of translations -/

def Core.updCmd (k : Core) (id : Nat) (f : Cmd → Cmd) : Core := { k with cmds := k.cmds.map (fun x => if x.id = id then f x else x) }
def Core.updMop (k : Core) (id : Nat) (f : MOp → MOp) : Core := { k with mops := k.mops.map (fun x => if x.id = id then f x else x) }
def Core.cmd? (k : Core) (id : Nat) : Option Cmd := k.cmds.find? (fun x => x.id == id)
def Core.mop? (k : Core) (id : Nat) : Option MOp := k.mops.find? (fun x => x.id == id)

/-- The user is a CPY that writes the whole page of 64 KiB (R424). -/
def State.rewrites (s : State) (u : User) (va acc : Nat) : Bool :=
  match u with
  | .cmd c id => match (s.core c).cmd? id with
    | some m =>
      let page := va / 65536 * 65536
      acc == 1 && m.op == 0xA3 && decide (m.a.toNat ≤ page ∧ page + 65536 ≤ m.a.toNat + m.c.toNat)
    | none => false
  | _ => false

/-- Sets how far the user's translation has come. -/
def State.setXs (s : State) (u : User) (x : XSt) : State :=
  match u with
  | .cmd c id => s.updCore c (fun k => k.updCmd id (fun m => { m with xs := x }))
  | .mop c id => s.updCore c (fun k => k.updMop id (fun m => { m with xs := x }))
  | .queue q => s.updSlot (q % 64) (fun sl => if q < 64 then { sl with xs := x } else { sl with laXs := x })
  | .page _ _ _ acc =>
    let lost := match x with | .failed _ => acc == 1 | _ => false
    { s with asked := if lost then s.asked.filter (fun e => e.user != u) else s.asked.map (fun e => if e.user = u then { e with xs := x } else e) }
  | .rdma => s

/-- Gives the user a translation. -/
def State.giveXlat (s : State) (u : User) (x : Xlat) : State :=
  match u with
  | .cmd c id => s.updCore c (fun k => k.updCmd id (fun m => { m with xs := .idle, src := m.src ++ [x] }))
  | .mop c id => s.updCore c (fun k => k.updMop id (fun m => { m with xs := .idle, xl := m.xl ++ [x] }))
  | .queue q => s.updSlot (q % 64) (fun sl =>
      if q < 64 then { sl with xs := .idle, src := sl.src ++ [x] } else { sl with laXs := .idle, laSrc := sl.laSrc ++ [x] })
  | .page _ _ _ _ =>
    let bs := match s.askedFor u with | some e => e.bytes | none => []
    bs.foldl (fun s b => s.writeLoc (x.at b.1) [b.2]) { s with asked := s.asked.filter (fun e => e.user != u) }
  | .rdma => s

/-- The I/O die, which holds the control cores, the queue engines and the RDMA engine (R393). -/
def ioDie : Nat := 4
/-- The die whose caches and walkers a core uses (R389). -/
def cacheDie (c : Nat) : Nat := if isCtl c then ioDie else dieOf c
/-- The die whose caches and walkers a user has (R389). -/
def User.die : User → Nat
  | .cmd c _ => cacheDie c
  | .mop c _ => cacheDie c
  | .queue _ => ioDie
  | .page _ _ _ _ => ioDie
  | .rdma => ioDie
/-- The die whose fault ring takes the faults of a die (R393). -/
def ringDie (d : Nat) : Nat := if d = ioDie then 0 else d

/-- SRC of a fault record (R393). -/
def srcCore (c : Nat) : Nat := if isCtl c then 0xF0 + (c - 208) else c
def User.src : User → Nat
  | .cmd c _ => srcCore c + 256
  | .mop c _ => srcCore c
  | .queue _ => 0xFF
  | .page _ _ _ _ => 0xFF
  | .rdma => 0xFE

/-- The partition of a user (R420). -/
def State.userPart (s : State) (u : User) : Option Nat :=
  match u with
  | .cmd c _ => s.corePart c
  | .mop c _ => s.corePart c
  | .queue q => some (s.slot (q % 64)).part
  | .page part _ _ _ => part
  | .rdma => none

/-! ### Fault rings (R392 to R394) -/

/-- The ring is enabled (R392). -/
def Die.ringOn (d : Die) : Bool :=
  let n := d.fqsize.toNat
  decide (64 ≤ n ∧ n ≤ 4096) && n == 2 ^ Nat.log2 n

/-- The control core of a partition. -/
def State.ccOf (s : State) (part : Option Nat) : Option Nat :=
  part.bind (fun p => (Map.find s.parts p).map (·.cc))

def State.raiseOpt (s : State) (cc : Option Nat) (e : BitVec 6) : State := match cc with | some c => s.raiseEvt c e | none => s

/-- The bytes of a fault record (R393). -/
def faultBytes (va pasid acc reason token src waiters time : Nat) : List Byte :=
  leBytes 8 (va / 256 * 256) ++ leBytes 4 (pasid + acc * 2 ^ 20 + reason * 2 ^ 24) ++ leBytes 4 token ++ leBytes 4 src ++
    leBytes 4 waiters ++ leBytes 4 (time / 1024) ++ leBytes 4 0

/-- A record's token: no two dies give one (R393). -/
def tokenOf (d n : Nat) : Nat := 4 * n + d

/-- Who a fault parks: an inbound access is never parked (R405, log 133). -/
def FWait.parks (w : FWait) (now : Nat) : List Need :=
  if w.user = .rdma then [] else [{ user := w.user, va := w.va, acc := w.acc, since := now }]

/-- Writes a fault record for a user; FAULT and vector 64 follow (R393, R401). PASID 0 belongs to no partition (R385). -/
def State.writeFault (s : State) (d : Nat) (w : FWait) : State :=
  let di := s.die d
  let slot := di.fqbase.toNat + 32 * (di.fqtail.toNat % di.fqsize.toNat)
  let tok := tokenOf d di.nextToken
  let r : FRec := { token := tok, time := s.ptime, pasid := w.pasid, va := w.va, size := w.size, acc := w.acc, reason := w.reason, slot := slot,
                    users := w.parks s.ptime }
  let s := s.devWrite slot (faultBytes w.va w.pasid w.acc w.reason tok w.src r.users.length s.ptime)
  let s := s.updDie d (fun di => { di with fqtail := di.fqtail + 1, faults := di.faults ++ [r],
                                           nextToken := if 2 ^ 30 ≤ di.nextToken + 1 then 1 else di.nextToken + 1 })
  let s := s.setXs w.user (.parked d tok)
  (s.raiseOpt (s.ccOf (if w.pasid = 0 then none else (s.pasidEntry w.pasid).map (·.part))) evFAULT).irq 0 64

/-- A fault joins the unanswered record of its PASID, page and access (R393). -/
def State.joinFault (s : State) (d : Nat) (r : FRec) (w : FWait) : State :=
  let us := r.users ++ w.parks s.ptime
  let s := s.devPut (r.slot + 20) 4 us.length
  let s := s.updDie d (fun di => { di with faults := di.faults.map (fun x => if x.token = r.token then { x with users := us } else x) })
  s.setXs w.user (.parked d r.token)

/-- A fault is of the page of a record. -/
def FRec.samePage (r : FRec) (w : FWait) : Bool := r.va / r.size == w.va / r.size || r.va / w.size == w.va / w.size

/-- Parks a user on a recoverable fault (R88, R393); with the ring disabled it fails. -/
def State.park (s : State) (d : Nat) (w : FWait) : State :=
  let di := s.die d
  if !di.ringOn then s.setXs w.user (.failed w.va)
  else match di.faults.find? (fun r => r.pasid == w.pasid && r.samePage w && r.acc == w.acc) with
    | some r => s.joinFault d r w
    | none =>
      if (di.fqtail - di.fqhead).toNat = di.fqsize.toNat then
        (s.updDie d (fun di => { di with waiting := di.waiting ++ [w] })).setXs w.user .walking
      else s.writeFault d w

/-- Faults that waited for room, in order (R393). -/
def State.flushFaults (s : State) (d : Nat) : Nat → State
  | 0 => s
  | n + 1 =>
    match (s.die d).waiting with
    | [] => s
    | w :: ws =>
      if (s.die d).ringOn && (s.die d).fqtail - (s.die d).fqhead == (s.die d).fqsize then s
      else State.flushFaults ((s.updDie d (fun di => { di with waiting := ws })).park d w) d n

/-! ### Translation caches (R389, R390) -/

def addTlb (n : Nat) (x : Xlat) (l : List Xlat) : List Xlat := (x :: l.filter (· != x)).take n

/-- The entries of a die's cache, which leaf translations and table pointers share (R389). -/
def dieEntries : Nat := 8192
def Die.cacheLeaf (di : Die) (x : Xlat) : Die :=
  let l := addTlb dieEntries x di.dtlb
  { di with dtlb := l, ptrs := di.ptrs.take (dieEntries - l.length) }
def Die.cachePtrs (di : Die) (ps : List Ptr) : Die :=
  let l := (ps ++ di.ptrs.filter (fun p => !ps.contains p)).take dieEntries
  { di with ptrs := l, dtlb := di.dtlb.take (dieEntries - l.length) }

/-- The D bit of a page, set at the first write translation (R388). -/
def State.markD (s : State) (x : Xlat) : State :=
  match x.leaf with
  | none => s
  | some a => s.devPut a 8 (s.devNat a 8 ||| 64)

/-- What a request for a translation finds. -/
inductive XAns where
  | have (x : Xlat) (s : State)
  | wait (s : State)
  | bad
  deriving DecidableEq, Repr

/-- A user attaches to a walk of the page, or starts one, or waits for a walker (R390). -/
def State.startWalk (s : State) (pasid : Nat) (n : Need) : State :=
  let d := n.user.die
  let s := s.setXs n.user .walking
  let di := s.die d
  match di.walks.find? (fun w => w.pasid == pasid && w.va / 65536 == n.va / 65536) with
  | some w => s.updDie d (fun di => { di with walks := di.walks.map (fun x => if x = w then { x with users := x.users ++ [n] } else x) })
  | none =>
    if di.walks.length < 32 then s.updDie d (fun di => { di with walks := di.walks ++ [{ pasid := pasid, va := n.va, users := [n] }] })
    else s.updDie d (fun di => { di with pendWalks := di.pendWalks ++ [(pasid, n)] })

/-- Asks for the translation of an address (R384, R389, R390): held by the user, cached by its core or die, or walked for. Every one is
checked against the partition (R420), and one for a write sets D (R388). -/
def State.getXlat (s : State) (u : User) (held : List Xlat) (pasid va acc : Nat) : XAns :=
  let wr := acc = 1 ∨ acc = 2
  if 2 ^ 52 ≤ va ∨ va / 2 ^ 48 = 15 then .bad
  else
    let ok (x : Xlat) (s : State) : XAns :=
      if (s.poisoned (x.at va) && !s.rewrites u va acc) || (pasid != 0 && !partOk (s.userPart u) x.part) then .bad
      else .have x (if wr then s.markD x else s)
    match findTlb held pasid va wr with
    | some x => ok x s
    | none =>
      let keep (x : Xlat) : State := match u with
        | .cmd c _ => s.updCore c (fun k => { k with tlb := addTlb 64 x k.tlb })
        | .mop c _ => s.updCore c (fun k => { k with tlb := addTlb 64 x k.tlb })
        | .queue _ | .page _ _ _ _ | .rdma => s
      let own := match u with
        | .cmd c _ => findTlb (s.core c).tlb pasid va wr
        | .mop c _ => findTlb (s.core c).tlb pasid va wr
        | .queue _ | .page _ _ _ _ | .rdma => none
      match own.or (findTlb (s.die u.die).dtlb pasid va wr) with
      | some x => ok x (keep x)
      | none => .wait (s.startWalk pasid { user := u, va := va, acc := acc })

/-- A translation serves a user, and the caches keep it (R389); one for a write sets D (R388); a poisoned page fails it (R424). -/
def State.serve (s : State) (d : Nat) (n : Need) (x : Xlat) : State :=
  let s := s.updDie d (fun di => di.cacheLeaf x)
  let s := match n.user with
    | .cmd c _ => s.updCore c (fun k => { k with tlb := addTlb 64 x k.tlb })
    | .mop c _ => s.updCore c (fun k => { k with tlb := addTlb 64 x k.tlb })
    | .queue _ | .page _ _ _ _ | .rdma => s
  if s.poisoned (x.at n.va) && !s.rewrites n.user n.va n.acc then s.setXs n.user (.failed n.va)
  else (if n.acc = 1 ∨ n.acc = 2 then s.markD x else s).giveXlat n.user x

/-- The user waits for the host's translation of its 64 KiB (R398). -/
def State.askAts (s : State) (d pasid : Nat) (n : Need) : State :=
  let page := n.va / 65536 * 65536
  match s.ats.find? (fun a => a.pasid == pasid && a.va == page && a.die == d) with
  | some a => { s with ats := s.ats.map (fun y => if y = a then { y with users := y.users ++ [n] } else y) }
  | none => { s with ats := s.ats ++ [{ pasid := pasid, va := page, die := d, users := [n] }] }

/-- A walk has ended for one user (R389, R390, R393, R398). -/
def State.endWalk (s : State) (d pasid : Nat) (n : Need) : State :=
  let wr := n.acc = 1 ∨ n.acc = 2
  let (r, ps) := s.walk (s.die d).ptrs (s.userPart n.user) pasid n.va wr
  match r with
  | .hit x => (s.updDie d (fun di => di.cachePtrs ps)).serve d n x
  | .ats _ => s.askAts d pasid n
  | .fault reason size => s.park (ringDie d)
      { user := n.user, pasid := pasid, va := n.va, size := size, acc := n.acc, reason := reason, src := n.user.src }
  | .bad => s.setXs n.user (.failed n.va)

/-- The walkers take the walks that waited for one (R390). -/
def State.pullWalk (s : State) (d : Nat) : State :=
  match (s.die d).pendWalks with
  | [] => s
  | (pasid, n) :: rest =>
    if (s.die d).walks.length < 32 then (s.updDie d (fun di => { di with pendWalks := rest })).startWalk pasid n else s

/-! ### Write versions (R395) -/

/-- A write command counts itself in the leaf entry of a page; a migration's watch sees it (R396). -/
def State.countWrite (s : State) (x : Xlat) : State :=
  match x.leaf with
  | none => s
  | some a =>
    let e := s.devNat a 8
    let e := if e.testBit 6 then e else e + 64
    let s := if s.mig.armed.any (fun w => w.1 == a) then { s with mig := { s.mig with saw := true } } else s
    s.devPut a 8 ((e + 2 ^ 52) % 2 ^ 64)

/-- One translation of each page (R395): a page is a leaf entry. -/
def onePerPage (l : List Xlat) : List Xlat := l.foldl (fun acc x => if acc.any (fun y => y.leaf == x.leaf) then acc else acc ++ [x]) []

/-- The page waits for its migration (R396). -/
def State.migrating (s : State) (x : Xlat) : Bool :=
  match x.leaf with
  | none => false
  | some a => (s.devNat a 8).testBit 8

end Sys2Proof.Machine
end

