-- ==== Sys2Proof/Machine/SpMem.lean ====
section
/-! DEFINITION. Scratchpad memory: 0x90 to 0x9F with their orders and scopes, and the events of loads, windows and promotion (R75,
R77, R80 to R84, R92 to R110, R245 to R256). -/

namespace Sys2Proof.Machine
open Sys2Proof

/-! ### The scratchpad map (R75, R90, R276) -/

/-- A place of scratchpad: local bytes of a core (its own, or another's through a window), or staging; `home` is the core that makes
the access, `raw` the offset that its range scoreboard names, `own` the offset where it names its own window. -/
structure Place where
  core : Nat
  off : Nat
  staging : Bool := false
  remote : Bool := false
  home : Nat
  raw : Nat
  own : Option Nat := none
  deriving DecidableEq, Repr

/-- The core of rank `k` of the share set that core `c` is in. -/
def State.rankCore (s : State) (c k : Nat) : Option Nat :=
  match (s.core c).sset with
  | none => none
  | some (id, _) => (List.range 52).map (· + dieOf c * 52) |>.find? (fun x => (s.core x).sset == some (id, k))

/-- Where `n` bytes at offset `a` lie; none traps SPRANGE. `sl` admits staging. -/
def State.place (s : State) (c : Nat) (sl : Bool) (a n : Nat) : Option Place :=
  if isCtl c then (if a + n ≤ 0x40000 then some { core := c, off := a, home := c, raw := a } else none)
  else if a + n ≤ 0xC0000 then some { core := c, off := a, home := c, raw := a }
  else if 0xF00000 ≤ a ∧ a + n ≤ 0xF20000 then 
    (if sl then some { core := c, off := a - 0xF00000, staging := true, home := c, raw := a } else none)
  else if 0x100000 ≤ a ∧ a < 0x900000 ∧ a % 0x100000 + n ≤ 0xC0000 then
    (s.rankCore c (a / 0x100000 - 1)).map (fun o =>
      { core := o, off := a % 0x100000, remote := o != c, home := c, raw := if o = c then a % 0x100000 else a
        own := if o = c then some a else none })
  else none

/-- The SL level of the map: SL on a core; a control core has no staging. -/
def Core.atSl (k : Core) (t : Nat) : Bool := (k.thread t).level == .sl

def State.readPlace (s : State) (p : Place) (n : Nat) : List Byte :=
  let k := s.core p.core
  Map.getRange Config.blank (if p.staging then k.staging else k.scratch) p.off n

/-- Writes bytes without the line states. -/
def State.pokePlace (s : State) (p : Place) (bs : List Byte) : State :=
  s.updCore p.core (fun k =>
    if p.staging then { k with staging := Map.setRange Config.blank k.staging p.off bs }
    else { k with scratch := Map.setRange Config.blank k.scratch p.off bs })

/-- A thread's access touches the line (R80). -/
def State.touch (s : State) (p : Place) : State :=
  if p.staging then s else s.updCore p.core (fun k => k.touchLine (p.off / 256))

/-- The words that `n` bytes at `off` lie in. -/
def spWords (off n : Nat) : List Nat := (List.range ((off % 4 + n + 3) / 4)).map (· + off / 4)
/-- A 32-bit word of scratchpad. -/
def wordIn (sp : Map Byte) (w : Nat) : W32 := BitVec.ofNat 32 (leNat (Map.getRange Config.blank sp (4 * w) 4))

/-- The words that a store of `n` bytes at `off` replaces, as they were, beside those already noted. -/
def oldWords (sp : Map Byte) (off n : Nat) (old : Map W32) : Map W32 :=
  (spWords off n).foldl (fun m w => if (Map.find m w).isSome then m else Map.put m w (wordIn sp w)) old

/-- Scratchpad as an engine reads it that races with stores: each noted word as it was or as it stands, by the choices at `n` (R105, R106). -/
def mixOld (sp : Map Byte) (old : Map W32) (n : Nat) : Map Byte :=
  old.foldl (fun sp e => if Config.freeAt n e.1 then Map.setRange Config.blank sp (4 * e.1) (leBytes 4 e.2.toNat) else sp) sp

/-- The words of local scratchpad that a thread store replaces, for the matrix engine (R106) and for the queued paths (R105). -/
def Core.noteOld (k : Core) (off n : Nat) : Core :=
  { k with
    unfenced := oldWords k.scratch off n k.unfenced
    cov := { k.cov with queue := k.cov.queue.map (fun m => if m.op = 0xC1 then { m with old := oldWords k.scratch off n m.old } else m) } }

/-- A store or an atomic's write of at most 16 aligned bytes (R80, R81, R109). -/
def State.storePlace (s : State) (p : Place) (bs : List Byte) (nt : Bool) : State :=
  let s := (s.touch p).pokePlace p bs
  if p.staging then s else s.updCore p.core (fun k => k.dirtyLine (p.off / 256) p.off bs nt)

/-- The words of a thread store that has just been made are the newest of their places, `before` being scratchpad without it (R96). -/
def Core.noteRecent (k : Core) (before : Map Byte) (off n : Nat) (writers : List Nat) : Core :=
  { k with
    seq := k.seq + 1
    recent := (spWords off n).foldl (fun m w =>
      Map.put m w { old := wordIn before w, new := wordIn k.scratch w, writers := writers, stamp := k.seq + 1 }) k.recent }

/-- A thread by its core, over all cores. -/
def threadId (c t : Nat) : Nat := c * 2048 + t

/-- A store of threads `ts` of the core that makes the access: the matrix engine may see the words before it until an MFENCE (R106), a queued
path those before it (R105), another thread those before it until an acquire (R96). -/
def State.threadStore (s : State) (ts : List Nat) (p : Place) (bs : List Byte) (nt : Bool) : State :=
  if p.staging || isCtl p.core then s.storePlace p bs nt
  else
    let s := s.touch p
    let before := (s.core p.core).scratch
    ((s.updCore p.core (fun k => k.noteOld p.off bs.length)).storePlace p bs nt).updCore p.core
      (fun k => k.noteRecent before p.off bs.length (ts.map (threadId p.home)))

/-! ### Racing reads (R94 to R97, R105) -/

/-- The newest store to word `w`, where an agent that acts for threads `ts` may still miss it: none of them made it, and it came after their last
acquire and the last store to that word that they have read. -/
def Core.missable (k : Core) (ts : List Nat) (acqAt seen w : Nat) : Option Recent :=
  (Map.find k.recent w).filter (fun r =>
    !ts.any r.writers.contains && decide (max acqAt seen < r.stamp) && wordIn k.scratch w == r.new)

/-- The missable words of `n` bytes at a place of local scratchpad, for all of threads `ts` of its core; a trap handler of PREEMPT and the save
routine miss nothing (R113). -/
def Core.missed (k : Core) (c : Nat) (ts : List Nat) (off n : Nat) : List (Nat × Recent) :=
  if ts.any k.aside then []
  else
    let acqAt := ts.foldl (fun m t => max m (k.thread t).acqAt) 0
    (spWords off n).filterMap (fun w =>
      let seen := ts.foldl (fun m t => max m (Map.get 0 (k.thread t).seen w)) 0
      (k.missable (ts.map (threadId c)) acqAt seen w).map (fun r => (w, r)))

/-- Whether a load misses a store to a word, by the choice for the thread, the load, the store and its 64-bit half (R97). -/
def misses (who n : Nat) (e : Nat × Recent) : Bool := Config.freeRace who n (2 * e.2.stamp + e.1 / 2 % 2)

/-- Scratchpad with some words as they were before their newest store. -/
def unwritten (sp : Map Byte) (words : List (Nat × Recent)) : Map Byte :=
  words.foldl (fun sp e => Map.setRange Config.blank sp (4 * e.1) (leBytes 4 e.2.old.toNat)) sp

/-- The thread has read the newest stores to some words (R96). -/
def Thread.sees (words : List (Nat × Recent)) (th : Thread) : Thread :=
  { th with seen := words.foldl (fun m e => Map.put m e.1 e.2.stamp) th.seen }
def Core.sees (k : Core) (ts : List Nat) (words : List (Nat × Recent)) : Core :=
  if words = [] then k else ts.foldl (fun k t => k.updThread t (Thread.sees words)) k

/-- The words of an access that its threads may miss: of local scratchpad alone (log 39). -/
def State.missedAt (s : State) (ts : List Nat) (p : Place) (n : Nat) : List (Nat × Recent) :=
  if p.staging || p.remote || isCtl p.core then [] else (s.core p.core).missed p.core ts p.off n

/-- The bytes that a load of threads `ts` reads: another thread's store that no acquire has ordered before it may be missed (R96). -/
def State.loadPlace (s : State) (ts : List Nat) (p : Place) (n : Nat) : State × List Byte :=
  match s.missedAt ts p n with
  | [] => (s, s.readPlace p n)
  | words =>
    let k := s.core p.core
    let miss := misses (threadId p.core (ts.headD 0)) k.seq
    (s.updCore p.core (fun k => k.sees ts (words.filter (fun e => !miss e))),
      Map.getRange Config.blank (unwritten k.scratch (words.filter miss)) p.off n)

/-- The newest bytes, which an atomic reads: its threads have read them (R96, R97). -/
def State.atomPlace (s : State) (ts : List Nat) (p : Place) (n : Nat) : State × List Byte :=
  match s.missedAt ts p n with
  | [] => (s, s.readPlace p n)
  | words => (s.updCore p.core (fun k => k.sees ts words), s.readPlace p n)

/-! ### Orders (R92, R93, R99 to R101) -/

/-- The order of an access: acquire, release, non-temporal, scope. -/
structure Order where
  acq : Bool := false
  rel : Bool := false
  nt : Bool := false
  sco : Nat := 0
  deriving DecidableEq, Repr

/-- The ORD field of the M form (R93). -/
def mOrder (ord sco : BitVec 3) : Order :=
  { acq := ord == 1, rel := ord == 2, nt := ord == 4, sco := sco.toNat }
/-- The ORD field of ATOM, CAS and FENCE (R251, R255): 1 acq, 2 rel, 3 both. -/
def aOrder (ord sco : BitVec 3) : Order :=
  { acq := ord == 1 || ord == 3, rel := ord == 2 || ord == 3, sco := sco.toNat }

/-- A release that writes back and waits: at `.dev` or `.sys`; with `.rmt` its release part is at `.dev` (R93, R99). -/
def Order.wideRel (o : Order) : Bool := o.rel && decide (4 ≤ o.sco)
/-- An acquire that invalidates (R100). -/
def Order.wideAcq (o : Order) : Bool := o.acq && decide (4 ≤ o.sco)
def Order.remote (o : Order) : Bool := o.acq && o.sco == 6
/-- A release at `.core` or wider (R82). -/
def Order.marks (o : Order) : Bool := o.rel && decide (2 ≤ o.sco)
/-- The write of an access that is relaxed: after a FENCE.rel it is a release (R104). -/
def Order.plainWrite (o : Order) : Bool := !o.rel && !o.nt

/-- Whether a live lazy region of core `o` covers the line at `va` of a PASID (R101): by its address, or by the place that both have. -/
def State.lazyCovers (s : State) (o pasid va : Nat) : Bool :=
  let k := s.core o
  let loc := s.peek pasid va
  (List.range 16).any (fun i =>
    let r := k.region i
    r.isLive && r.wb == 0 &&
      ((k.fetchPasid == pasid && decide (r.va.toNat ≤ va ∧ va < r.va.toNat + r.size.toNat)) ||
        (loc.isSome && (List.range (r.size.toNat / 256)).any (fun j => s.peek k.fetchPasid (r.va.toNat + 256 * j) == loc))))

/-- Every core of the device. -/
def allCores : List Nat := List.range 216

/-- Asks the other cores that hold these lines of a PASID in lazy regions to write back (R101): the cores asked. -/
def State.askPromote (s : State) (c pasid : Nat) (lines : List Nat) : State × List Nat :=
  let asked := allCores.filter (fun o => o != c && lines.any (s.lazyCovers o pasid))
  (asked.foldl (fun s o => s.updCore o (fun k => { k with promoReq := true })) s, asked)

/-- Starts, or looks at, the promotions of an acquire at `.rmt`: true when every core has acknowledged (R101, R104). -/
def State.promoteReady (s : State) (c : Nat) (ts lines : List Nat) : State × Bool :=
  let k := s.core c
  let asked := ts.flatMap (fun t => (k.thread t).promo)
  if asked != [] then (s, asked.all (fun o => !(s.core o).promoReq && (s.core o).promoLines == []))
  else
    let (s, asked) := s.askPromote c k.fetchPasid lines
    (s.updCore c (fun k => ts.foldl (fun k t => k.updThread t (fun th => { th with promo := asked })) k), asked == [])

/-- The global line of a local offset, if a live region maps it. -/
def Core.globalLine (k : Core) (off : Nat) : Option Nat := (k.regionAt off).map (fun r => k.lineVa r (off / 256))

/-- An acquire invalidates its own clean line first, so that it reads a line filled after it began (R100). -/
def Core.dropOwn (k : Core) (off : Nat) : Core :=
  match k.regionAt off with
  | some r =>
    let l := k.line (off / 256)
    if (k.region r).fill = 0 then k.setLine (off / 256) { l with st := if l.st = 1 then 0 else l.st, refill := l.refill || l.filling } else k
  | none => k

/-! ### The driver of a memory instruction (R249, R250) -/

/-- One access of an issue: its execution, its place, its size. -/
structure Access where
  e : Exec
  p : Place
  n : Nat
  deriving DecidableEq, Repr

/-- The checks of R75: MISALIGN before SPRANGE. -/
def State.checkAccess (s : State) (e : Exec) (ea : W32) (n align : Nat) : Except (Cause × W64) Access :=
  let c := s.cur.core
  if ea.toNat % align ≠ 0 then .error (.misalign, ea.setWidth 64)
  else match s.place c ((s.core c).atSl e.lead) ea.toNat n with
    | some p => .ok { e := e, p := p, n := n }
    | none => .error (.sprange, ea.setWidth 64)

/-- The bytes of an access: where they lie, and as the accessing core names them. -/
def Access.bytes (a : Access) : List (Nat × Nat × Nat) :=
  if a.p.staging then [(a.p.home, a.p.raw, a.n)]
  else if a.p.remote then [(a.p.core, a.p.off, a.n), (a.p.home, a.p.raw, a.n)]
  else (a.p.core, a.p.off, a.n) :: (a.p.own.map (fun o => (a.p.home, o, a.n))).toList

/-- The places in the regions of the issuing core itself. -/
def ownOffs (c : Nat) (as : List Access) : List Nat := (as.filter (fun a => !a.p.staging && a.p.core == c)).map (·.p.off)

/-- Starts the fills of the invalid lines of fill-on-first-touch regions (R249). -/
def State.fillLines (s : State) (as : List Access) (nt : Bool) : State :=
  as.foldl (fun s a => if a.p.staging then s else s.updCore a.p.core (fun k =>
    (linesOf a.p.off a.n).foldl (fun k l => match k.regionAt (l * 256) with
      | some r => if (k.region r).fill = 0 ∧ (k.line l).st = 0 then k.startFill r l nt else k
      | none => k) k)) s

/-- Every thread of the accesses waits (R249). -/
def State.waitAll (s : State) (o : OpSpec) (as : List Access) (w : Access → Wait) : State :=
  as.foldl (fun s a => a.e.targets.foldl (fun s t => s.updThread s.cur.core t (fun th => th.stall a.e.ops o.dstRegs (w a))) s) s

/-- The line that every acquire of an issue has itself filled and read, if they share one: it alone stays (R100). -/
def spared (c : Nat) (as : List Access) : List Nat :=
  match (as.map (fun a => if a.p.staging || a.p.core != c then none else some (a.p.off / 256))).eraseDups with
  | [some l] => [l]
  | _ => []

/-- After an acquire or a relaxed read: what the thread's later fences must promote (R104), and the invalidation of R100. -/
def State.afterReads (s : State) (o : Order) (reads : Bool) (as : List Access) : State :=
  let c := s.cur.core
  let k := s.core c
  let s := as.foldl (fun s a => a.e.targets.foldl (fun s t => s.updThread c t (fun th =>
    if k.aside t then th
    else if o.acq then th.acquired k.seq
    else if reads && !o.rel && !a.p.staging && a.p.core == c then
      match k.globalLine a.p.off with
      | some v => if th.acqLines.contains v then th else { th with acqLines := v :: th.acqLines }
      | none => th
    else th)) s) s
  if o.wideAcq then (as.flatMap (·.e.targets)).foldl (fun s t => s.updCore c (fun k => k.acqInvalidateBy t (spared c as))) s else s

/-- Thread `t` is in the handler of PREEMPT, whose entry is an acquire: an access of it reads a line filled since (R308), but no line state of the
program changes beyond that (R113, log 110). -/
def Core.inPreempt (k : Core) (t : Nat) : Bool := (k.thread t).level == .sl && (k.thread t).tcause == 0x15

/-- Runs a memory instruction: checks, waits (release, promotion, stall, window), then every access in lane order. `needRel` is false
for accesses that turn out not to write; `perform` does one access and says whether it wrote. A release marks lines (R82), and so does a
relaxed write after a FENCE.rel (R104). -/
def memRun (o : OpSpec) (ord : Order) (reads : Bool) (ea : Exec → W32) (n align : Nat) (needRel : State → Access → Bool)
    (perform : State → Access → State × Bool) (s : State) : Out :=
  let g := gather o s
  let s := s.settle o g
  let c := s.cur.core
  let checked := g.execs.map (fun e => (e, s.checkAccess e (ea e) n align))
  let as := checked.filterMap (fun x => match x.2 with | .ok a => some a | .error _ => none)
  let s := checked.foldl (fun s x => match x.2 with
    | .ok _ => s
    | .error (cz, v) => x.1.targets.foldl (fun s t => s.trap c t cz s.cur.pc v) s) s
  if as = [] then .next s
  else
    let ts := as.flatMap (·.e.targets)
    let all := as.flatMap Access.bytes
    let (s, relOk) := if ord.rel && as.any (needRel s) then s.releaseReady c ts ord.wideRel else (s, true)
    if !relOk then .next (s.waitAll o as (fun _ => .release))
    else
      let fresh := (ord.wideAcq || ts.any (s.core c).inPreempt) && ts.any (fun t => !((s.core c).thread t).acq)
      let lines := (ownOffs c as).filterMap (s.core c).globalLine
      let (s, proOk) := if fresh && ord.remote then s.promoteReady c ts lines else (s, true)
      if !proOk then .next (s.waitAll o as (fun _ => .promote))
      else
        let s := if fresh then
            s.updCore c (fun k => ts.foldl (fun k t => k.updThread t (fun th => { th with acq := true }))
              ((ownOffs c as).foldl (fun k a => k.dropOwn a) k))
          else s
        if all.any (fun b => (s.core b.1).stalls b.2.1 b.2.2) then
          .next ((s.fillLines as ord.nt).waitAll o as (fun a => .mem a.bytes all))
        else if as.any (fun a => a.p.remote && a.e.targets.any (fun t => !((s.core c).thread t).winOk)) then
          .next (s.waitAll o as (fun a => .window a.bytes all))
        else
          let s := s.updCore c (fun k => { k with seq := k.seq + 1 })
          let (s, wrote) := as.foldl (fun (x : State × Bool) a => let y := perform x.1 a; (y.1, x.2 || y.2)) (s, false)
          let s := s.afterReads ord reads as
          .next (if wrote then (ts.filter (fun t => ord.marks || (ord.plainWrite && ((s.core c).thread t).fenced))).foldl
            (fun s t => s.updCore c (fun k => k.relMarkBy t)) s else s)

/-! ### Loads (R245, R246) -/

/-- Registers of a load, pending until its data returns (R16, R249). -/
def Thread.addLoad (th : Thread) (issue : Nat) (regs : List (Nat × W32 × Tag)) : Thread :=
  { th with pend := th.pend.filter (fun p => !regs.any (fun r => r.1 == p.reg)) ++
      regs.map (fun r => { reg := r.1, src := .load issue, val := r.2.1, tag := r.2.2 }) }

def word32 (bs : List Byte) : W32 := BitVec.ofNat 32 (leNat bs)

/-- What a load writes: registers with tags (R49, R246). -/
inductive LoadKind where
  | narrow (w : Nat) (signed : Bool)
  | words (n : Nat)
  deriving DecidableEq, Repr

def LoadKind.bytes : LoadKind → Nat
  | .narrow w _ => w / 8
  | .words n => 4 * n
def LoadKind.regs : LoadKind → Nat
  | .narrow _ _ => 1
  | .words n => n

def LoadKind.result (l : LoadKind) (d : Nat) (bs : List Byte) : List (Nat × W32 × Tag) :=
  match l with
  | .narrow w sg => [(d, BitVec.ofInt 32 (asInt sg w (leNat bs)), if sg then 0 else 1)]
  | .words n => (List.range n).map (fun i => (d + i, word32 ((bs.drop (4 * i)).take 4), 2))

/-- The base register, routed for loads and not for stores (R245). -/
def mSpec (f : MForm) : OpSpec := { h := f.h, srcs := [{ reg := f.b.toNat, desc := f.rd, idx := 1 }] }
def mAddr (f : MForm) (base : W32) : W32 := base + f.off.signExtend 32

/-- A hint's line is filled or zeroed (R80). -/
def Core.hint (k : Core) (off : Nat) (nt : Bool) : Core :=
  match k.regionAt off with
  | none => k
  | some r =>
    if (k.line (off / 256)).st ≠ 0 then k
    else if (k.region r).fill = 0 then k.startFill r (off / 256) nt
    else k.touchLine (off / 256)

/-- The fill hint of R80: a load to v0 that never waits and never traps; what it cannot resolve is dropped, and so is a hint to another
core's window. Under U it sets no UNIF (log 103). -/
def fillHint (f : MForm) (n : Nat) (s : State) : Out :=
  let c := s.cur.core
  let k := s.core c
  let o := mSpec f
  let act := s.cur.set.filter (k.active f.h)
  let leads := if f.h.u then act.filter (fun t => !act.any (fun q => laneOf q / k.segW == laneOf t / k.segW && decide (q < t))) else act
  let offs := leads.filterMap (fun t =>
    if (o.regx k t).isSome || (o.routeTrap k).isSome || o.keys k t != [] then none
    else
      let ea := mAddr f ((o.srcs.map (k.readSrc t 0)).headD []).lo
      if ea.toNat % n ≠ 0 then none
      else match s.place c (k.atSl t) ea.toNat n with
        | some p => if p.staging || p.remote then none else some p.off
        | none => none)
  let s := s.updCore c (fun k => k.noteIssue s.cur.phrase s.cur.set)
  let s := s.cur.set.foldl (fun s t => s.updThread c t (fun th => (th.commit s.cur).next s.cur.last)) s
  .next (s.updCore c (fun k => offs.foldl (fun k a => k.hint a (f.ord == 4)) k))

/-- The operands of a load that is no hint. -/
def loadSpec (l : LoadKind) (f : MForm) : OpSpec := { mSpec f with dsts := [{ reg := f.d.toNat, n := l.regs, idx := 3 }] }

/-- A load (R246). -/
def load (l : LoadKind) (f : MForm) (s : State) : Out :=
  if f.d = 0 then fillHint f l.bytes s
  else
    memRun (loadSpec l f) (mOrder f.ord f.sco) true
      (fun e => mAddr f (e.op 0).lo) l.bytes l.bytes (fun _ _ => false)
      (fun s a =>
        let (s, bs) := (s.touch a.p).loadPlace a.e.targets a.p a.n
        let issue := (s.core s.cur.core).seq
        (a.e.targets.foldl (fun s t => s.updThread s.cur.core t (fun th =>
          (th.addLoad issue (l.result f.d.toNat bs)).next s.cur.last)) s, false)) s

/-- LD8 (R246). -/
def execLd8 (f : MForm) (s : State) : Out := load (.narrow 8 false) f s
/-- LD8S (R246). -/
def execLd8s (f : MForm) (s : State) : Out := load (.narrow 8 true) f s
/-- LD16 (R246). -/
def execLd16 (f : MForm) (s : State) : Out := load (.narrow 16 false) f s
/-- LD16S (R246). -/
def execLd16s (f : MForm) (s : State) : Out := load (.narrow 16 true) f s
/-- LD32 (R246). -/
def execLd32 (f : MForm) (s : State) : Out := load (.words 1) f s
/-- LD64 (R246). -/
def execLd64 (f : MForm) (s : State) : Out := load (.words 2) f s
/-- LD128 (R246). -/
def execLd128 (f : MForm) (s : State) : Out := load (.words 4) f s

/-- The issue that a result is due to, if it is a load's. -/
def Pend.issue (p : Pend) : Option Nat :=
  match p.src with
  | .load n => some n
  | _ => none

/-- The loads of some issues write a thread's registers (R249). -/
def Thread.returnLoads (ns : List Nat) (th : Thread) : Thread :=
  let mine (p : Pend) : Bool := p.issue.any ns.contains
  let done := th.pend.filter mine
  let th := { th with pend := th.pend.filter (fun p => !mine p) }
  done.foldl (fun th p => th.setReg p.reg p.val p.tag) th

/-- LOAD_DATA_RETURN (R76, R249): the data of the loads of a thread returns, for every thread of their issues. -/
def execLoadDataReturn (core tid : Nat) (s : State) : Out :=
  let ns := ((s.core core).thread tid).pend.filterMap Pend.issue
  .next (if ns = [] then s else s.updCore core (fun k => { k with threads := k.threads.mapVal (fun t th =>
    if phraseOf t = phraseOf tid ∧ th.pend.any (fun p => p.issue.any ns.contains) = true then th.returnLoads ns else th) }))

/-! ### Stores (R247) -/

/-- The bytes of store data. -/
def storeBytes (n : Nat) (o : Opnd) : List Byte := (o.flatMap (fun r => leBytes 4 r.1.toNat)).take n

/-- The operands of a store of `regs` registers: the base is not routed, the data is (R247). -/
def storeSpec (regs : Nat) (f : MForm) : OpSpec :=
  { h := f.h, srcs := [{ reg := f.b.toNat, idx := 1 }, { reg := f.d.toNat, desc := f.rd, n := regs, idx := 3 }] }

/-- A store of `n` bytes from `regs` registers (R247). -/
def store (n regs : Nat) (f : MForm) (s : State) : Out :=
  memRun (storeSpec regs f) (mOrder f.ord f.sco) false (fun e => mAddr f (e.op 0).lo) n n (fun _ _ => true)
    (fun s a =>
      let s := s.threadStore a.e.targets a.p (storeBytes n (a.e.op 1)) (f.ord == 4)
      (s.finishAll a.e {}, true)) s

/-- ST8 (R247). -/
def execSt8 (f : MForm) (s : State) : Out := store 1 1 f s
/-- ST16 (R247). -/
def execSt16 (f : MForm) (s : State) : Out := store 2 1 f s
/-- ST32 (R247). -/
def execSt32 (f : MForm) (s : State) : Out := store 4 1 f s
/-- ST64 (R247). -/
def execSt64 (f : MForm) (s : State) : Out := store 8 2 f s
/-- ST128 (R247). -/
def execSt128 (f : MForm) (s : State) : Out := store 16 4 f s

/-! ### Atomics (R251 to R254) -/

/-- The width in bytes of an operation (R252). -/
def atomWidth (op : Nat) : Nat := if op = 0xE ∨ op = 0xF then 8 else 4
/-- B's type (R252). -/
def atomTy (op : Nat) : Option Nat :=
  match op with
  | 1 | 2 => some 0
  | 3 | 4 | 9 | 0xA => some 1
  | 0xB | 0xC | 0xD => some 3
  | 0xE => some 9
  | _ => none

/-- The new value and the flags of an atomic operation (R252). -/
def atomNew (op : Nat) (old b : W64) : W64 × BitVec 4 :=
  let o : W32 := old.setWidth 32
  let v : W32 := b.setWidth 32
  let r (x : W32) : W64 × BitVec 4 := (x.setWidth 64, 0)
  let f (x : FRes) : W64 × BitVec 4 := (x.1.setWidth 64, x.2)
  match op with
  | 0x0 => r (o + v)
  | 0x1 => r (if o.toInt ≤ v.toInt then o else v)
  | 0x2 => r (if o.toInt ≤ v.toInt then v else o)
  | 0x3 => r (if o.toNat ≤ v.toNat then o else v)
  | 0x4 => r (if o.toNat ≤ v.toNat then v else o)
  | 0x5 => r (o &&& v)
  | 0x6 => r (o ||| v)
  | 0x7 => r (o ^^^ v)
  | 0x8 => r v
  | 0x9 => r (if v.toNat ≤ o.toNat then 0 else o + 1)
  | 0xA => r (if o = 0 ∨ v.toNat < o.toNat then v else o - 1)
  | 0xB => f (f32.add 0 o v)
  | 0xC => f (f32.minmax false o v)
  | 0xD => f (f32.minmax true o v)
  | 0xE => (old + b, 0)
  | _ => (b, 0)

/-- The old value of an atomic: one register, or an x-pair. -/
def oldRes (d w : Nat) (old : W64) : Res := if w = 8 then Res.pair d old 2 else Res.one d (old.setWidth 32) 2

/-- Registers of an atomic's value. -/
def atomRegs (op : Nat) : Nat := if atomWidth op = 8 then 2 else 1
/-- The operands of ATOM. -/
def atomSpec (f : WForm) : OpSpec :=
  { h := f.h, edge := f.edge.toNat, srcs := [f.srcA 1 none, f.srcB (atomRegs f.ty) (atomTy f.ty)], dsts := [dstD f.d (atomRegs f.ty)] }

/-- ATOM (R253): OP in FN[9:6], ORD in FN[5:3], SCO in FN[2:0]. -/
def execAtom (f : WForm) (s : State) : Out :=
  let op := f.ty
  let w := atomWidth op
  memRun (atomSpec f) (aOrder (f.fn.extractLsb' 3 3) (f.fn.extractLsb' 0 3)) true (fun e => (e.op 0).lo) w w (fun _ _ => true)
    (fun s a =>
      let (s, bs) := (s.touch a.p).atomPlace a.e.targets a.p w
      let old : W64 := BitVec.ofNat 64 (leNat bs)
      let r := atomNew op old (if w = 8 then (a.e.op 1).x else (a.e.op 1).lo.setWidth 64)
      let s := s.threadStore a.e.targets a.p (leBytes w r.1.toNat) false
      (s.finishAll a.e { oldRes f.d.toNat w old with fpf := r.2 }, true)) s

/-- The width of CAS, in RA. -/
def casWide (f : VForm) : Bool := f.ra.extractLsb' 0 3 == 1
/-- The operands of CAS: the address in A, the comparand in B, the new value in C. -/
def casSpec (f : VForm) : OpSpec :=
  let nr := if casWide f then 2 else 1
  { h := f.h, edge := f.edge.toNat,
    srcs := [{ reg := f.a.toNat, idx := 0 }, f.srcB nr none, { reg := f.c.toNat, desc := rcsDesc 0 f.rb f.rcs, n := nr, idx := 2 }],
    dsts := [dstD f.d nr] }

/-- CAS (R254): ORD, SCO and WIDTH in RA. -/
def execCas (f : VForm) (s : State) : Out :=
  let wide := casWide f
  let w := if wide then 8 else 4
  let val (x : Opnd) : W64 := if wide then x.x else x.lo.setWidth 64
  memRun (casSpec f) (aOrder (f.ra.extractLsb' 6 3) (f.ra.extractLsb' 3 3)) true (fun e => (e.op 0).lo) w w
    (fun s a => leNat ((s.touch a.p).readPlace a.p w) == (val (a.e.op 1)).toNat)
    (fun s a =>
      let (s, bs) := (s.touch a.p).atomPlace a.e.targets a.p w
      let old : W64 := BitVec.ofNat 64 (leNat bs)
      let hit := old == val (a.e.op 1)
      let s := if hit then s.threadStore a.e.targets a.p (leBytes w (val (a.e.op 2)).toNat) false else s
      (s.finishAll a.e (oldRes f.d.toNat w old), hit)) s

/-! ### Fences and drains (R104, R110, R255, R256) -/

/-- A FENCE.rel at `.core` or wider makes the thread's later relaxed writes releases (R104); one of the save routine is not the program's
(R113). That each of them is one, and not only the next, is read from R104 (log 132). -/
def Core.fence (k : Core) (t : Nat) : Core := if k.aside t then k else k.updThread t (fun th => { th with fenced := true })

/-- FENCE for one thread (R104). It orders the thread's earlier global atomics, and so waits for them. -/
def State.fenceOne (s : State) (ord : Order) (t : Nat) : State :=
  let c := s.cur.core
  let (s, relOk) := s.releaseReady c [t] (wide := ord.wideRel)
  if !relOk then s.updThread c t (fun th => th.wait .release)
  else
    let (s, proOk) := if ord.remote then s.promoteReady c [t] ((s.core c).thread t).acqLines else (s, true)
    if !proOk then s.updThread c t (fun th => th.wait .promote)
    else
      let s := if ord.wideAcq then s.updCore c (fun k => k.acqInvalidateBy t []) else s
      let s := if ord.acq then s.updCore c (fun k => k.acquiredBy t) else s
      let s := if ord.marks then s.updCore c (fun k => (k.relMarkBy t).fence t) else s
      s.finish t {}

/-- FENCE (R255): ORD in FN[2:0], SCO in FN[5:3]. -/
def execFence (f : SForm) (s : State) : Out :=
  .next (runExecs { h := f.h } (fun s e => s.fenceOne (aOrder (f.fn.extractLsb' 0 3) (f.fn.extractLsb' 3 3)) e.lead) s)

/-- The dirty non-temporal lines of a core, with their regions (R110). -/
def Core.ntDirty (k : Core) : List (Nat × Nat) :=
  k.lines.filterMap (fun e => match k.regionAt (e.1 * 256) with
    | some r => if 2 ≤ e.2.st ∧ e.2.nt = true then some (r, e.1) else none
    | none => none)

/-- What NTDRAIN of thread `t` waits for, its write-backs asked for (R110). -/
def Core.startDrain (k : Core) (t : Nat) : Core :=
  let ls := k.ntDirty
  let k' := ls.foldl (fun (k : Core) (e : Nat × Nat) => k.startWback e.1 e.2) k
  let r : RelSet := { lines := ls.map (fun (e : Nat × Nat) => e.2), cmds := (k.thread t).ntCmds }
  k'.updThread t (fun th => { th with relSet := some r })

/-- NTDRAIN for one thread (R110). -/
def State.drainOne (s : State) (t : Nat) : State :=
  let c := s.cur.core
  let s := if ((s.core c).thread t).relSet.isSome then s else s.updCore c (fun k => k.startDrain t)
  match ((s.core c).thread t).relSet with
  | some r => if r.empty then s.finish t {} else s.updThread c t (fun th => th.wait .release)
  | none => s.finish t {}

/-- NTDRAIN (R256). -/
def execNtdrain (f : SForm) (s : State) : Out := .next (runExecs { h := f.h } (fun s e => s.drainOne e.lead) s)

/-! ### Events of windows and promotion (R77, R101) -/

/-- WINDOW_ACCESS_ACCEPTED (R77): the banks accept the accesses of the thread's issue; its threads issue again and perform them. -/
def execWindowAccessAccepted (core tid : Nat) (s : State) : Out :=
  match ((s.core core).thread tid).block with
  | some (.window _ all) =>
    .next (s.updCore core (fun k => { k with threads := k.threads.mapVal (fun _ (th : Thread) =>
      match th.block with
      | some (.window _ a) => if a = all then { th with block := none, winOk := true } else th
      | _ => th) }))
  | _ => .next s

/-- PROMOTION_REQUEST (R101): a core writes back the lines of its lazy regions that were dirtied before its latest release. -/
def execPromotionRequest (core : Nat) (s : State) : Out :=
  .next (s.updCore core (fun (k : Core) =>
    if !k.promoReq then k
    else
      let ls : List (Nat × Nat) := k.lazyDirty.filter (fun e => (k.line e.2).st == 3)
      let k := ls.foldl (fun (k : Core) (e : Nat × Nat) => k.startWback e.1 e.2) k
      { k with promoReq := false, promoLines := k.promoLines ++ (ls.map (·.2)).filter (fun l => !k.promoLines.contains l) }))

end Sys2Proof.Machine
end

