-- ==== Sys2Proof/Machine/MapUnit.lean ====
section
/-! DEFINITION. The map unit: RMAP, and the events that complete line fills, write-backs, forwarded writes and instruction fetches
(R78 to R82, R88, R168, R277). -/

namespace Sys2Proof.Machine
open Sys2Proof

/-! ### Operations in progress -/

def Core.dropMop (k : Core) (id : Nat) : Core := { k with mops := k.mops.filter (fun m => m.id != id) }

/-- The operation of a line. -/
def Core.fillOf (k : Core) (l : Nat) : Option MOp :=
  k.mops.find? (fun m => match m.kind with | .fill x _ => x == l | _ => false)
def Core.wbackOf (k : Core) (l : Nat) : Option MOp :=
  k.mops.find? (fun m => match m.kind with | .wback x => x == l | _ => false)
/-- The oldest forwarded write of a region; the others wait behind it (R81). -/
def Core.fwdOf (k : Core) (r : Nat) : Option MOp :=
  k.mops.find? (fun m => match m.kind with | .fwd x _ _ => x == r | _ => false)

/-- The translation of an operation, or its failure (R88); `memErr` is an uncorrectable memory error (R393). -/
def State.mopXlat (s : State) (c : Nat) (m : MOp) (acc : Nat) (memErr : Bool) : XAns :=
  match m.xs with
  | .failed _ => .bad
  | .idle => if memErr then .bad else s.getXlat (.mop c m.id) m.xl m.pasid m.va acc
  | _ => .wait s

/-- Every live thread of the device that waits for scratchpad bytes. -/
def State.memWaiters (s : State) : List (Nat × Nat × List (Nat × Nat × Nat) × List (Nat × Nat × Nat)) :=
  s.cores.flatMap (fun e => e.2.threads.filterMap (fun t => match t.2.block with
    | some (.mem own all) => if t.2.live then some (e.1, t.1, own, all) else none
    | _ => none))

def touchesLine (c l : Nat) (bs : List (Nat × Nat × Nat)) : Bool := bs.any (fun b => b.1 == c && (linesOf b.2.1 b.2.2).contains l)
def touchesRange (c lo hi : Nat) (bs : List (Nat × Nat × Nat)) : Bool :=
  bs.any (fun b => b.1 == c && decide (b.2.1 < hi ∧ lo < b.2.1 + b.2.2))

/-- A thread that waited goes back to issue. -/
def Thread.unblock (th : Thread) : Thread := { th with block := none }

/-- The threads whose own bytes meet `hits` trap; those that only waited for their issue go back to it (R88). -/
def State.failWaiters (s : State) (hits : List (Nat × Nat × Nat) → Bool) (cause : Cause) (v : W64) : State :=
  s.memWaiters.foldl (fun s w =>
    if hits w.2.2.1 then s.trap w.1 w.2.1 cause ((s.core w.1).thread w.2.1).pc v
    else if hits w.2.2.2 then s.updThread w.1 w.2.1 Thread.unblock
    else s) s

/-- The commands of the device that wait for a fill of this line fail with it (R280). -/
def State.failFills (s : State) (c l va : Nat) : State :=
  { s with cores := s.cores.mapVal (fun _ (k : Core) => { k with cmds := k.cmds.map (fun m =>
      if m.fills.contains (c, l) && m.fails.isNone then { m with fails := some (BitVec.ofNat 64 va) } else m) }) }

/-! ### Fills (R80, R88, R100) -/

/-- A fill fails: the line stays invalid, and what waits for it is told (R88). -/
def State.fillFails (s : State) (c l : Nat) (m : MOp) : State :=
  let s := s.updCore c (fun k =>
    let k := (k.dropMop m.id).setLine l { k.line l with filling := false, refill := false }
    match k.regionAt (l * 256) with
    | some r => { k with regions := Map.put k.regions r ((k.region r).failLine 5 m.va) }
    | none => k)
  (s.failFills c l m.va).failWaiters (touchesLine c l) .copyerr (BitVec.ofNat 64 m.va)

/-- A write of the core to this line that memory has not seen yet: a fill reads after it (R81, R94). -/
def Core.fwdDue (k : Core) (va : Nat) : Bool :=
  k.mops.any (fun m => match m.kind with | .fwd _ _ _ => m.va / 256 == va / 256 | _ => false)

/-- The 16-byte chunk `i` of a line. -/
def chunkAt (bs : List Byte) (i : Nat) : List Byte := (bs.drop (16 * i)).take 16

/-- The bytes of a fill: a chunk that was read before the others stays as it was read (R97). -/
def MOp.filled (m : MOp) (bs : List Byte) : List Byte :=
  if m.early = [] then bs else (List.range 16).flatMap (fun i => (Map.find m.early i).getD (chunkAt bs i))

/-- A fill's bytes arrive. A line that an acquire has met meanwhile is filled again (R100). -/
def State.fillDone (s : State) (c l : Nat) (m : MOp) (x : Xlat) : State :=
  let bs := m.filled (s.readLoc (x.at m.va) 256)
  s.updCore c (fun k =>
    if (k.line l).refill then (k.setLine l { k.line l with refill := false }).updMop m.id (fun m => { m with xl := [], early := [] })
    else
      let k' := { k with scratch := Map.setRange Config.blank k.scratch (l * 256) bs }
      ((k'.dropMop m.id).forget l).setLine l { k.line l with st := 1, filling := false })

/-- LINE_FILL_COMPLETE (R80, R88). -/
def execLineFillComplete (core line : Nat) (memErr : Bool) (s : State) : Out :=
  match (s.core core).fillOf line with
  | none => .next s
  | some m =>
    if (s.core core).fwdDue m.va then .next s
    else match s.mopXlat core m 0 memErr with
      | .bad => .next (s.fillFails core line m)
      | .wait s => .next s
      | .have x s => .next (s.fillDone core line m x)

/-! ### Write-backs (R80, R81, R88, R395) -/

/-- A write-back fails: the line stays dirty, and the WBACK or RUNMAP that asked carries the failure (R88). Whatever waits for the line goes
on: a release, and NTDRAIN and a promotion alike (R99, logs 122, 123). -/
def State.wbackFails (s : State) (c l : Nat) (m : MOp) : State :=
  s.updCore c (fun k =>
    let k := (k.dropMop m.id).setLine l { k.line l with wback := false }
    let k := match k.regionAt (l * 256) with
      | some r => { k with regions := Map.put k.regions r ((k.region r).failLine 6 m.va) }
      | none => k
    let k := { k with cmds := k.cmds.map (fun (d : Cmd) =>
      if (d.op == 0xA1 || d.op == 0xA2) && d.started && d.fails.isNone &&
          (match d.rel with | some r => r.lines.contains l | none => false) then { d with fails := some (BitVec.ofNat 64 m.va) } else d) }
    k.relDropLine l)

/-- What a write-back of `bs` leaves in memory, which holds `old`: a chunk that was written before the others, and has not changed since, is not
written again (R97). -/
def MOp.written (m : MOp) (old bs : List Byte) : List Byte :=
  if m.early = [] then bs
  else (List.range 16).flatMap (fun i => if Map.find m.early i = some (chunkAt bs i) then chunkAt old i else chunkAt bs i)

/-- The operation counts its write once (R395). -/
def State.countMop (s : State) (m : MOp) (x : Xlat) : State := if m.counted then s else s.countWrite x

/-- A WBACK or RUNMAP that waits for the line has written 256 bytes more (R348). -/
def Core.lineWritten (k : Core) (l : Nat) : Core :=
  { k with cmds := k.cmds.map (fun (d : Cmd) =>
      if (d.op == 0xA1 || d.op == 0xA2) && (match d.rel with | some r => r.lines.contains l | none => false) then { d with done := d.done + 256 } else d) }

/-- A line is written to memory and clean. -/
def State.wbackDone (s : State) (c l : Nat) (m : MOp) (x : Xlat) : State :=
  let bs := m.written (s.readLoc (x.at m.va) 256) (Map.getRange Config.blank (s.core c).scratch (l * 256) 256)
  ((s.countMop m x).writeLoc (x.at m.va) bs).updCore c (fun k =>
    (((k.dropMop m.id).setLine l { k.line l with st := 1, nt := false, wback := false }).lineWritten l).relDropLine l)

/-- One 16-byte chunk of a line moves before the others (R97): a fill's is read, a write-back's is written. -/
def State.lineChunk (s : State) (c id i : Nat) : State :=
  match (s.core c).mop? id with
  | none => s
  | some m =>
    let keep (s : State) (xl : List Xlat) (bs : List Byte) : State :=
      s.updCore c (fun k => k.updMop id (fun m => { m with early := Map.put m.early i bs, counted := true, xl := xl }))
    if 16 ≤ i then s
    else match m.kind with
      | .fill _ _ =>
        if (s.core c).fwdDue m.va then s
        else match s.mopXlat c m 0 false with
          | .have x s => keep s m.xl (s.readLoc (x.at (m.va + 16 * i)) 16)
          | _ => s
      | .wback l =>
        match s.mopXlat c m 1 false with
        | .have x s' =>
          let bs := chunkAt (Map.getRange Config.blank (s.core c).scratch (l * 256) 256) i
          if !m.counted && s'.migrating x then s else keep ((s'.countMop m x).writeLoc (x.at (m.va + 16 * i)) bs) [x] bs
        | _ => s
      | _ => s

/-- LINE_WRITEBACK_COMPLETE (R80, R88). The page of a migration is waited for, unless the
write is counted (R396). -/
def execLineWritebackComplete (core line : Nat) (memErr : Bool) (s : State) : Out :=
  match (s.core core).wbackOf line with
  | none => .next s
  | some m => match s.mopXlat core m 1 memErr with
    | .bad => .next (s.wbackFails core line m)
    | .wait s => .next s
    | .have x s' => if !m.counted && s'.migrating x then .next (s.updCore core (fun k => k.updMop m.id (fun m => { m with xl := [] })))
        else .next (s'.wbackDone core line m x)

/-- NT_WRITEBACK (R81): the map unit writes a dirty non-temporal line back of its own accord. -/
def execNtWriteback (core line : Nat) (memErr : Bool) (s : State) : Out :=
  let k := s.core core
  match k.regionAt (line * 256) with
  | some r =>
    if 2 ≤ (k.line line).st ∧ (k.line line).nt = true then
      execLineWritebackComplete core line memErr (s.updCore core (fun k => k.startWback r line))
    else .next s
  | none => .next s

/-! ### Forwarded writes (R81, R88) -/

/-- FORWARDED_WRITE_PERFORM (R81, R88): the oldest forwarded write of a region. -/
def execForwardedWritePerform (core region : Nat) (memErr : Bool) (s : State) : Out :=
  match (s.core core).fwdOf region with
  | none => .next s
  | some m =>
    let bytes := match m.kind with | .fwd _ bs _ => bs | _ => []
    match s.mopXlat core m 1 memErr with
    | .bad => .next (s.updCore core (fun k =>
        let k := (k.dropMop m.id).relDropFwd m.id
        { k with regions := Map.put k.regions region ((k.region region).failLine 6 (m.va / 256 * 256)) }))
    | .wait s => .next s
    | .have x s' =>
      if s'.migrating x then .next (s.updCore core (fun k => k.updMop m.id (fun m => { m with xl := [] })))
      else .next (((s'.countWrite x).writeLoc (x.at m.va) bytes).updCore core (fun k => (k.dropMop m.id).relDropFwd m.id))

/-! ### Instruction fetch (R168) -/

/-- The threads that wait for a line of the instruction cache. -/
def Core.fetchWaiters (k : Core) (key : Nat) : List Nat :=
  k.liveTids.filter (fun t => (k.thread t).block == some (.fetch key))

/-- Eight bytes, little-endian, as words. -/
def wordsOf : Nat → List Byte → List W64
  | 0, _ => []
  | n + 1, bs => BitVec.ofNat 64 (leNat (bs.take 8)) :: wordsOf n (bs.drop 8)

/-- The instruction cache takes a line; a full cache gives up another, and which one is open (R3, log 98). -/
def putIline (victim : Nat) (m : Map (List W64)) (line : Nat) (ws : List W64) : Map (List W64) :=
  let room := m.length < Config.icacheLines || (Map.find m line).isSome
  Map.put (if room then m else m.eraseIdx (victim % m.length)) line ws

/-- ICACHE_FILL (R168): a line arrives, or the threads that wait for it trap COPYERR. A lane that only waits for another's target goes back to
issue (R185). -/
def execIcacheFill (core line : Nat) (memErr : Bool) (s : State) : Out :=
  let k := s.core core
  match k.mops.find? (fun m => m.kind == .ifetch && m.pasid * 2 ^ 56 + m.va / 256 == line) with
  | none => .next s
  | some m => match s.mopXlat core m 3 memErr with
    | .bad => .next ((k.fetchWaiters line).foldl
        (fun s t => s.trap core t .copyerr ((s.core core).thread t).pc (BitVec.ofNat 64 m.va)) (s.updCore core (fun k => k.dropMop m.id)))
    | .wait s => .next s
    | .have x s =>
      let ws := wordsOf 32 (s.readLoc (x.at m.va) 256)
      .next (s.tickFresh.updCore core (fun k => { k.dropMop m.id with icache := putIline (Config.freeNat s.fresh) k.icache line ws }))

/-! ### RMAP (R79, R277) -/

/-- The size of local scratchpad (R75, R276). -/
def localSize (c : Nat) : Nat := if isCtl c then 0x40000 else 0xC0000

/-- The status that an RMAP reports, the first cause that applies (R79). A range of size 0 is no range of R78. -/
def Core.rmapStatus (k : Core) (c slot va spbase size wb fill : Nat) : Nat :=
  if wb = 3 ∨ fill = 3 ∨ (wb = 1 ∧ fill = 1) then 4
  else if spbase % 256 ≠ 0 ∨ size % 256 ≠ 0 ∨ va % 256 ≠ 0 ∨ size = 0 ∨ localSize c < spbase + size then 3
  else if (k.region slot).isLive then 2
  else if (List.range 16).any (fun i => (k.region i).isLive &&
      decide (spbase < (k.region i).spbase.toNat + (k.region i).size.toNat ∧ (k.region i).spbase.toNat < spbase + size)) then 1
  else 0

/-- The line states that RMAP sets (R80). -/
def Core.setLines (k : Core) (ls : List Nat) (st : Nat) : Core := ls.foldl (fun k l => k.setLine l { st := st }) k

/-- RMAP for one execution. -/
def State.rmapOne (s : State) (f : EForm) (e : Exec) : State :=
  let c := s.cur.core
  let k := s.core c
  let va := (e.op 0).x.toNat
  let sp := (e.op 1).lo.toNat
  let size := (e.op 1).hi.toNat
  let slot := f.x.toNat % 16
  let fill := f.x.toNat / 16 % 4
  let wb := f.x.toNat / 64 % 4
  let st := k.rmapStatus c slot va sp size wb fill
  if st ≠ 0 then s.finishAll e (Res.one f.a.toNat (BitVec.ofNat 32 st) 1)
  else if k.ranges.any (fun r => r.meets sp size) then
    e.targets.foldl (fun s t => s.updThread c t (fun th => th.stall e.ops [f.a.toNat] (.rmap sp (sp + size)))) s
  else
    let r : Region := { spbase := (e.op 1).lo, size := (e.op 1).hi, va := (e.op 0).x,
                        ctl := 0x80000000#32 ||| BitVec.ofNat 32 (wb * 4 + fill) }
    (s.updCore c (fun k => { k.setLines (linesOf sp size) (if fill = 2 then 1 else 0) with regions := Map.put k.regions slot r })).finishAll e
      (Res.one f.a.toNat 0 1)

/-- The operands of RMAP. -/
def rmapSpec (f : EForm) : OpSpec :=
  { h := f.h, srcs := [{ reg := f.b.toNat, n := 2, idx := 1 }, { reg := f.c.toNat, n := 2, idx := 2 }], dsts := [{ reg := f.a.toNat, idx := 0 }] }

/-- RMAP (R277): VA in B, SPBASE and SIZE in C, the status in A. -/
def execRmap (f : EForm) (s : State) : Out :=
  .next (runExecs (rmapSpec f) (fun s e => s.rmapOne f e) s)

end Sys2Proof.Machine
end

