-- ==== Sys2Proof/Machine/CopyUnit.lean ====
section
/-! DEFINITION. The copy unit: its commands, their issue, start and retirement, the transfer barriers and the share sets (R83 to R91,
R105, R111, R275, R278 to R287, R291, R406, R407). -/

namespace Sys2Proof.Machine
open Sys2Proof

/-! ### Issue (R83, R85, R275) -/

def EForm.sigTb (f : EForm) : Option Nat := if f.sig then some f.tb.toNat else none
def EForm.waitTb (f : EForm) : Option Nat := if f.wait then some f.wid.toNat else none

/-- Registers that a command writes at retirement are pending until then (R87, R274). -/
def Thread.addPend (th : Thread) (reg n id : Nat) : Thread :=
  if reg = 0 then th
  else { th with pend := th.pend.filter (fun p => !((List.range n).any (fun i => reg + i == p.reg))) ++
                   (List.range n).map (fun i => { reg := reg + i, src := .cmd id }) }

/-- The order of a GATOM, from X. -/
def Cmd.order (m : Cmd) : Order := aOrder (BitVec.ofNat 3 (m.x / 8)) (BitVec.ofNat 3 m.x)

/-- A non-temporal copy: FN[48] of CPY, CTL[4] of CPYD (R109, R279, R281). -/
def Cmd.nonTemporal (m : Cmd) : Bool := (m.op == 0xA3 && m.fn.testBit 2) || (m.op == 0xA4 && m.x == 1)

/-- No room in the copy unit: the thread issues again, in the lane order of the issue it belongs to (R83, R275, R284). -/
def Thread.waitRoom (th : Thread) (entries batch : Nat) : Thread := { th.wait (.copyQueue 1 entries) with batch := some batch }

/-- A thread has issued a command. A SEMWAIT and an acquiring GATOM hold it until they have been performed (R94, R285); a non-temporal
copy stands outside its releases (R109). -/
def Thread.issued (th : Thread) (m : Cmd) (last : Bool) : Thread :=
  let th := th.addPend m.reg (if m.wide then 2 else 1) m.id
  let th := if m.nonTemporal then { th with ntCmds := th.ntCmds ++ [m.id] } else th
  if m.op = 0xA7 then th.wait (.sem m.id)
  else if m.op = 0xA6 && m.order.acq then (th.next last).wait (.order m.id)
  else th.next last

/-- An issue that blocks for room takes its number, which no later issue shares (R284). -/
def Core.takeBatch (k : Core) (batch : Nat) : Core := { k with nextId := max k.nextId (batch + 1) }

/-- The threads of an execution block until there is room (R83, R275). -/
def State.blockRoom (s : State) (e : Exec) (entries batch : Nat) : State :=
  let c := s.cur.core
  e.targets.foldl (fun s t => s.updThread c t (fun th => th.waitRoom entries batch)) (s.updCore c (fun k => k.takeBatch batch))

/-- The last acquire that stands before the issue of an execution (R105). -/
def Core.acqOf (k : Core) (ts : List Nat) : Nat := ts.foldl (fun m t => max m (k.thread t).acqAt) 0

/-- Queues a command for an execution, or blocks its threads until there is room (R83, R275). -/
def State.enqueue (s : State) (e : Exec) (f : EForm) (batch : Nat) (m : Cmd) : State :=
  let c := s.cur.core
  let k := s.core c
  let batch := ((k.thread e.lead).batch).getD batch
  if !k.room 1 m.ranges.length then s.blockRoom e m.ranges.length batch
  else
    let m := { m with id := k.nextId, fn := f.fn.toNat, tid := e.lead, targets := e.targets, sig := EForm.sigTb f,
                      wait := EForm.waitTb f, pasid := k.cmdPasid, raw := k.saving && k.atSl e.lead, aside := k.aside e.lead, batch := batch,
                      acqAt := k.acqOf e.targets }
    let s := s.updCore c (fun k => { k with cmds := k.cmds ++ [m], nextId := k.nextId + 1 })
    e.targets.foldl (fun s t => s.updThread c t (fun th => th.issued m s.cur.last)) s

/-- A trap for every thread of an execution. -/
def State.trapExec (s : State) (e : Exec) (cause : Cause) (v : W64) : State :=
  e.targets.foldl (fun s t => s.trap s.cur.core t cause s.cur.pc v) s

/-- Runs an engine command: `build` gives the command of an execution or its trap. -/
def runCmd (o : OpSpec) (f : EForm) (build : State → Exec → Except (Cause × W64) Cmd) (s : State) : Out :=
  let batch := (s.core s.cur.core).nextId
  .next (runExecs o (fun s e => match build s e with
    | .ok m => s.enqueue e f batch m
    | .error (cz, v) => s.trapExec e cz v) s)

/-- The first value of a list that is no multiple of its alignment (R75, R279). -/
def misaligned (vs : List (Nat × Nat)) : Option Nat := (vs.find? (fun e => e.1 % e.2 != 0)).map (·.1)

/-- The range entry of `n` bytes at an offset of the map (R83). That of a copy through a window stands in the scoreboard of the issuing core
alone (log 121). -/
def State.rangeOf (s : State) (c off n : Nat) (wr : Bool) : List Rng :=
  match s.place c true off n with
  | some p => mkRng p.raw n wr
  | none => []

/-- An offset in the windows of the share set (R75). -/
def inWindow (off : Nat) : Bool := decide (0x100000 ≤ off ∧ off < 0x900000)

/-- SPRANGE for a range of bytes; a range without bytes lies inside. `win` admits the windows. -/
def State.outside (s : State) (e : Exec) (win : Bool) (off n : Nat) : Bool :=
  n != 0 && ((s.place s.cur.core ((s.core s.cur.core).atSl e.lead) off n).isNone || (!win && inWindow off))

/-! ### Regions (R278) -/

/-- WBACK and RUNMAP for one execution: a range entry while the slot is live. -/
def regionCmd (op : Nat) (f : EForm) (s : State) : Out :=
  runCmd { h := f.h } f (fun s _ =>
    let r := (s.core s.cur.core).region (f.x.toNat % 16)
    .ok { id := 0, op := op, tid := 0, pasid := 0, x := f.x.toNat % 16,
          ranges := if r.isLive then mkRng r.spbase.toNat r.size.toNat false else [] }) s

/-- RUNMAP (R278). -/
def execRunmap (f : EForm) (s : State) : Out := regionCmd 0xA1 f s
/-- WBACK (R278). -/
def execWback (f : EForm) (s : State) : Out := regionCmd 0xA2 f s

/-! ### CPY (R279) -/

/-- CPY of one execution. -/
def buildCpy (f : EForm) (s : State) (e : Exec) : Except (Cause × W64) Cmd :=
  let kind := f.fn.toNat % 4
  let dg := kind = 1 ∨ kind = 3
  let sg := kind = 0 ∨ kind = 3
  let dst := if dg then (e.op 0).x.toNat else (e.op 0).lo.toNat
  let src := if sg then (e.op 1).x.toNat else (e.op 1).lo.toNat
  let n := (e.op 2).lo.toNat
  let c := s.cur.core
  match misaligned [(n, 16), (dst, 16), (src, 16)] with
  | some v => .error (.misalign, BitVec.ofNat 64 v)
  | none =>
    if ¬dg ∧ s.outside e (kind == 2) dst n then .error (.sprange, BitVec.ofNat 64 dst)
    else if ¬sg ∧ s.outside e (kind == 2) src n then .error (.sprange, BitVec.ofNat 64 src)
    else .ok
      { id := 0, op := 0xA3, tid := 0, pasid := 0, a := BitVec.ofNat 64 dst, b := BitVec.ofNat 64 src, c := BitVec.ofNat 64 n
        ranges := (if dg then [] else s.rangeOf c dst n true) ++ (if sg then [] else s.rangeOf c src n false)
        moves := if n = 0 then [] else [{ src := if sg then .glob src else .spad src, dst := if dg then .glob dst else .spad dst, n := n }] }

/-- The operands of CPY: the destination in A, the source in B, the bytes in C. -/
def cpySpec (f : EForm) : OpSpec :=
  let kind := f.fn.toNat % 4
  { h := f.h, srcs := [{ reg := f.a.toNat, n := if kind = 1 ∨ kind = 3 then 2 else 1, idx := 0 },
                       { reg := f.b.toNat, n := if kind = 0 ∨ kind = 3 then 2 else 1, idx := 1 },
                       { reg := f.c.toNat, idx := 2 }] }

/-- CPY (R279): destination in A, source in B, bytes in C. -/
def execCpy (f : EForm) (s : State) : Out :=
  runCmd (cpySpec f) f (buildCpy f) s

/-! ### CPYD (R281, R282) -/

/-- The 16 words of a descriptor. -/
def descWords (bs : List Byte) : List W32 := (List.range 16).map (fun i => word32 ((bs.drop (4 * i)).take 4))
def dW (d : List W32) (i : Nat) : Nat := (d.getD i 0).toNat
def dX (d : List W32) (i : Nat) : Nat := dW d i + dW d (i + 1) * 2 ^ 32
/-- A signed 64-bit stride. -/
def dI (d : List W32) (i : Nat) : Int := (BitVec.ofNat 64 (dX d i)).toInt
def dShape (d : List W32) : Nat := dW d 0 / 4 % 4

/-- The bytes between the lowest and the highest byte that the rows take in scratchpad. -/
def dExtent (d : List W32) : Nat := (dW d 6 - 1) * dW d 13 + (dW d 5 - 1) * dW d 12 + dW d 1

/-- The byte offset of the first bad field (R281); the ranges are judged last. -/
def descBad (c : Nat) (d : List W32) : Option Nat :=
  let ix := dShape d = 1 ∨ dShape d = 2
  if 32 ≤ dW d 0 ∨ dShape d = 3 ∨ 2 ≤ dW d 0 % 4 then some 0
  else if dW d 1 % 16 ≠ 0 ∨ dW d 1 < 16 ∨ 65536 < dW d 1 then some 4
  else if dX d 2 % 16 ≠ 0 then some 8
  else if dW d 4 % 16 ≠ 0 then some 16
  else if dW d 5 = 0 ∨ 65536 < dW d 5 then some 20
  else if dW d 6 = 0 ∨ 4096 < dW d 6 ∨ (dShape d ≠ 0 ∧ dW d 6 ≠ 1) then some 24
  else if dW d 7 ≠ 0 then some 28
  else if dX d 8 % 16 ≠ 0 then some 32
  else if dX d 10 % 16 ≠ 0 then some 40
  else if dW d 12 % 16 ≠ 0 then some 48
  else if dW d 13 % 16 ≠ 0 then some 52
  else if ix ∧ dW d 14 % 4 ≠ 0 then some 56
  else if dW d 15 ≠ 0 then some 60
  else if localSize c < dW d 4 + dExtent d then some 16
  else if ix ∧ localSize c < dW d 14 + 4 * dW d 5 then some 56
  else none

/-- The rows in ascending (plane, row) order (R282). -/
def descMoves (d : List W32) (idx : Nat → Nat) : List CMove :=
  (List.range (dW d 6)).flatMap (fun (p : Nat) => (List.range (dW d 5)).map (fun (r : Nat) =>
    let k : Nat := if dShape d = 0 then r else idx r
    let g := BitVec.ofInt 64 ((dX d 2 : Int) + (p : Int) * dI d 10 + (k : Int) * dI d 8)
    let sp : Side := .spad (dW d 4 + p * dW d 13 + r * dW d 12)
    if dW d 0 % 4 = 0 then { src := .glob g.toNat, dst := sp, n := dW d 1 } else { src := sp, dst := .glob g.toNat, n := dW d 1 }))

/-- CPYD of one execution; the descriptor's bytes are at hand. -/
def buildCpyd (off : Nat) (d : List W32) (s : State) : Except (Cause × W64) Cmd :=
  let c := s.cur.core
  match descBad c d with
  | some b => .error (.copyerr, BitVec.ofNat 64 (2 ^ 63 + b * 2 ^ 32 + off % 2 ^ 24))
  | none =>
    let ix := dShape d = 1 ∨ dShape d = 2
    .ok { id := 0, op := 0xA4, tid := 0, pasid := 0, a := BitVec.ofNat 64 off, x := dW d 0 / 16 % 2
          ranges := mkRng (dW d 4) (dExtent d) (dW d 0 % 4 == 0) ++ (if ix then mkRng (dW d 14) (4 * dW d 5) false else [])
          moves := if ix then [] else descMoves d (fun r => r)
          desc := if ix then d else [] }

/-- The operand of CPYD: the offset of its descriptor in A. -/
def cpydSpec (f : EForm) : OpSpec := { h := f.h, srcs := [{ reg := f.a.toNat, idx := 0 }] }

/-- CPYD for one execution: the descriptor is read at issue, like a load of its 64 bytes. -/
def State.cpydOne (f : EForm) (batch : Nat) (s : State) (e : Exec) : State :=
  let c := s.cur.core
  let off := (e.op 0).lo.toNat
  if off % 64 ≠ 0 then s.trapExec e .misalign (BitVec.ofNat 64 off)
  else match s.place c ((s.core c).atSl e.lead) off 64 with
    | none => s.trapExec e .sprange (BitVec.ofNat 64 off)
    | some p =>
      let a : Access := { e := e, p := p, n := 64 }
      if a.bytes.any (fun b => (s.core b.1).stalls b.2.1 b.2.2) then
        (s.fillLines [a] false).waitAll (cpydSpec f) [a] (fun a => .mem a.bytes a.bytes)
      else
        let s := s.touch p
        match buildCpyd off (descWords (s.readPlace p 64)) s with
        | .ok m => s.enqueue e f batch m
        | .error (cz, v) => s.trapExec e cz v

/-- CPYD (R281). -/
def execCpyd (f : EForm) (s : State) : Out :=
  .next (runExecs (cpydSpec f) (State.cpydOne f (s.core s.cur.core).nextId) s)

/-! ### ACPY and ACLR (R283, R291) -/

/-- ACPY of one execution. -/
def buildAcpy (f : EForm) (s : State) (e : Exec) : Except (Cause × W64) Cmd :=
  let toAcc := f.fn.toNat % 2 = 1
  let conv := f.fn.toNat / 2 % 4
  let a := (e.op 0).lo.toNat
  let b := (e.op 1).lo.toNat
  let n := (e.op 2).lo.toNat
  let row0 := b % 512
  let col0 := b / 512 % 128
  let rows := n % 1024
  let cols := n / 65536 % 256
  let w := if conv = 0 then 4 else 2
  let len := cols * w
  let stride := if f.x = 0 then (len + 15) / 16 * 16 else f.x.toNat * 16
  if 65536 ≤ b then .error (.matparam, 0x21)
  else if n / 1024 % 64 ≠ 0 ∨ 2 ^ 24 ≤ n ∨ rows = 0 ∨ 512 < rows ∨ cols = 0 ∨ 128 < cols ∨ 512 < row0 + rows ∨ 128 < col0 + cols then
    .error (.matparam, 0x22)
  else
    let ext := (rows - 1) * stride + len
    if a % 16 ≠ 0 then .error (.misalign, BitVec.ofNat 64 a)
    else if s.outside e true a ext then .error (.sprange, BitVec.ofNat 64 a)
    else .ok
      { id := 0, op := 0xA5, tid := 0, pasid := 0, a := BitVec.ofNat 64 a, b := BitVec.ofNat 64 b, c := BitVec.ofNat 64 n, x := f.x.toNat
        ranges := s.rangeOf s.cur.core a ext (!toAcc)
        moves := (List.range rows).map (fun i =>
          let sp : Side := .spad (a + i * stride)
          let ac : Side := .acc (row0 + i) col0 conv
          if toAcc then { src := sp, dst := ac, n := len } else { src := ac, dst := sp, n := len }) }

/-- The operands of ACPY and of ACLR. -/
def acpySpec (f : EForm) : OpSpec :=
  { h := f.h, avail := .core, srcs := [{ reg := f.a.toNat, idx := 0 }, { reg := f.b.toNat, idx := 1 }, { reg := f.c.toNat, idx := 2 }] }
def aclrSpec (f : EForm) : OpSpec := { h := f.h, avail := .core, srcs := [{ reg := f.b.toNat, idx := 1 }, { reg := f.c.toNat, idx := 2 }] }

/-- ACPY (R283). -/
def execAcpy (f : EForm) (s : State) : Out :=
  runCmd (acpySpec f) f
    (buildAcpy f) s

/-- ACLR of one execution. -/
def buildAclr (_s : State) (e : Exec) : Except (Cause × W64) Cmd :=
  let b := (e.op 0).lo.toNat
  let n := (e.op 1).lo.toNat
  if 512 ≤ b then .error (.matparam, 0x21)
  else if n = 0 ∨ 512 < n ∨ 512 < b + n then .error (.matparam, 0x22)
  else .ok { id := 0, op := 0xB6, tid := 0, pasid := 0, b := BitVec.ofNat 64 b, c := BitVec.ofNat 64 n }

/-- ACLR (R291). -/
def execAclr (f : EForm) (s : State) : Out :=
  runCmd (aclrSpec f) f buildAclr s

/-! ### Global atomics and semaphores (R284, R285) -/

/-- The order of a GATOM, from X. -/
def EForm.order (f : EForm) : Order := aOrder (f.x.extractLsb' 3 3) (f.x.extractLsb' 0 3)

/-- What a release of the targets of an execution waits for (R99); the write-backs are asked for. -/
def State.captureRel (s : State) (e : Exec) : State × RelSet :=
  let c := s.cur.core
  let (k, r) := e.targets.foldl (fun (a : Core × RelSet) t => let x := a.1.startRelease t; (x.1, unionRel a.2 x.2)) (s.core c, {})
  (s.updCore c (fun _ => k), r)

def Core.isDet (k : Core) : Bool := match k.inst with | some i => i.det | none => false

/-- The width in bytes of a GATOM. -/
def gatomWidth (op : Nat) : Nat := if op = 0x10 then 4 else atomWidth op

/-- A command that acts on one global word for an execution: MISALIGN, DETVIOL, the release it makes, the command. A release at a narrow
scope follows the thread's earlier global atomics (R94). -/
def State.wordCmd (f : EForm) (op w : Nat) (det rel narrow : Bool) (regs : Nat) (batch : Nat) (s : State) (e : Exec) : State :=
  let va := (e.op 0).x
  if va.toNat % w ≠ 0 then s.trapExec e .misalign va
  else if det && (s.core s.cur.core).isDet then s.trapExec e .detviol va
  else if !(s.core s.cur.core).room 1 0 then
    s.blockRoom e 0 ((((s.core s.cur.core).thread e.lead).batch).getD batch)
  else
    let (s, r) := if rel then s.captureRel e
      else if narrow then (s, { cmds := e.targets.flatMap (s.core s.cur.core).ownAtoms }) else (s, {})
    s.enqueue e f batch
      { id := 0, op := op, tid := 0, pasid := 0, reg := f.a.toNat, wide := regs == 2, b := va, c := (e.op 1).x, x := f.x.toNat
        rel := if rel || narrow then some r else none }

/-- Registers of a GATOM's result. -/
def gatomRegs (f : EForm) : Nat := if f.fn.toNat = 0xE ∨ f.fn.toNat = 0xF then 2 else 1
/-- The operands of GATOM: the address in B, the value, or the two values, in C. -/
def gatomSpec (f : EForm) : OpSpec :=
  let pair := f.fn.toNat = 0xE ∨ f.fn.toNat = 0xF ∨ f.fn.toNat = 0x10
  { h := f.h, srcs := [{ reg := f.b.toNat, n := 2, idx := 1 }, { reg := f.c.toNat, n := if pair then 2 else 1, idx := 2 }],
    dsts := [{ reg := f.a.toNat, n := if gatomRegs f = 2 ∧ f.a = 0 then 0 else gatomRegs f, idx := 0 }] }

/-- GATOM (R284). -/
def execGatom (f : EForm) (s : State) : Out :=
  .next (runExecs (gatomSpec f) (State.wordCmd f 0xA6 (gatomWidth f.fn.toNat) true (EForm.order f).wideRel (EForm.order f).rel (gatomRegs f) (s.core s.cur.core).nextId) s)

/-- The operands of SEMWAIT. -/
def semSpec (f : EForm) : OpSpec :=
  { h := f.h, srcs := [{ reg := f.b.toNat, n := 2, idx := 1 }, { reg := f.c.toNat, idx := 2 }], dsts := [{ reg := f.a.toNat, idx := 0 }] }

/-- SEMWAIT.take (R285). -/
def execSemwaitTake (f : EForm) (s : State) : Out :=
  .next (runExecs (semSpec f) (State.wordCmd f 0xA7 4 false false false 1 (s.core s.cur.core).nextId) s)
/-- SEMWAIT.eq (R285). -/
def execSemwaitEq (f : EForm) (s : State) : Out :=
  .next (runExecs (semSpec f) (State.wordCmd f 0xA7 4 false false false 1 (s.core s.cur.core).nextId) s)
/-- SEMPOST (R111, R285): a release at `.dev`. -/
def execSempost (f : EForm) (s : State) : Out :=
  .next (runExecs (semSpec f) (State.wordCmd f 0xA8 4 false true false 1 (s.core s.cur.core).nextId) s)

/-! ### Transfer barriers (R86, R286) -/

/-- The operands of TBINIT and of TBTEST. -/
def tbinitSpec (f : EForm) : OpSpec := { h := f.h, srcs := [{ reg := f.a.toNat, idx := 0 }] }
def tbtestSpec (f : EForm) : OpSpec := { h := f.h, dsts := [{ dstD f.a 2 with idx := 0 }] }

/-- TBINIT (R286). -/
def execTbinit (f : EForm) (s : State) : Out :=
  .next (runExecs (tbinitSpec f) (fun s e =>
    let t := f.x.toNat % 16
    (s.updCore s.cur.core (fun k => { k with tbs := Map.put k.tbs t ((k.tb t).init ((e.op 0).lo.setWidth 16)) })).finishAll e {}) s)

/-- The threads of an execution have made an acquire (R104). -/
def State.acquired (s : State) (e : Exec) : State := e.targets.foldl (fun s t => s.updCore s.cur.core (fun k => k.acquiredBy t)) s

/-- TBWAIT (R86, R286): an acquire at `.core`. -/
def execTbwait (f : EForm) (s : State) : Out :=
  .next (runExecs { h := f.h } (fun s e =>
    let t := f.x.toNat % 16
    let b := (s.core s.cur.core).tb t
    if !b.complete then e.targets.foldl (fun s q => s.updThread s.cur.core q (fun th => th.wait (.tb t))) s
    else if b.fail then s.trapExec e .copyerr (0x4000000000000000 + BitVec.ofNat 64 t)
    else (s.acquired e).finishAll e {}) s)

/-- TBTEST (R86, R286): an acquire at `.core` where it reads COMPLETE as 1. -/
def execTbtest (f : EForm) (s : State) : Out :=
  .next (runExecs (tbtestSpec f) (fun s e =>
    let b := (s.core s.cur.core).tb (f.x.toNat % 16)
    (if b.complete then s.acquired e else s).finishAll e (Res.pair f.a.toNat b.bits 2)) s)

/-! ### Moves by chunks (R97) -/

/-- The place `j` destination bytes further on. -/
def Side.adv (d : Side) (j : Nat) : Side :=
  match d with
  | .glob va => .glob (va + j)
  | .spad o => .spad (o + j)
  | .acc r c v => .acc r (c + j / (if v = 0 then 4 else 2)) v

/-- The chunks of `u` bytes of a move. -/
def CMove.chunks (u : Nat) (m : CMove) : List CMove :=
  (List.range ((m.n + (u - 1)) / u)).map (fun i => { src := m.src.adv (u * i), dst := m.dst.adv (u * i), n := min u (m.n - u * i) })

/-- The single-copy-atomic unit of a command: 16 bytes, of ACPY 4 (R97). -/
def Cmd.unit (m : Cmd) : Nat := if m.op = 0xA5 then 4 else 16
def Cmd.chunks (m : Cmd) : List CMove := m.moves.flatMap (CMove.chunks m.unit)

/-- A column after the conversion of R283. -/
def accBytes (conv : Nat) (w : W32) : List Byte :=
  match conv with
  | 0 => leBytes 4 w.toNat
  | 1 => leBytes 2 (bf16.ofVal 0 (f32.unpack w)).1.toNat
  | _ => leBytes 2 (f16.ofVal 0 (f32.unpack w)).1.toNat

/-- The bytes of one end, where they can be read. -/
def State.readSide (s : State) (c : Nat) (m : Cmd) (d : Side) (n : Nat) : Option (List Byte) :=
  match d with
  | .glob va => (findTlb m.src m.pasid va false).map (fun x => s.readLoc (x.at va) n)
  | .spad o => (s.place c true o n).map (fun p => s.readPlace p n)
  | .acc r col cv => some ((List.range (n / (if cv = 0 then 4 else 2))).flatMap (fun i =>
      accBytes cv (Map.get 0 (s.core c).acc (r * 128 + col + i))))

/-- Writes words of an accumulator row. -/
def putAcc (acc : Map W32) (i : Nat) : Nat → List Byte → Map W32
  | 0, _ => acc
  | n + 1, bs => putAcc (Map.set 0 acc i (word32 (bs.take 4))) (i + 1) n (bs.drop 4)

/-- A line of a region that is invalid and fills on first touch. -/
def State.lineNeeds (s : State) (c l : Nat) : Bool :=
  let k := s.core c
  match k.regionAt (l * 256) with
  | some r => (k.region r).fill == 0 && (k.line l).st == 0
  | none => false

/-- A written line of a write-through region is valid-clean (R280). -/
def Core.cleanWritten (k : Core) (l : Nat) : Core :=
  match k.regionAt (l * 256) with
  | some r => if (k.region r).wb = 1 ∧ (k.line l).st = 0 then k.setLine l { k.line l with st := 1 } else k
  | none => k

/-- Writes the bytes at one end (R280). -/
def State.writeSide (s : State) (c : Nat) (m : Cmd) (d : Side) (bs : List Byte) : State :=
  match d with
  | .glob va => match findTlb m.src m.pasid va true with
    | some x => s.writeLoc (x.at va) bs
    | none => s
  | .spad o => match s.place c true o bs.length with
    | some p =>
      let s := s.storePlace p bs false
      if p.staging then s else s.updCore p.core (fun k => k.cleanWritten (p.off / 256))
    | none => s
  | .acc r col _ => s.updCore c (fun k => { k with acc := putAcc k.acc (r * 128 + col) (bs.length / 4) bs })

/-! ### The lines a copy must fill (R280) -/

/-- Core and line of a chunk end in scratchpad outside staging. -/
def State.sideLine (s : State) (c : Nat) (d : Side) (n : Nat) : Option (Nat × Nat) :=
  match d with
  | .spad o => match s.place c true o n with
    | some p => if p.staging then none else some (p.core, p.off / 256)
    | none => none
  | _ => none

/-- Lines read. -/
def State.readLines (s : State) (c : Nat) (m : Cmd) : List (Nat × Nat) :=
  if m.raw then [] else m.chunks.filterMap (fun h => s.sideLine c h.src h.n)

/-- Lines written, one entry for each chunk. -/
def State.writtenLines (s : State) (c : Nat) (m : Cmd) : List (Nat × Nat) := m.chunks.filterMap (fun h => s.sideLine c h.dst h.n)

/-- Where the written chunks lie, each place once. -/
def Cmd.dstOffs (m : Cmd) : List Side := (m.chunks.filter (fun h => h.n == m.unit)).map (·.dst) |>.eraseDups

/-- Lines written in part only. -/
def State.partLines (s : State) (c : Nat) (m : Cmd) : List (Nat × Nat) :=
  let whole := (m.dstOffs.filterMap (fun d => s.sideLine c d m.unit))
  (s.writtenLines c m).filter (fun l => decide ((whole.filter (· == l)).length * m.unit < 256))

/-- The lines that must be filled first. -/
def State.fillsFor (s : State) (c : Nat) (m : Cmd) : List (Nat × Nat) :=
  ((s.readLines c m ++ s.partLines c m).filter (fun l => s.lineNeeds l.1 l.2)).eraseDups

/-- Zero-fill lines that a copy reads become zeros (R80). -/
def State.touchReads (s : State) (c : Nat) (m : Cmd) : State :=
  (s.readLines c m).foldl (fun s l => s.updCore l.1 (fun k => k.touchLine l.2)) s

/-- Starts those fills; the command remembers what it waits for. -/
def State.startFills (s : State) (c : Nat) (m : Cmd) (ls : List (Nat × Nat)) : State :=
  let s := ls.foldl (fun s l => s.updCore l.1 (fun k => match k.regionAt (l.2 * 256) with
    | some r => k.startFill r l.2 false
    | none => k)) s
  s.updCore c (fun k => k.updCmd m.id (fun m => { m with fills := ls }))

/-! ### Starting (R84, R86, R275) -/

/-- The older commands of the queue. -/
def Core.older (k : Core) (id : Nat) : List Cmd := k.cmds.takeWhile (fun m => m.id != id)

def Rng.clash (a b : Rng) : Bool := (a.wr || b.wr) && decide (a.lo < b.hi ∧ b.lo < a.hi)

/-- A command on one global word: GATOM, SEMWAIT, SEMPOST. -/
def Cmd.onWord (m : Cmd) : Bool := decide (0xA6 ≤ m.op ∧ m.op ≤ 0xA8)
/-- Two commands of one thread on common bytes, which keep its program order (R94). -/
def Cmd.follows (o m : Cmd) : Bool :=
  o.targets.any m.targets.contains && decide (o.b.toNat < m.b.toNat + 8 ∧ m.b.toNat < o.b.toNat + 8 ∧ o.b.toNat / 8 = m.b.toNat / 8)

/-- Nothing holds the command back: its barrier, the ranges of older commands, an older lane's atomic, an older atomic of its thread on the
same bytes (R84, R86, R94, R284). -/
def Core.startable (k : Core) (m : Cmd) : Bool :=
  !m.started && !m.hold && m.fails.isNone && m.xs == .idle &&
    (match m.wait with | some t => (k.tb t).complete | none => true) &&
    !m.ranges.any (fun r => (k.older m.id).any (fun o => o.ranges.any r.clash)) &&
    !(m.onWord && (k.older m.id).any (fun o => o.batch == m.batch || (o.onWord && o.follows m)))

/-- The global bytes that a command touches, with the access kind of R393. -/
def Cmd.needs (m : Cmd) : List (Nat × Nat) :=
  if m.op = 0xA6 then [(m.b.toNat, 2)]
  else m.chunks.flatMap (fun h =>
    (match h.src with | .glob va => [(va, 0)] | _ => []) ++ (match h.dst with | .glob va => [(va, 1)] | _ => []))

/-- VA[51:48] = 0xF (R406). -/
def isPeer (va : Nat) : Bool := va / 2 ^ 48 == 15

/-- Collects translations, those at hand at once; at most one walk is asked for. True when all are held. -/
def State.translateAll (s : State) (c id : Nat) : List (Nat × Nat) → State × Bool
  | [] => (s, true)
  | (va, acc) :: rest =>
    match (s.core c).cmd? id with
    | none => (s, false)
    | some m =>
      if (findTlb m.src m.pasid va (acc == 1 || acc == 2)).isSome then s.translateAll c id rest
      else match s.getXlat (.cmd c id) m.src m.pasid va acc with
        | .have x s => (s.giveXlat (.cmd c id) x).translateAll c id rest
        | .wait s => (s, false)
        | .bad => (s.setXs (.cmd c id) (.failed va), false)

/-- The pages that a command writes, each once. -/
def Cmd.writePages (m : Cmd) : List Xlat :=
  onePerPage (m.needs.filterMap (fun e => if e.2 = 0 then none else findTlb m.src m.pasid e.1 true))

/-- A peer window (R406): queue pair, remote address and key, if the window admits the access. -/
def State.peer (s : State) (pasid va n : Nat) (wr : Bool) : Option (Nat × Nat × W32) :=
  let w := va / 2 ^ 40 % 256
  let e := s.pwbase.toNat + 32 * w
  let ctl := s.devNat e 4
  let off := va % 2 ^ 40
  if s.pwcount.toNat ≤ w ∨ !ctl.testBit 0 ∨ (wr && !ctl.testBit 1) = true ∨ (!wr && !ctl.testBit 2) = true ∨
      s.devNat (e + 28) 4 % 2 ^ 20 ≠ pasid ∨ s.devNat (e + 16) 8 < off + n then none
  else some (s.devNat (e + 4) 4, s.devNat (e + 8) 8 + off, BitVec.ofNat 32 (s.devNat (e + 24) 4))

/-- STATE of a queue pair (R405). -/
def State.qpState (s : State) (qp : Nat) : Nat := if qp < min 4096 s.qpcount.toNat then s.devNat (s.qpbase.toNat + 64 * qp) 1 else 0

/-- A field of a queue pair's entry. -/
def State.qpNat (s : State) (qp off n : Nat) : Nat := s.devNat (s.qpbase.toNat + 64 * qp + off) n
/-- The path MTU (R404, R405); MTU codes beyond 1 to 5 count as the nearest (log 114). -/
def State.qpMtu (s : State) (qp : Nat) : Nat := 128 * 2 ^ max 1 (min 5 (s.qpNat qp 2 1))
/-- The packets of `n` bytes: path-MTU pieces, and one for none. -/
def packetsOf (mtu n : Nat) : Nat := max 1 ((n + mtu - 1) / mtu)
/-- The MAC address of a port (R403, R409). -/
def State.portMac (s : State) (port : Nat) : List Byte :=
  Map.getRange Config.blank s.flash.bytes (0x3E00000 + Config.macAt port % 0x1FFFFA) 6

/-- A port keeps packets back: their priority is paused, congestion control has met a mark, or others wait already (R403, log 99). -/
def State.portHolds (s : State) (port : Nat) : Bool :=
  let p := Map.get (0 : BitVec 8) s.paused port
  (p != 0 && p.getLsbD (Config.rdmaPriority % 8)) || Map.get 0 s.marks port != 0 || s.held.any (fun x => x.port == port)

/-- Packets go out at a port, or wait there. -/
def State.putPkts (s : State) (port : Nat) (ps : List Pkt) : State :=
  if s.portHolds port then { s with held := s.held ++ ps } else { s with pkts := s.pkts ++ ps }

/-- What a port has kept back goes out, once nothing pauses it and congestion control lets it; the requests of its queue pairs are sent now. -/
def State.letOut (s : State) (port : Nat) : State :=
  let (mine, rest) := s.held.partition (fun x => x.port == port)
  if mine = [] ∨ State.portHolds { s with held := rest } port = true then s
  else { s with held := rest, pkts := s.pkts ++ mine
                rdma := s.rdma.map (fun r => if s.qpNat r.qp 1 1 % 2 = port then { r with since := s.ptime } else r) }

/-- Sends what is left of a request, packet by packet (R404, R406). -/
def State.sendReq (s : State) (r : RdmaReq) (n : Nat) (bs : List Byte) : State :=
  let mtu := s.qpMtu r.qp
  let port := s.qpNat r.qp 1 1 % 2
  let pkt (i : Nat) : Pkt :=
    let a := r.done + mtu * i
    { port := port, smac := s.portMac port, dmac := s.qpNat r.qp 24 6, dip := s.qpNat r.qp 8 16, dqpn := s.qpNat r.qp 4 4 % 2 ^ 24
      psn := (r.psn + r.done / mtu + i) % 2 ^ 24, write := r.write, addr := r.addr + a, rkey := r.rkey, len := min mtu (n - a)
      data := if r.write then (bs.drop a).take mtu else [] }
  s.putPkts port ((List.range (packetsOf mtu (n - r.done))).map pkt)

/-- A request of a queue pair takes the next packet numbers and is sent (R405, R406). -/
def State.postReq (s : State) (r : RdmaReq) (n : Nat) (bs : List Byte) : State :=
  let q := Map.get ({} : QpSeq) s.qps r.qp
  let r := { r with psn := (s.qpNat r.qp 32 4 + q.sent) % 2 ^ 24, since := s.ptime }
  let s := { s with rdma := s.rdma ++ [r], qps := Map.put s.qps r.qp { q with sent := q.sent + packetsOf (s.qpMtu r.qp) n } }
  s.sendReq r n bs

/-- The bytes that a command has read, in order. -/
def Cmd.bytesRead (m : Cmd) : List Byte := m.data.flatMap (fun d => d.getD [])

/-- Marks a command failed (R88). -/
def State.failCmd (s : State) (c id : Nat) (va : Nat) : State :=
  s.updCore c (fun k => k.updCmd id (fun m => { m with fails := some (BitVec.ofNat 64 va) }))

/-- The data as it stands. -/
def State.snapshot (s : State) (c : Nat) (m : Cmd) : List (Option (List Byte)) := m.chunks.map (fun h => s.readSide c m h.src h.n)

/-- The words of a chunk's source whose newest store the command may miss: another thread's that no acquire of its own thread has ordered before
its issue (R105). The save routine misses none (R113). -/
def State.missedBy (s : State) (c : Nat) (m : Cmd) (h : CMove) : List (Nat × Recent) :=
  match h.src with
  | .spad o => match s.place c true o h.n with
    | some p =>
      if m.aside || p.staging || p.remote || isCtl c then []
      else (spWords p.off h.n).filterMap (fun w => ((s.core c).missable (m.targets.map (threadId c)) m.acqAt 0 w).map (fun r => (w, r)))
    | none => []
  | _ => []

/-- The data as a command reads it when it starts: chunk by chunk, a store that it may miss counts or not (R105). -/
def State.readData (s : State) (c : Nat) (m : Cmd) : List (Option (List Byte)) :=
  m.chunks.zipIdx.map (fun h =>
    let words := (s.missedBy c m h.1).filter (fun e => Config.freeAt s.fresh (e.2.stamp * m.chunks.length + h.2))
    if words = [] then s.readSide c m h.1.src h.1.n
    else (s.updCore c (fun k => { k with scratch := unwritten k.scratch words })).readSide c m h.1.src h.1.n)

/-- A copy has its translations: writes are counted (R395), its data is read (R105), any of it by a free choice where stores race. A page in migration is waited for (R396). -/
def State.goCopy (s : State) (c id : Nat) : State :=
  match (s.core c).cmd? id with
  | none => s
  | some m =>
    if m.writePages.any s.migrating then s.updCore c (fun k => k.updCmd id (fun m => { m with src := [] }))
    else
      let s := m.writePages.foldl State.countWrite s
      let s := s.touchReads c m
      s.tickFresh.updCore c (fun k => k.updCmd id (fun m' => { m' with started := true, data := s.readData c m, fills := [] }))

/-- A copy starts: its lines, its translations, its data (R105, R280). -/
def State.startCopy (s : State) (c : Nat) (m : Cmd) : State :=
  let ls := s.fillsFor c m
  if ls != [] then s.startFills c m ls
  else if (s.writtenLines c m).any (fun l => ((s.core l.1).line l.2).filling) then s
  else
    let (s, ok) := s.translateAll c m.id m.needs
    if ok then s.goCopy c m.id else s

/-- The index list of a CPYD is read, and its rows are known (R282). -/
def State.readIndices (s : State) (c : Nat) (m : Cmd) : State :=
  let off := dW m.desc 14
  let n := 4 * dW m.desc 5
  let ls := if m.raw then [] else (linesOf off n).filter (s.lineNeeds c)
  if ls != [] then s.startFills c m (ls.map (fun l => (c, l)))
  else
    let s := if m.raw then s else (linesOf off n).foldl (fun s l => s.updCore c (fun k => k.touchLine l)) s
    let bs := Map.getRange Config.blank (s.core c).scratch off n
    s.updCore c (fun k => k.updCmd m.id (fun m =>
      { m with moves := descMoves m.desc (fun r => leNat ((bs.drop (4 * r)).take 4)), desc := [], fills := [] }))

/-- A copy between local memory and a peer window starts (R406, R407), from the byte on that a requeued one has come to (R348). A local side
that runs into the windows is a second one. -/
def State.startPeer (s : State) (c : Nat) (m : Cmd) (dst src n : Nat) : State :=
  let wr := isPeer dst
  let va := if wr then dst else src
  let own := if wr then src else dst
  if isPeer own || isPeer (own + n - 1) then s.failCmd c m.id dst
  else
    match s.peer m.pasid va n wr with
    | none => s.failCmd c m.id va
    | some (qp, addr, rkey) =>
      if s.qpState qp ≠ 1 then s.failCmd c m.id va
      else
        let (s, ok) := s.translateAll c m.id (m.needs.filter (fun e => !isPeer e.1))
        match (s.core c).cmd? m.id, ok with
        | some m', true =>
          if m'.writePages.any s.migrating then s.updCore c (fun k => k.updCmd m.id (fun m => { m with src := [] }))
          else
            let s := m'.writePages.foldl State.countWrite s
            let r : RdmaReq := { qp := qp, addr := addr, rkey := rkey, core := c, cmd := m.id, write := wr }
            let data := s.snapshot c m'
            let s := s.postReq r n (Cmd.bytesRead { m with data := data })
            s.updCore c (fun k => k.updCmd m.id (fun m => { m with started := true, data := data }))
        | _, _ => s

/-- The ends and the bytes of a copy with a peer window (R406): of a CPY between two global places. -/
def Cmd.peerMove (m : Cmd) : Option (Nat × Nat × Nat) :=
  match m.moves with
  | [{ src := .glob b, dst := .glob a, n := n }] => if m.op = 0xA3 ∧ (isPeer a || isPeer b) = true then some (a, b, n) else none
  | _ => none

/-- WBACK and RUNMAP start: every dirty line of a live slot is written back (R278). -/
def Core.startRegion (k : Core) (m : Cmd) : Core :=
  let r := k.region m.x
  let ls := if r.isLive then
      (k.lines.filter (fun (e : Nat × Line) => r.holds (e.1 * 256) && decide (2 ≤ e.2.st))).map (fun (e : Nat × Line) => e.1)
    else []
  let k := ls.foldl (fun (k : Core) l => k.startWback m.x l) k
  k.updCmd m.id (fun m => { m with started := true, rel := some { lines := ls } })

/-- A GATOM may start: its release, its promotions, its translation (R99, R101, R284). -/
def State.startGatom (s : State) (c : Nat) (m : Cmd) : State :=
  let ord := m.order
  let relOk := match m.rel with | some r => r.empty | none => true
  if !relOk then s
  else match m.asked with
    | none =>
      if ord.remote then
        let (s, asked) := s.askPromote c m.pasid [m.b.toNat / 256 * 256]
        s.updCore c (fun k => k.updCmd m.id (fun m => { m with asked := some asked }))
      else s.updCore c (fun k => k.updCmd m.id (fun m => { m with asked := some [] }))
    | some asked =>
      if !asked.all (fun o => !(s.core o).promoReq && (s.core o).promoLines == []) then s
      else
        let (s, ok) := s.translateAll c m.id m.needs
        if ok then s.updCore c (fun k => k.updCmd m.id (fun m => { m with started := true })) else s

/-- COPY_START (R275): a command of the queue starts, or comes one stage nearer to it. -/
def execCopyStart (core id : Nat) (s : State) : Out :=
  match (s.core core).cmd? id with
  | none => .next s
  | some m =>
    if !(s.core core).startable m then .next s
    else .next (
      if m.op = 0xA1 ∨ m.op = 0xA2 then s.updCore core (fun k => k.startRegion m)
      else if m.op = 0xA6 then s.startGatom core m
      else if m.op = 0xA7 ∨ m.op = 0xA8 ∨ m.op = 0xB6 then s.updCore core (fun k => k.updCmd id (fun m => { m with started := true }))
      else if m.desc != [] then s.readIndices core m
      else match m.peerMove with
        | some (a, b, n) => s.startPeer core m a b n
        | none => s.startCopy core m)

/-! ### Retirement (R87, R88) -/

/-- A command leaves the unit: its entries are free, its signal is sent (R87). -/
def Core.retire (k : Core) (m : Cmd) (failed : Bool) : Core :=
  (Core.relDropCmd { k with cmds := k.cmds.filter (fun x => x.id != m.id) } m.id).signal m.sig failed m.aside

/-- The result register of a command is written (R87). -/
def Thread.deliver (th : Thread) (id reg : Nat) (v : W64) (tag : Tag) : Thread :=
  let due := th.pend.filter (fun p => p.src == .cmd id)
  let th := { th with pend := th.pend.filter (fun p => p.src != .cmd id) }
  due.foldl (fun th p => th.setReg p.reg (if p.reg = reg then v.setWidth 32 else (v >>> 32).setWidth 32) tag) th

/-- The result register of a failed command: its reader traps COPYERR (R88). -/
def Thread.deliverErr (th : Thread) (id : Nat) (va : W64) : Thread :=
  { th with pend := th.pend.map (fun p => if p.src = .cmd id then { p with err := some va } else p) }

/-- For every thread that issued the command. -/
def Core.forTargets (k : Core) (m : Cmd) (f : Thread → Thread) : Core :=
  m.targets.foldl (fun k t => if k.live t then k.updThread t f else k) k

/-- The first window offset that a command names. -/
def Cmd.windowOff (m : Cmd) : Nat :=
  (m.moves.findSome? (fun h => match h.dst, h.src with
    | .spad o, _ => if 0x100000 ≤ o ∧ o < 0x900000 then some o else (match h.src with | .spad p => some p | _ => none)
    | _, .spad o => some o
    | _, _ => none)).getD 0

/-- A failed copy leaves old or new bytes, chunk by chunk (R88). A line that is not valid stays as it is, and
gives no bytes. -/
def State.mixChunks (s : State) (c : Nat) (m : Cmd) (data : List (Option (List Byte))) : State :=
  (m.chunks.zip data).foldl (fun s e =>
    let s' := s.tickFresh
    let needs (d : Side) : Bool := match s.sideLine c d e.1.n with | some l => s.lineNeeds l.1 l.2 | none => false
    let busy := needs e.1.dst || (!m.started && !m.raw && needs e.1.src)
    match e.2 with
    | some bs => if Config.freeBool s.fresh && !busy then s'.writeSide c m e.1.dst bs else s'
    | none => s') s

/-- A copy-unit command fails without recovery (R88, R91). -/
def State.cmdFails (s : State) (c : Nat) (m : Cmd) (va : W64) : State :=
  let isCopy := m.op = 0xA3 ∨ m.op = 0xA4 ∨ m.op = 0xA5
  let s := if isCopy then
      let s := if m.started then s else (m.writePages.foldl State.countWrite s).touchReads c m
      s.mixChunks c m (if m.started then m.data else s.snapshot c m)
    else s
  let s := { s with rdma := s.rdma.filter (fun r => !(r.core == c && r.cmd == m.id)) }
  let s := s.updCore c (fun k => (k.forTargets m (fun th => th.deliverErr m.id va)).retire m true)
  if isCopy then
    s.failWaiters (fun bs => m.ranges.any (fun r => touchesRange c r.lo r.hi bs)) (if m.revoked then .setrevoked else .copyerr)
      (if m.revoked then BitVec.ofNat 64 m.windowOff else va)
  else s

/-- RUNMAP unbinds the slot (R80, R278): its lines are plain scratchpad, fills under way are dropped. -/
def Core.unmap (k : Core) (slot : Nat) : Core :=
  let r := k.region slot
  { k with
    regions := Map.put k.regions slot (r.setLive false)
    lines := k.lines.filter (fun e => !r.holds (e.1 * 256))
    mops := k.mops.filter (fun m => match m.kind with
      | .fill l _ => !r.holds (l * 256)
      | .wback l => !r.holds (l * 256)
      | _ => true) }

/-- WBACK or RUNMAP retires (R278). -/
def Core.endRegion (k : Core) (m : Cmd) : Core :=
  let r := k.region m.x
  let code (k : Core) (v : Nat) : Core := { k with regions := Map.put k.regions m.x ((k.region m.x).setCode v) }
  let k := if !r.isLive then code k 7 else if m.fails.isSome then k else code k 0
  let k := if m.op = 0xA1 ∧ r.isLive = true then k.unmap m.x else k
  k.retire m m.fails.isSome

/-- The value that a GATOM writes, if it writes (R252, R284). -/
def gatomNew (op : Nat) (old c : W64) : Option W64 :=
  if op = 0x10 then (if (old.setWidth 32 : W32) = c.setWidth 32 then some (c >>> 32) else none)
  else some (atomNew op old (if op = 0xE ∨ op = 0xF then c else c &&& 0xFFFFFFFF)).1

/-- A relaxed global atomic has been performed: a fence promotes its line (R104). -/
def Thread.readLine (th : Thread) (va : Nat) : Thread :=
  if th.acqLines.contains va then th else { th with acqLines := va :: th.acqLines }

/-- The effects of an acquire, a release or a relaxed read on a GATOM's or a semaphore's threads and on the line states (R82, R100, R104,
R113). A write that is no release is one after a FENCE.rel (R104). -/
def Core.orderDone (k : Core) (m : Cmd) (ord : Order) (wrote : Bool) : Core :=
  let k := if ord.wideAcq && !m.aside then k.acqInvalidate [] else k
  let k := if m.aside then k
    else if ord.acq then k.forTargets m (Thread.acquired k.seq)
    else if ord.rel then k else k.forTargets m (fun th => th.readLine (m.b.toNat / 256 * 256))
  if wrote && !m.aside && (ord.marks || (!ord.rel && m.targets.any (fun t => k.live t && (k.thread t).fenced))) then k.relMark else k

/-- A GATOM is performed and retires (R87, R284). -/
def State.endGatom (s : State) (c : Nat) (m : Cmd) : State :=
  let w := gatomWidth m.fn
  match findTlb m.src m.pasid m.b.toNat true with
  | none => s.updCore c (fun k => k.updCmd m.id (fun m => { m with started := false }))
  | some x =>
    if s.migrating x then s.updCore c (fun k => k.updCmd m.id (fun m => { m with started := false, src := [] }))
    else
      let l := x.at m.b.toNat
      let old : W64 := BitVec.ofNat 64 (leNat (s.readLoc l w))
      let new := gatomNew m.fn old m.c
      let s := match new with
        | some v => (s.countWrite x).writeLoc l (leBytes w v.toNat)
        | none => s
      s.updCore c (fun k =>
        ((k.forTargets m (fun th => th.deliver m.id m.reg old 2)).orderDone m m.order new.isSome).retire m false)

/-- A CPY clears the marks of the pages that it has rewritten whole (R424). -/
def State.clearPoison (s : State) (m : Cmd) : State :=
  if m.op ≠ 0xA3 ∨ s.poison = [] then s
  else
    let pages := ((List.range (m.c.toNat / 65536)).map (fun i => (m.a.toNat + 65535) / 65536 * 65536 + 65536 * i)).filter
      (fun p => decide (p + 65536 ≤ m.a.toNat + m.c.toNat))
    let locs := pages.filterMap (fun p => (findTlb m.src m.pasid p true).map (fun x => (x.at p).addr / 65536))
    { s with poison := s.poison.filter (fun p => !locs.contains p) }

/-- A copy writes its bytes and retires; a line to be overwritten in part is valid first (R280). -/
def State.endCopy (s : State) (c : Nat) (m : Cmd) : State :=
  let ls := ((s.partLines c m).filter (fun l => s.lineNeeds l.1 l.2)).eraseDups
  if ls != [] then s.startFills c m ls
  else if (s.writtenLines c m).any (fun l => ((s.core l.1).line l.2).filling) then s
  else
    let s := (m.chunks.zip m.data).foldl (fun s e => match e.2 with
      | some bs => s.writeSide c m e.1.dst bs
      | none => s) s
    (s.clearPoison m).updCore c (fun k => k.retire m false)

/-- Two ends have bytes in common. -/
def Side.meets (a : Side) (n : Nat) (b : Side) (m : Nat) : Bool :=
  match a, b with
  | .glob x, .glob y => decide (x < y + m ∧ y < x + n)
  | .spad x, .spad y => decide (x < y + m ∧ y < x + n)
  | .acc r c _, .acc q d _ => r == q && decide (c < d + (m + 3) / 4 ∧ d < c + (n + 3) / 4)
  | _, _ => false

/-- A chunk below `i` that is still to be written has bytes in common with chunk `i`: the row of the higher number must stand (R282). -/
def Cmd.behind (m : Cmd) (i : Nat) (h : CMove) : Bool :=
  ((m.chunks.zip m.data).take i).any (fun e => e.2.isSome && e.1.dst.meets e.1.n h.dst h.n)

/-- One chunk of a copy is written before the others (R97). A line that must be filled first is left to the retirement. -/
def State.earlyChunk (s : State) (c id i : Nat) : State :=
  match (s.core c).cmd? id with
  | none => s
  | some m =>
    if !m.started || m.fails.isSome || s.rdma.any (fun r => r.core == c && r.cmd == id) then s
    else match m.chunks[i]?, (m.data[i]?).join with
      | some h, some bs =>
        if m.behind i h || (s.sideLine c h.dst h.n).any (fun l => s.lineNeeds l.1 l.2 || ((s.core l.1).line l.2).filling) then s
        else (s.writeSide c m h.dst bs).updCore c (fun k => k.updCmd id (fun m => { m with data := m.data.set i none, wrote := true }))
      | _, _ => s

/-- The bytes of a chunk that unit `j` of its source gives: the whole chunk, or one of the two accumulator elements that ACPY narrows into it
(R97, R283). -/
def Cmd.unitAt (m : Cmd) (h : CMove) (j : Nat) : Nat × Nat :=
  match h.src with
  | .acc _ _ cv => if cv = 0 then (0, m.unit) else (2 * j, 2)
  | _ => (0, m.unit)

/-- One unit of a source chunk is read after the others: before the command writes, it may still see a concurrent store (R97, R105). -/
def State.rereadUnit (s : State) (c id i j : Nat) : State :=
  match (s.core c).cmd? id with
  | none => s
  | some m =>
    if !m.started || m.wrote || s.rdma.any (fun r => r.core == c && r.cmd == id) then s
    else match m.chunks[i]?, (m.data[i]?).join with
      | some h, some old =>
        if (s.sideLine c h.src h.n).any (fun l => !m.raw && s.lineNeeds l.1 l.2) then s
        else match s.readSide c m h.src h.n with
          | some new =>
            let (a, n) := m.unitAt h j
            s.updCore c (fun k => k.updCmd id (fun m => { m with data := m.data.set i (some (old.take a ++ (new.drop a).take n ++ old.drop (a + n))) }))
          | none => s
      | _, _ => s

/-- ACLR clears rows and their overflow bits (R89, R291), but for the elements that it has cleared before (R97). -/
def Core.clearRows (k : Core) (row n : Nat) (cleared : List Nat := []) : Core :=
  { k with
    acc := k.acc.filter (fun e => !decide (row * 128 ≤ e.1 ∧ e.1 < (row + n) * 128) || cleared.contains e.1)
    ovf := (List.range n).foldl (fun o i => o &&& ~~~(1#512 <<< (row + i))) k.ovf }

/-- One element of an ACLR is cleared before the others (R97, R107). -/
def State.clearElem (s : State) (c id e : Nat) : State :=
  match (s.core c).cmd? id with
  | none => s
  | some m =>
    let row := m.b.toNat
    if m.op = 0xB6 ∧ m.started = true ∧ row * 128 ≤ e ∧ e < (row + m.c.toNat) * 128 ∧ m.cleared.contains e = false then
      s.updCore c (fun k => { k with acc := Map.set 0 k.acc e 0 }.updCmd id (fun m => { m with cleared := e :: m.cleared }))
    else s

/-- The failure that a command has met. -/
def Cmd.failure (m : Cmd) : Option W64 :=
  match m.fails, m.xs with
  | some v, _ => some v
  | none, .failed a => some (BitVec.ofNat 64 a)
  | none, _ => none

/-- COPY_RETIRE (R87, R88). -/
def execCopyRetire (core id : Nat) (memErr : Bool) (s : State) : Out :=
  match (s.core core).cmd? id with
  | none => .next s
  | some m =>
    if m.op = 0xA7 ∨ m.op = 0xA8 then .next s
    else if m.op = 0xA1 ∨ m.op = 0xA2 then
      if m.started ∧ (match m.rel with | some r => r.lines == [] | none => true) = true then .next (s.updCore core (fun k => k.endRegion m))
      else .next s
    else
      let fail := if memErr && m.started && m.op != 0xB6 then some (m.failure.getD (BitVec.ofNat 64 ((m.needs.headD (0, 0)).1))) else m.failure
      match fail with
      | some va => .next (s.cmdFails core m va)
      | none =>
        if !m.started || s.rdma.any (fun r => r.core == core && r.cmd == id) then .next s
        else if m.op = 0xA6 then .next (s.endGatom core m)
        else if m.op = 0xB6 then .next (s.updCore core (fun k => (k.clearRows m.b.toNat m.c.toNat m.cleared).retire m false))
        else .next (s.endCopy core m)

/-! ### Semaphores (R111, R285) -/

/-- An acquire at `.dev` (R111). -/
def semOrder : Order := { acq := true, sco := 4 }

/-- The threads that still wait for this SEMWAIT; a pre-emption restarts it. -/
def Core.semWaiters (k : Core) (m : Cmd) : List Nat := m.targets.filter (fun t => k.live t && (k.thread t).block == some (.sem m.id))

/-- The threads of a SEMWAIT go on. -/
def Core.semGo (k : Core) (ts : List Nat) : Core := ts.foldl (fun k t => k.updThread t (fun th => th.next th.lastWord)) k

/-- The translation of a semaphore's word. -/
def State.semXlat (s : State) (c : Nat) (m : Cmd) (acc : Nat) (memErr : Bool) : XAns :=
  match m.xs with
  | .failed _ => .bad
  | .idle => if memErr then .bad else s.getXlat (.cmd c m.id) m.src m.pasid m.b.toNat acc
  | _ => .wait s

/-- A translation held no longer than one step. -/
def State.dropHeld (s : State) (c id : Nat) : State := s.updCore c (fun k => k.updCmd id (fun m => { m with src := [] }))

/-- SEMWAIT_SUCCEED (R111, R285): the condition holds, the indivisible step is made. -/
def execSemwaitSucceed (core id : Nat) (memErr : Bool) (s : State) : Out :=
  match (s.core core).cmd? id with
  | none => .next s
  | some m =>
    if m.op ≠ 0xA7 ∨ m.started = false then .next s
    else
      let ts := (s.core core).semWaiters m
      match s.semXlat core m (if m.fn % 2 = 0 then 2 else 0) memErr with
        | .wait s => .next s
        | .bad =>
          let va := m.failure.getD m.b
          .next (s.updCore core (fun k => ((k.forTargets m (fun th => th.deliverErr id va)).semGo ts).retire m true))
        | .have x s =>
          let l := x.at m.b.toNat
          let v := leNat (s.readLoc l 4)
          let n := (m.c.setWidth 32 : W32).toNat
          let take := m.fn % 2 = 0
          if (take ∧ v < n) ∨ (¬take ∧ v ≠ n) ∨ (take ∧ s.migrating x = true) then .next (s.dropHeld core id)
          else
            let s := if take then (s.countWrite x).writeLoc l (leBytes 4 (v - n)) else s
            .next (s.updCore core (fun k =>
              (((k.forTargets m (fun th => th.deliver id m.reg (BitVec.ofNat 64 v) 1)).semGo ts).orderDone m
                semOrder false).retire m false))

/-- A save or a restore posts to the report word of its QCB: the report is noted, and GANG is raised (R302, R353, R362, R377). -/
def State.noteReport (s : State) (c : Nat) (m : Cmd) : State :=
  match (s.core c).inst with
  | none => s
  | some i =>
    if m.pasid = 0 ∧ m.b = i.qcb + 0x60 ∧ !isCtl c then
      (s.updCore c (fun k => { k with inst := some { i with reported := true, refused := m.c.setWidth 32 == (2 : W32) } })).raiseOpt
        (s.ccOf (some i.part)) evGANG
    else s

/-- SEMPOST_PERFORM (R99, R111, R285). -/
def execSempostPerform (core id : Nat) (memErr : Bool) (s : State) : Out :=
  match (s.core core).cmd? id with
  | none => .next s
  | some m =>
    if m.op ≠ 0xA8 ∨ m.started = false ∨ (match m.rel with | some r => r.empty | none => true) = false then .next s
    else match s.semXlat core m 2 memErr with
      | .wait s => .next s
      | .bad => .next (s.updCore core (fun k => k.retire m true))
      | .have x s =>
        if s.migrating x then .next (s.dropHeld core id)
        else
          let l := x.at m.b.toNat
          let v := leNat (s.readLoc l 4) + (m.c.setWidth 32 : W32).toNat
          .next ((((s.countWrite x).writeLoc l (leBytes 4 v)).noteReport core m).updCore core (fun k => (if m.aside then k else k.relMark).retire m false))

/-! ### Share sets (R90, R91, R287) -/

/-- The causes for which SJOIN is refused; which of several is reported is open (log 30). -/
def State.sjoinBad (s : State) (c id rank : Nat) : List Nat :=
  (if 16 ≤ id ∨ 8 ≤ rank then [4] else []) ++ (if (s.core c).isDet then [3] else []) ++ (if (s.core c).sset.isSome then [2] else []) ++
    (if id < 16 ∧ rank < 8 ∧ (List.range 52).any (fun x => (s.core (dieOf c * 52 + x)).sset == some (id, rank)) = true then [1] else [])

/-- The operands of SJOIN and of SLEAVE. -/
def sjoinSpec (f : EForm) : OpSpec :=
  { h := f.h, avail := .core, srcs := [{ reg := f.b.toNat, idx := 1 }, { reg := f.c.toNat, idx := 2 }], dsts := [{ reg := f.a.toNat, idx := 0 }] }
def sleaveSpec (f : EForm) : OpSpec := { h := f.h, avail := .core, dsts := [{ reg := f.a.toNat, idx := 0 }] }

/-- SJOIN (R90, R287). -/
def execSjoin (f : EForm) (s : State) : Out :=
  .next (runExecs (sjoinSpec f) (fun s e =>
    let c := s.cur.core
    let id := (e.op 0).lo.toNat
    let rank := (e.op 1).lo.toNat
    match s.sjoinBad c id rank with
    | [] => (s.updCore c (fun k => { k with sset := some (id, rank) })).finishAll e (Res.one f.a.toNat 0 1)
    | b :: bs => s.tickFresh.finishAll e (Res.one f.a.toNat (BitVec.ofNat 32 ((b :: bs).getD (Config.freeNat s.fresh % (bs.length + 1)) b)) 1)) s)

/-- A command of core `i` names a window whose core `which` takes; a core reaches its own window too (R90). -/
def State.usesWindow (s : State) (i : Nat) (m : Cmd) (which : Nat → Bool) : Bool :=
  m.moves.any (fun h => [h.src, h.dst].any (fun d => match d with
    | .spad o => inWindow o && (match s.place i true o h.n with | some p => which p.core | none => false)
    | _ => false))

/-- The bytes of an access of core `here` lie in the window of core `c`: another core's bytes, or its own by the name of its window. -/
def inWindowOf (c here : Nat) (own : List (Nat × Nat × Nat)) : Bool :=
  own.any (fun b => b.1 == c && (b.1 != here || inWindow b.2.1)) && own.any (fun b => inWindow b.2.1)

/-- The accesses made to the window of core `c`, by itself too, and not yet performed: waiting threads and running commands, as (core, 2 × number), the
commands odd. -/
def State.windowUsers (s : State) (c : Nat) : List (Nat × Nat) :=
  s.cores.flatMap (fun e =>
    e.2.threads.filterMap (fun t =>
      let waits := match t.2.block with
        | some (.window own _) => inWindowOf c e.1 own
        | some (.mem own _) => inWindowOf c e.1 own
        | _ => t.2.winOk
      if t.2.live && waits then some (e.1, 2 * t.1) else none) ++
    e.2.cmds.filterMap (fun m => if s.usesWindow e.1 m (fun o => o == c) then some (e.1, 2 * m.id + 1) else none))

/-- The core begins to leave its set: what its revocation waits for is known (R91). -/
def State.startLeave (s : State) (c : Nat) : State :=
  if (s.core c).leaving.isSome then s else s.updCore c (fun k => { k with leaving := some (s.windowUsers c) })

/-- SLEAVE (R91, R287). -/
def execSleave (f : EForm) (s : State) : Out :=
  .next (runExecs (sleaveSpec f) (fun s e =>
    let c := s.cur.core
    let k := s.core c
    if k.sset.isNone then s.finishAll e (Res.one f.a.toNat 5 1)
    else e.targets.foldl (fun s t => s.updThread c t (fun th => th.stall e.ops [f.a.toNat] (.sleave f.a.toNat))) (s.startLeave c)) s)

/-- The offset of a thread's window access that the revocation of core `c`'s set membership takes away: one to its window, or any of its own. -/
def windowHit (c here : Nat) (own : List (Nat × Nat × Nat)) : Option Nat :=
  if inWindowOf c here own || here == c then (own.find? (fun b => inWindow b.2.1)).map (·.2.1) else none

/-- The threads whose window access was not performed trap SETREVOKED (R91). -/
def State.revokeThreads (s : State) (c : Nat) : State :=
  (s.cores.flatMap (fun e => e.2.threads.filterMap (fun t => match t.2.block with
    | some (.window own _) => if t.2.live then (windowHit c e.1 own).map (fun o => (e.1, t.1, o)) else none
    | some (.mem own _) => if t.2.live then (windowHit c e.1 own).map (fun o => (e.1, t.1, o)) else none
    | _ => none))).foldl (fun s w => s.trap w.1 w.2.1 .setrevoked ((s.core w.1).thread w.2.1).pc (BitVec.ofNat 64 w.2.2)) s

/-- The copies through a revoked window are marked failed (R91). -/
def State.revokeCopies (s : State) (c : Nat) : State :=
  { s with cores := s.cores.mapVal (fun i (k : Core) => { k with cmds := k.cmds.map (fun (m : Cmd) =>
      if s.usesWindow i m (fun o => o == c || i == c) then { m with fails := some (BitVec.ofNat 64 m.windowOff), revoked := true } else m) }) }

/-- A waiting SLEAVE answers 0 and goes on. -/
def Thread.sleaveDone (th : Thread) : Thread :=
  match th.block with
  | some (.sleave d) => (th.apply (Res.one d 0 1)).next th.lastWord
  | _ => th

/-- The core is out of its set. -/
def Core.endLeave (k : Core) : Core :=
  { k with sset := none, leaving := none, threads := k.threads.mapVal (fun _ th => if th.live then th.sleaveDone else th) }

/-- The revocation is wanted: a SLEAVE waits for it, or the core's use has ended (R287). -/
def Core.wantsLeave (k : Core) : Bool :=
  k.liveTids.any (fun t => match (k.thread t).block with | some (.sleave _) => true | _ => false) ||
    (match k.inst with | some i => i.ending | none => false)

/-- SHARE_REVOCATION (R91). -/
def execShareRevocation (core : Nat) (s : State) : Out :=
  match (s.core core).leaving with
  | none => .next s
  | some ws =>
    if !(s.core core).wantsLeave || ws.any (fun w => (s.windowUsers core).contains w) then .next s
    else .next (((s.revokeThreads core).revokeCopies core).updCore core Core.endLeave)

end Sys2Proof.Machine
end

