-- ==== Sys2Proof/Machine/Matrix.lean ====
section
/-! DEFINITION. The matrix engine (R106, R130 to R144, R288 to R292). -/

namespace Sys2Proof.Machine
open Sys2Proof

/-! ### The parameter block (R132, R133) -/

/-- What the words of a parameter block say. `spm` is the sparsity code, `la` and `lb` the lengths of a row of A and a column of B. -/
structure Geo where
  m : Nat
  n : Nat
  k : Nat
  bf : Bool
  wa : Nat
  wb : Nat
  spm : Nat
  accum : Bool
  wfx : Bool
  ovft : Bool
  row0 : Nat
  col0 : Nat
  q : Int
  seed : W32
  w : List W32
  deriving DecidableEq, Repr

def wN (ws : List W32) (i : Nat) : Nat := (ws.getD i 0).toNat

def geoOf (ws : List W32) : Geo :=
  let w0 := wN ws 0
  { m := wN ws 1 % 65536, n := wN ws 1 / 65536, k := wN ws 2, bf := w0 / 256 % 16 == 0, wa := w0 / 256 % 16, wb := w0 / 4096 % 16,
    spm := w0 / 2 ^ 20 % 8, accum := w0 / 2 ^ 18 % 4 == 1, wfx := w0 / 2 ^ 16 % 4 == 1, ovft := w0.testBit 23,
    row0 := wN ws 12 % 512, col0 := wN ws 12 / 512 % 128, q := (BitVec.ofNat 8 (wN ws 12 / 65536)).toInt, seed := ws.getD 13 0, w := ws }

/-- 1 ÷ the kept fraction of B (R133). -/
def Geo.rho (g : Geo) : Nat := match g.spm with | 0 => 1 | 1 => 2 | 2 => 4 | _ => 8
/-- K positions of a K-block. -/
def Geo.blk (g : Geo) : Nat := if g.bf then 16 else 32
def Geo.kb (g : Geo) : Nat := g.k / g.blk
def Geo.la (g : Geo) : Nat := if g.bf then 2 * g.k else g.kb * 4 * g.wa
def Geo.lb (g : Geo) : Nat := if g.bf then 2 * g.k / g.rho else (g.k * g.wb / g.rho + 7) / 8

def spEnd : Nat := 0xC0000
/-- `n` bytes at an offset lie in local scratchpad (R133). -/
def inLocal (o n : Nat) : Bool := decide (o < spEnd ∧ o + n ≤ spEnd)

def fmtOk (c : Nat) : Bool := c == 0 || decide (2 ≤ c ∧ c ≤ 8)

/-- The first failing word of words 0 to 14 but the index vector's entries (R132 to R134); `img` for an image of MRESUME.load, whose progress
word is not judged (log 127). -/
def mpbBad (ws : List W32) (img : Bool) : Option Nat :=
  let g := geoOf ws
  let w := wN ws
  let w0 := w 0
  let bad (i : Nat) : Bool := match i with
    | 0 => decide (w0 / 2 ^ 24 ≠ 0 ∨ 4 ≤ g.spm ∨ 2 ≤ w0 / 2 ^ 18 % 4 ∨ 2 ≤ w0 / 2 ^ 16 % 4 ∨ w0 % 256 ≠ 1) || !fmtOk g.wa || !fmtOk g.wb ||
        (g.wa == 0) != (g.wb == 0)
    | 1 => decide (g.m = 0 ∨ 128 < g.m ∨ g.n = 0 ∨ 128 < g.n) || (g.wfx && decide (64 < g.n))
    | 2 => decide (g.k = 0 ∨ g.k % g.blk ≠ 0 ∨ 65536 < g.k)
    | 3 => w 3 != 0xFFFFFFFF && (w 3 % 2 != 0 || !inLocal (w 3) (2 * g.m))
    | 4 => w 4 % 8 != 0 || !inLocal (w 4) (if w 3 = 0xFFFFFFFF then (g.m - 1) * w 5 + g.la else 0)
    | 5 => w 5 % 8 != 0 || decide (w 5 < g.la)
    | 6 => w 6 % 8 != 0 || !inLocal (w 6) ((g.n - 1) * w 7 + g.lb)
    | 7 => w 7 % 8 != 0 || decide (w 7 < g.lb)
    | 8 => if g.bf then w 8 != 0 else !inLocal (w 8) (w 10)
    | 9 => if g.bf then w 9 != 0 else !inLocal (w 9) (w 11)
    | 10 => g.bf && w 10 != 0
    | 11 => g.bf && w 11 != 0
    | 12 => decide (w 12 / 2 ^ (if img then 29 else 24) ≠ 0 ∨ 512 < g.row0 + g.m) ||
        (if g.wfx then g.col0 % 2 != 0 || decide (128 < g.col0 + 2 * g.n) else decide (128 < g.col0 + g.n))
    | 14 =>
      let h := w 14 / 2 ^ 13 % 2 ^ 14
      if img then decide (h = 0 ∨ 0x0BFFC0 < h * 64) || (w 14 / 2 ^ 27 % 16 != 0 && !(w 14).testBit 31) else w 14 != 0
    | _ => false
  (List.range 15).find? bad

/-- The rows that the gather fetches (R135, R136). -/
def gatherRows (scratch : Map Byte) (g : Geo) : List Nat :=
  (List.range g.m).map (fun i =>
    let r := if wN g.w 3 = 0xFFFFFFFF then i else leNat (Map.getRange Config.blank scratch (wN g.w 3 + 2 * i) 2)
    wN g.w 4 + r * wN g.w 5)

/-! ### Terms (R139, R140, R142, R143) -/

/-- The hash of a group (R143). -/
def sparseHash (seed : W32) (j g : Nat) : W32 :=
  let h := seed ^^^ (BitVec.ofNat 32 j * 0xB5297A4D) ^^^ (BitVec.ofNat 32 g * 0x68E31DA5)
  let h := (h ^^^ (h >>> 15)) * 0x1B56C4E9
  let h := (h ^^^ (h >>> 13)) * 0x2F4A7C15
  h ^^^ (h >>> 16)

/-- The kept positions of a group (R143). -/
def keptIn (spm : Nat) (h : W32) : List Nat :=
  match spm with
  | 1 => match h.toNat % 6 with
    | 0 => [0, 1]
    | 1 => [0, 2]
    | 2 => [0, 3]
    | 3 => [1, 2]
    | 4 => [1, 3]
    | _ => [2, 3]
  | 2 => [h.toNat % 4]
  | _ => [h.toNat % 8]

/-- The kept positions of column `j` in K-block `b`, from the block's start, ascending. -/
def Geo.kept (g : Geo) (j b : Nat) : List Nat :=
  if g.spm = 0 then List.range g.blk
  else
    let gw := if g.spm = 3 then 8 else 4
    (List.range (g.blk / gw)).flatMap (fun i => (keptIn g.spm (sparseHash g.seed j (b * g.blk / gw + i))).map (fun p => i * gw + p))

/-- A `w`-bit mantissa at a bit offset from a base (R60, R135). -/
def mantAt (sp : Map Byte) (base bit w : Nat) : Int :=
  asInt true w (leNat (Map.getRange Config.blank sp (base + bit / 8) 2) / 2 ^ (bit % 8) % 2 ^ w)
def bfAt (sp : Map Byte) (a : Nat) : FVal := bf16.unpack (word32 (Map.getRange Config.blank sp a 2))
def byteAt (sp : Map Byte) (a : Nat) : Nat := (Map.get Config.blank sp a).toNat

/-- An exact value; zero is +0 (log 125). -/
def FVal.ofInt (d e : Int) : FVal := .fin (decide (d < 0)) d.natAbs e

/-- The term of a BFP block (R139): NaN under a scale of 0xFF (R142). -/
def bfpTerm (sp : Map Byte) (g : Geo) (row b i j : Nat) : FVal :=
  let ea := byteAt sp (wN g.w 8 + b * g.m + i)
  let eb := byteAt sp (wN g.w 9 + b * g.n + j)
  if ea = 255 ∨ eb = 255 then .nan false
  else
    let kc := 32 / g.rho
    let d := ((g.kept j b).zipIdx.map (fun e =>
      mantAt sp (row + b * 4 * g.wa) (g.wa * e.1) g.wa * mantAt sp (wN g.w 6 + j * wN g.w 7) (g.wb * (b * kc + e.2)) g.wb)).foldl (· + ·) 0
    FVal.ofInt d ((ea : Int) + eb - 254 - ((g.wa : Int) - 2) - ((g.wb : Int) - 2))

/-- The term of a bf16 chunk (R140). -/
def bfTerm (sp : Map Byte) (g : Geo) (row b j : Nat) : FVal :=
  let kc := 16 / g.rho
  let ps := (g.kept j b).zipIdx.map (fun e =>
    ((bfAt sp (row + 2 * (b * 16 + e.1))).mul (bfAt sp (wN g.w 6 + j * wN g.w 7 + 2 * (b * kc + e.2)))).1)
  let pos := ps.any (fun x => x.isInf && !x.neg)
  let neg := ps.any (fun x => x.isInf && x.neg)
  if ps.any FVal.isNaN || (pos && neg) then .nan false
  else if pos then .inf false
  else if neg then .inf true
  else
    let (m, e) := sumExact ps
    FVal.ofInt m e

/-! ### The fold (R141) -/

/-- F32: the new element, and whether it overflowed. -/
def foldF32 (a : W32) (t : FVal) : W32 × Bool :=
  let x := f32.unpack a
  let r := (f32.sum 0 [x, t]).1
  (r, !x.isNaN && !x.isInf && !t.isNaN && !t.isInf && (f32.unpack r).isInf)

/-- WFX: the new element, and whether it saturated. -/
def foldWfx (q : Int) (a : W64) (t : FVal) : W64 × Bool :=
  let top : Int := 2 ^ 63 - 1
  if a = 0x8000000000000000 then (a, false)
  else match t with
    | .nan _ => (0x8000000000000000, false)
    | .inf n => (BitVec.ofInt 64 (if n then -top else top), true)
    | .fin _ _ _ =>
      let s := a.toInt + (rneInt t (-q)).1
      if top < s then (BitVec.ofInt 64 top, true) else if s < -top then (BitVec.ofInt 64 (-top), true) else (BitVec.ofInt 64 s, false)

/-- The accumulators and the rows that overflow while a K-block is folded. -/
structure FoldSt where
  acc : Map W32
  ovf : List Nat := []
  deriving DecidableEq, Repr

def FoldSt.elem (f : FoldSt) (g : Geo) (i j : Nat) (t : FVal) : FoldSt :=
  let r := g.row0 + i
  let mark (o : Bool) : List Nat := if o && !f.ovf.contains r then f.ovf ++ [r] else f.ovf
  if g.wfx then
    let c := r * 128 + g.col0 + 2 * j
    let (a, o) := foldWfx g.q (Map.get 0 f.acc (c + 1) ++ Map.get 0 f.acc c) t
    { acc := Map.set 0 (Map.set 0 f.acc c (a.setWidth 32)) (c + 1) ((a >>> 32).setWidth 32), ovf := mark o }
  else
    let c := r * 128 + g.col0 + j
    let (a, o) := foldF32 (Map.get 0 f.acc c) t
    { acc := Map.set 0 f.acc c a, ovf := mark o }

/-- One K-block folded into every element (R141). -/
def foldBlock (sp : Map Byte) (g : Geo) (rows : List Nat) (b : Nat) (acc : Map W32) : FoldSt :=
  rows.zipIdx.foldl (fun f e => (List.range g.n).foldl (fun f j =>
    f.elem g e.2 j (if g.bf then bfTerm sp g e.1 b j else bfpTerm sp g e.1 b e.2 j)) f) { acc := acc }

/-! ### The accumulator elements of an operation (R107, R141) -/

/-- Accumulator words in a row of the operation. -/
def Geo.cols (g : Geo) : Nat := if g.wfx then 2 * g.n else g.n
/-- The accumulator words of an operation. -/
def Geo.elems (g : Geo) : List Nat := (List.range g.m).flatMap (fun i => (List.range g.cols).map (fun j => (g.row0 + i) * 128 + g.col0 + j))
/-- A word is one of the operation's. -/
def Geo.holds (g : Geo) (e : Nat) : Bool :=
  decide (g.row0 ≤ e / 128 ∧ e / 128 < g.row0 + g.m ∧ g.col0 ≤ e % 128 ∧ e % 128 < g.col0 + g.cols)

/-- The operation takes its elements: as they stand, or +0 when it overwrites and no block is folded (R141, R144). -/
def MatOp.take (o : MatOp) (acc : Map W32) : MatOp :=
  let g := geoOf o.words
  let mine := acc.filter (fun e => g.holds e.1)
  { o with base := mine, part := some (if o.kdone = 0 ∧ g.accum = false then [] else mine) }

/-- One element is written (R97, R107): where something else has written it meanwhile, either value may stand. -/
def MatOp.putElem (o : MatOp) (part : Map W32) (n : Nat) (acc : Map W32) (e : Nat) : Map W32 :=
  if Map.get 0 acc e ≠ Map.get 0 o.base e ∧ Config.freeAt n e = false then acc else Map.set 0 acc e (Map.get 0 part e)

/-- The operation writes its elements; `n` is the counter of the free choices. -/
def Core.commitMat (k : Core) (o : MatOp) (n : Nat) : Core :=
  match o.part with
  | none => k
  | some part => { k with acc := (geoOf o.words).elems.foldl (o.putElem part n) k.acc }

/-- Scratchpad as the engine reads it: a word that a thread has stored without an MFENCE since may still be the old one (R106). -/
def Core.operands (k : Core) (n : Nat) : Map Byte :=
  mixOld k.scratch k.unfenced n

/-! ### Queue entries (R131, R134) -/

/-- w14 of a queue entry or an image (R134). -/
def MatOp.w14 (o : MatOp) : W32 :=
  BitVec.ofNat 32 ((match o.sig with | some t => 2 ^ 31 + t * 2 ^ 27 | none => 0) + o.home % 2 ^ 14 * 2 ^ 13 + o.kdone % 2 ^ 13)

/-- w15 (R134). -/
def w15 (ovf : Bool) (stream info code : Nat) : W32 :=
  BitVec.ofNat 32 (2 ^ 31 + (if ovf then 2 ^ 30 else 0) + stream * 2 ^ 29 + info % 65536 * 256 + code)

/-- Bytes written by an engine into local scratchpad, chunk by chunk of 4 bytes. -/
def State.engineWrite (s : State) (c off : Nat) : List W32 → State
  | [] => s
  | w :: ws => State.engineWrite (s.storePlace { core := c, off := off, home := c, raw := off } (leBytes 4 w.toNat) false) c (off + 4) ws

/-- Writes w14 and w15 into the MPB at HOME × 64 (R134); those of an image with HOME 0 are written nowhere (log 126). -/
def State.putStatus (s : State) (c : Nat) (o : MatOp) : State :=
  if o.home = 0 ∨ 0x0BFFC0 < o.home * 64 then s else s.engineWrite c (o.home * 64 + 56) [BitVec.ofNat 32 (o.kdone % 2 ^ 13), o.status]

def Core.setHead (k : Core) (o : MatOp) : Core := { k with mq := o :: k.mq.tail }

/-- The 16 words of the MPB at HOME × 64. -/
def mpbIn (sp : Map Byte) (home : Nat) : List W32 := descWords (Map.getRange Config.blank sp (home * 64) 64)
/-- The 16 words of the MPB as it stands in scratchpad. -/
def Core.mpbAt (k : Core) (home : Nat) : List W32 := mpbIn k.scratch home

/-- The lowest row of an operation whose overflow bit is set: what the lowest row that it set itself counts as where the instance does not carry
that (R134, log 111). -/
def Geo.firstOvf (g : Geo) (ovf : BitVec 512) : Option Nat := ((List.range g.m).map (· + g.row0)).find? (fun r => ovf.getLsbD r)

/-- The lowest row whose bit the operation set. -/
def MatOp.lowRow (o : MatOp) (g : Geo) (ovf : BitVec 512) : Nat := (o.ovfRow.or (g.firstOvf ovf)).getD g.row0

/-- The status with which an operation that has folded everything ends (R134, R137). -/
def MatOp.finalStatus (o : MatOp) (g : Geo) (ovf : BitVec 512) : W32 :=
  let longA := !g.bf && decide (g.m * g.kb < wN g.w 10)
  let longB := !g.bf && decide (g.n * g.kb < wN g.w 11)
  if longA then w15 o.ovf 0 g.kb 0x0D
  else if longB then w15 o.ovf 1 g.kb 0x0D
  else if o.ovf && g.ovft then w15 o.ovf 0 (o.lowRow g ovf) 0x17
  else w15 o.ovf 0 0 0

def codeOf (st : W32) : Nat := st.toNat % 256
/-- Codes that raise a trap at MWAIT (R134). -/
def isTrapCode (c : Nat) : Bool := c == 0x0D || c == 0x0E || c == 0x17

/-- The head operation ends with a status: its elements, its progress and its status are written, a fault is kept for its MWAIT, the
signal is sent; it is a release at `.core` (R82, R107, R131). An operation that ends with code 0x17 counts among the 8 faults not yet
delivered (log 109). -/
def State.endMat (s : State) (c : Nat) (o : MatOp) (st : W32) : State :=
  let n := s.fresh
  let o := { o with status := st }
  (s.tickFresh.putStatus c o).updCore c (fun k =>
    let k := { k.commitMat o n with
      mq := k.mq.tail, mfaults := if isTrapCode (codeOf st) then k.mfaults ++ [(o.ticket, st)] else k.mfaults }
    (k.signal o.sig (codeOf st == 0x0D || codeOf st == 0x0E)).relMark)

/-! ### The engine's events (R131, R141) -/

/-- The head operation starts: its words are copied and checked, its rows gathered, its elements taken (R131, R133, R136, R141), after its wait
and while fewer than 8 faults are held (log 124). -/
def Core.startMat (k : Core) (o : MatOp) (n : Nat) : Core :=
  let sp := k.operands n
  let ws := if o.words = [] then mpbIn sp o.home else o.words
  let o := { o with words := ws, started := true, wait := none }
  let bad (i : Nat) : Core := k.setHead { o with fault := some (w15 o.ovf 0 i 0x0E) }
  let g := geoOf ws
  match mpbBad ws o.image with
  | some i =>
    if 3 < i ∧ wN ws 3 ≠ 0xFFFFFFFF ∧ (gatherRows sp g).any (fun r => !inLocal r g.la) = true then bad 3 else bad i
  | none =>
    let rows := gatherRows sp g
    if rows.any (fun r => !inLocal r g.la) then bad 3
    else k.setHead { o.take k.acc with rows := rows, ovfRow := if o.ovf then o.ovfRow.or (g.firstOvf k.ovf) else none }

/-- MATRIX_OP_START (R131). -/
def execMatrixOpStart (core : Nat) (s : State) : Out :=
  let k := s.core core
  match k.mq with
  | [] => .next s
  | o :: _ =>
    let go := !o.started && !o.stopped && !k.mstop && decide (k.mfaults.length < 8) &&
      (match o.wait with | some t => (k.tb t).complete | none => true)
    if go then .next (s.tickFresh.updCore core (fun k => k.startMat o s.fresh)) else .next s

/-- A K-block of the head operation; a stream that is too short is not folded (R137). -/
def Core.kblock (k : Core) (o : MatOp) (n : Nat) : Core :=
  let g := geoOf o.words
  let b := o.kdone
  if !g.bf && decide (wN g.w 10 < (b + 1) * g.m) then k.setHead { o with fault := some (w15 o.ovf 0 b 0x0D) }
  else if !g.bf && decide (wN g.w 11 < (b + 1) * g.n) then k.setHead { o with fault := some (w15 o.ovf 1 b 0x0D) }
  else
    let f := foldBlock (k.operands n) g o.rows b (o.part.getD [])
    let low := f.ovf.foldl (fun (m : Option Nat) r => match m with | none => some r | some x => some (min x r)) o.ovfRow
    { k with ovf := f.ovf.foldl (fun v r => v ||| (1#512 <<< r)) k.ovf }.setHead
      { o with kdone := b + 1, ovf := o.ovf || f.ovf != [], ovfRow := low, part := some f.acc }

/-- MATRIX_KBLOCK (R141). -/
def execMatrixKblock (core : Nat) (s : State) : Out :=
  match (s.core core).mq with
  | [] => .next s
  | o :: _ =>
    if o.started && !o.stopped && o.fault.isNone && decide (o.kdone < (geoOf o.words).kb) then
      .next (s.tickFresh.updCore core (fun k => k.kblock o s.fresh))
    else .next s

/-- One element of an operation that has folded everything is written before the others (R97, R107). -/
def State.earlyElem (s : State) (c e : Nat) : State :=
  match (s.core c).mq with
  | [] => s
  | o :: _ =>
    let g := geoOf o.words
    match o.part with
    | some part =>
      if o.started && !o.stopped && o.fault.isNone && decide (g.kb ≤ o.kdone) && g.holds e then
        s.tickFresh.updCore c (fun k =>
          let acc := o.putElem part s.fresh k.acc e
          { k with acc := acc }.setHead { o with base := Map.set 0 o.base e (Map.get 0 acc e), part := some (Map.set 0 part e (Map.get 0 acc e)) })
      else s
    | none => s

/-- MATRIX_OP_END (R131, R134). -/
def execMatrixOpEnd (core : Nat) (s : State) : Out :=
  match (s.core core).mq with
  | [] => .next s
  | o :: _ =>
    if !o.started || o.stopped then .next s
    else match o.fault with
      | some st => .next (s.endMat core o (if o.ovf then st ||| 0x40000000 else st))
      | none =>
        let g := geoOf o.words
        if o.kdone < g.kb then .next s else .next (s.endMat core o (o.finalStatus g (s.core core).ovf))

/-! ### Instructions (R288 to R292) -/

/-- MFENCE (R106, R288): what is stored before it, the engine reads new. Every store of the model is performed when it issues, so nothing is
waited for. -/
def execMfence (f : EForm) (s : State) : Out :=
  .next (runExecs { h := f.h, avail := .core } (fun s e => (s.updCore s.cur.core (fun k => { k with unfenced := [] })).finishAll e {}) s)

/-- The next ticket: 1 follows 0xFFFFFFFF (R131). -/
def nextTicket (t : W32) : W32 := if t = 0xFFFFFFFF then 1 else t + 1

/-- MMA for one execution (R130, R131). -/
def State.mmaOne (f : EForm) (s : State) (e : Exec) : State :=
  let c := s.cur.core
  let k := s.core c
  let off := (e.op 0).lo.toNat
  if off = 0 ∨ off % 64 ≠ 0 ∨ 0x0BFFC0 < off then s.trapExec e .matparam (BitVec.ofNat 64 (16 + off * 2 ^ 32))
  else if 4 ≤ k.mq.length then e.targets.foldl (fun s t => s.updThread c t (fun th => th.wait .matQueue)) s
  else
    let tk := nextTicket k.mticket
    let o : MatOp := { ticket := tk, home := off / 64, sig := EForm.sigTb f, wait := EForm.waitTb f }
    (s.updCore c (fun k => { k with mq := k.mq ++ [o], mticket := tk })).finishAll e (Res.one f.b.toNat tk 1)

/-- The operands of MMA and of MWAIT. -/
def mmaSpec (f : EForm) : OpSpec := { h := f.h, avail := .core, srcs := [{ reg := f.a.toNat, idx := 0 }], dsts := [{ reg := f.b.toNat, idx := 1 }] }
def mwaitSpec (f : EForm) : OpSpec := { h := f.h, avail := .core, srcs := [{ reg := f.a.toNat, idx := 0 }] }

/-- MMA (R289). -/
def execMma (f : EForm) (s : State) : Out :=
  .next (runExecs (mmaSpec f)
    (State.mmaOne f) s)

/-- The trap of an undelivered fault (R134). -/
def matTrap (st : W32) : Cause × W64 :=
  let info := st.toNat / 256 % 65536
  match codeOf st with
  | 0x0E => (.matparam, BitVec.ofNat 64 (info % 256))
  | 0x0D => (.streamdesync, BitVec.ofNat 64 (10 + st.toNat / 2 ^ 29 % 2 + info * 65536))
  | _ => (.accovf, BitVec.ofNat 64 info)

/-- MWAIT for one execution (R131, R290): an acquire at `.core` (R107). The ticket that it waits for is fixed at its issue, and kept: an MMA
issued later is not waited for. -/
def State.mwaitOne (s : State) (e : Exec) : State :=
  let c := s.cur.core
  let k := s.core c
  let t := (e.op 0).lo
  if !k.mwaitOver t then e.targets.foldl (fun s q => s.updThread c q (fun th =>
    th.stall [[(k.mwaitFor t, (e.op 0).tag)]] [] (.mwait (k.mwaitFor t)))) s
  else match k.mfaults.find? (fun x => ticketLe x.1 (k.mwaitFor t)) with
    | some x =>
      let r := matTrap x.2
      (s.updCore c (fun k => { k with mfaults := k.mfaults.filter (· != x) })).trapExec e r.1 r.2
    | none => (s.acquired e).finishAll e {}

/-- MWAIT (R290). -/
def execMwait (f : EForm) (s : State) : Out :=
  .next (runExecs (mwaitSpec f) State.mwaitOne s)

/-- The queue entry that MPROG names. -/
def Core.entry (k : Core) (f : EForm) : Option MatOp := k.mq[f.x.toNat % 4]?

/-- The ticket of an entry, 0 for an empty one. -/
def entryTicket (o : Option MatOp) : W32 := match o with | some o => o.ticket | none => 0

/-- The operands of MPROG and MRESUME by variant. -/
def mprogSpec (f : EForm) : OpSpec := { h := f.h, avail := .sl, dsts := [{ dstD f.a 2 with idx := 0 }, { reg := f.c.toNat, idx := 2 }] }
def mcopySpec (f : EForm) : OpSpec := { h := f.h, avail := .sl, srcs := [{ reg := f.b.toNat, idx := 1 }], dsts := [{ reg := f.c.toNat, idx := 2 }] }
def mlastSpec (f : EForm) : OpSpec := { h := f.h, avail := .sl, dsts := [{ reg := f.c.toNat, idx := 2 }] }
def mloadSpec (f : EForm) : OpSpec := { h := f.h, avail := .sl, srcs := [{ reg := f.a.toNat, idx := 0 }, { reg := f.b.toNat, idx := 1 }] }
def mtickSpec (f : EForm) : OpSpec := { h := f.h, avail := .sl, srcs := [{ reg := f.b.toNat, idx := 1 }] }

/-- MPROG.prog (R292). -/
def execMprogProg (f : EForm) (s : State) : Out :=
  .next (runExecs (mprogSpec f) (fun s e =>
    let o := (s.core s.cur.core).entry f
    let v : W64 := match o with | some o => o.status ++ o.w14 | none => 0
    let r := Res.pair f.a.toNat v 2
    s.finishAll e { r with regs := r.regs ++ (Res.one f.c.toNat (entryTicket o) 2).regs }) s)

/-- The image of an entry (R133, R134, R292). -/
def Core.imageOf (k : Core) (o : MatOp) : List W32 :=
  let ws := if o.words = [] then k.mpbAt o.home else o.words
  let w12 := (ws.getD 12 0 &&& 0xE0FFFFFF) ||| (match o.wait with | some t => BitVec.ofNat 32 (2 ^ 28 + t * 2 ^ 24) | none => 0)
  ((ws.set 12 w12).set 14 o.w14).set 15 o.status

/-- Words written at an offset of the map. -/
def State.putWords (s : State) (p : Place) : Nat → List W32 → State
  | _, [] => s
  | i, w :: ws => State.putWords (s.storePlace { p with off := p.off + 4 * i, raw := p.raw + 4 * i } (leBytes 4 w.toNat) false) p (i + 1) ws

/-- The checks of a block offset: MISALIGN, then SPRANGE (R75, R274); `win` admits the windows of a share set. -/
def State.blockAt (s : State) (e : Exec) (off n align : Nat) (win : Bool := true) : Except (Cause × W64) Place :=
  if off % align ≠ 0 then .error (.misalign, BitVec.ofNat 64 off)
  else if !win && inWindow off then .error (.sprange, BitVec.ofNat 64 off)
  else match s.place s.cur.core ((s.core s.cur.core).atSl e.lead) off n with
    | some p => .ok p
    | none => .error (.sprange, BitVec.ofNat 64 off)

/-- MPROG.copy (R292): to local scratchpad or staging. -/
def execMprogCopy (f : EForm) (s : State) : Out :=
  .next (runExecs (mcopySpec f) (fun s e =>
    let k := s.core s.cur.core
    match s.blockAt e (e.op 0).lo.toNat 64 64 (win := false) with
    | .error (cz, v) => s.trapExec e cz v
    | .ok p =>
      let o := k.entry f
      let s := match o with | some o => s.putWords p 0 (k.imageOf o) | none => s
      s.finishAll e (Res.one f.c.toNat (entryTicket o) 2)) s)

/-- MPROG.last (R292). -/
def execMprogLast (f : EForm) (s : State) : Out :=
  .next (runExecs (mlastSpec f) (fun s e =>
    s.finishAll e (Res.one f.c.toNat (s.core s.cur.core).mticket 2)) s)

/-- MSTOP's effect (R144, R292): the engine stands; the head stops between K-blocks, and its elements and its progress are written. -/
def State.stopMat (s : State) (c : Nat) : State :=
  let k := s.core c
  let s := s.updCore c (fun k => { k with mstop := true })
  match k.mq with
  | [] => s
  | o :: _ =>
    if o.stopped then s
    else
      let n := s.fresh
      let o := { o with stopped := true, status := w15 o.ovf 0 0 0xF0, words := if o.words = [] then k.mpbAt o.home else o.words }
      (s.tickFresh.updCore c (fun k => (k.commitMat o n).setHead { o with part := none, base := [] })).putStatus c o

/-- MSTOP (R144, R292). A K-block is one step of the model, so the head always stands between blocks. -/
def execMstop (f : EForm) (s : State) : Out :=
  .next (runExecs { h := f.h, avail := .sl } (fun s e => (s.stopMat s.cur.core).finishAll e {}) s)

/-- The stop is released; the head goes on from its progress word with its elements as they stand (R144). -/
def Core.resumeMat (k : Core) : Core :=
  match k.mq with
  | [] => { k with mstop := false }
  | o :: _ =>
    if o.stopped then
      let o := { o with stopped := false, status := 0 }
      { k with mstop := false }.setHead (if o.started && o.fault.isNone then o.take k.acc else o)
    else { k with mstop := false }

/-- MRESUME (R292). -/
def execMresume (f : EForm) (s : State) : Out :=
  .next (runExecs { h := f.h, avail := .sl } (fun s e => (s.updCore s.cur.core Core.resumeMat).finishAll e {}) s)

/-- A queue entry from an image (R134, R292); `row` is the lowest row whose bit it set before it was saved. Its status word reads 0 until it ends
or stops (log 128). -/
def opOfImage (ws : List W32) (ticket : W32) (row : Option Nat := none) : MatOp :=
  let w12 := wN ws 12
  let w14 := wN ws 14
  { words := ws, image := true, ticket := ticket, home := w14 / 2 ^ 13 % 2 ^ 14,
    sig := if w14.testBit 31 then some (w14 / 2 ^ 27 % 16) else none,
    wait := if w12.testBit 28 then some (w12 / 2 ^ 24 % 16) else none,
    kdone := w14 % 2 ^ 13, ovf := (wN ws 15).testBit 30, ovfRow := row }

/-- The lowest row that the operation of a ticket had set an overflow bit of when its instance was saved (R113, R134, log 111). -/
def Core.carriedRow (k : Core) (ticket : W32) : Option Nat := k.inst.bind (fun i => Map.find i.carry.rows ticket.toNat)

/-- The operation of an image has ended (R292). -/
def imageEnded (ws : List W32) : Bool :=
  let w := wN ws 15
  w.testBit 31 && (w % 256 == 0 || w % 256 == 0x0D || w % 256 == 0x0E || w % 256 == 0x17)

/-- MRESUME.load (R292). -/
def execMresumeLoad (f : EForm) (s : State) : Out :=
  .next (runExecs (mloadSpec f) (fun s e =>
    let k := s.core s.cur.core
    if !k.mstop || decide (4 ≤ k.mq.length) then s.trapExec e .illegal s.cur.word
    else match s.blockAt e (e.op 0).lo.toNat 64 64 with
      | .error (cz, v) => s.trapExec e cz v
      | .ok p =>
        let ws := descWords (s.readPlace p 64)
        let s := if imageEnded ws then s
          else s.updCore s.cur.core (fun k => { k with mq := k.mq ++ [opOfImage ws (e.op 1).lo (k.carriedRow (e.op 1).lo)] })
        s.finishAll e {}) s)

/-- MRESUME.tick (R292). -/
def execMresumeTick (f : EForm) (s : State) : Out :=
  .next (runExecs (mtickSpec f) (fun s e =>
    (s.updCore s.cur.core (fun k => { k with mticket := (e.op 0).lo })).finishAll e {}) s)

end Sys2Proof.Machine
end

