-- ==== Sys2Proof/Machine/Coverage.lean ====
section
/-! DEFINITION. The coverage engine (R145 to R163, R293 to R295). -/

namespace Sys2Proof.Machine
open Sys2Proof

/-! ### Exact points (R151 to R154) -/

structure Pt where
  x : Int
  y : Int
  deriving DecidableEq, Repr

/-- `n ÷ d` rounded to the nearest integer, ties to even, for `d > 0`. -/
def rneDiv (n : Int) (d : Nat) : Int :=
  let q := n / (d : Int)
  let r := (n % (d : Int)).toNat
  if d < 2 * r ∨ (2 * r = d ∧ q % 2 ≠ 0) then q + 1 else q

/-- One axis of a curve of degree 2 or 3 at `g ÷ 2^sh`, exact, then RNE. -/
def evalAxis (cs : List Int) (g sh : Nat) : Int :=
  let d := 2 ^ sh
  let u : Int := (d - g : Nat)
  let t : Int := (g : Nat)
  match cs with
  | [a, b, c] => rneDiv (a * u ^ 2 + 2 * b * u * t + c * t ^ 2) (d ^ 2)
  | [a, b, c, e] => rneDiv (a * u ^ 3 + 3 * b * u ^ 2 * t + 3 * c * u * t ^ 2 + e * t ^ 3) (d ^ 3)
  | _ => 0

def evalPt (ps : List Pt) (g sh : Nat) : Pt := { x := evalAxis (ps.map (·.x)) g sh, y := evalAxis (ps.map (·.y)) g sh }

/-! ### Monotone splitting (R151 to R153) -/

/-- A quadratic's split on one axis, in units of 2^-16. -/
def quadSplit : List Int → List Nat
  | [a, b, c] =>
    let num := a - b
    let den := a - 2 * b + c
    let (num, den) := if den < 0 then (-num, -den) else (num, den)
    if 0 < num ∧ num < den then [(rneDiv (num * 65536) den.toNat).toNat] else []
  | _ => []

/-- The sign of a cubic's derivative at `n ÷ d`, as a value with that sign. -/
def derivAt (a b c : Int) (n d : Int) : Int := a * (d - n) ^ 2 + 2 * b * n * (d - n) + c * n ^ 2

/-- The least `g` in `lo + 1 .. hi` that satisfies a rising condition, if `hi` does (R152). -/
def bisect (ok : Nat → Bool) : Nat → Nat → Nat → Nat
  | 0, _, hi => hi
  | n + 1, lo, hi =>
    if hi ≤ lo + 1 then hi
    else
      let mid := (lo + hi) / 2
      if ok mid then bisect ok n lo mid else bisect ok n mid hi

/-- The split in the piece `(ln ÷ ld, hn ÷ hd]` (R152). -/
def pieceRoot (a b c : Int) (ln ld hn hd : Nat) : List Nat :=
  let qa := derivAt a b c ln ld
  let qb := derivAt a b c hn hd
  if qa = 0 ∨ qb = 0 ∨ (decide (0 < qa) == decide (0 < qb)) = true then []
  else
    let lo := ln * 65536 / ld
    let hi := hn * 65536 / hd
    let ok (g : Nat) : Bool := let v := derivAt a b c g 65536; v == 0 || (decide (0 < v) == decide (0 < qb))
    if hi ≤ lo ∨ ok hi = false then [] else [bisect ok 17 lo hi]

/-- A cubic's splits on one axis, in units of 2^-16. -/
def cubicSplit : List Int → List Nat
  | [p0, p1, p2, p3] =>
    let a := p1 - p0
    let b := p2 - p1
    let c := p3 - p2
    let num := a - b
    let den := a - 2 * b + c
    let (num, den) := if den < 0 then (-num, -den) else (num, den)
    if 0 < num ∧ num < den then pieceRoot a b c 0 1 num.toNat den.toNat ++ pieceRoot a b c num.toNat den.toNat 1 1
    else pieceRoot a b c 0 1 1 1
  | _ => []

def insertNat (x : Nat) : List Nat → List Nat
  | [] => [x]
  | y :: ys => if x < y then x :: y :: ys else if x = y then y :: ys else y :: insertNat x ys

/-- The split parameters of both axes, sorted and merged, with both ends (R153). -/
def splits (ps : List Pt) : List Nat :=
  let ax (cs : List Int) : List Nat := if ps.length = 3 then quadSplit cs else cubicSplit cs
  let gs := (ax (ps.map (·.x)) ++ ax (ps.map (·.y))).filter (fun g => decide (0 < g ∧ g < 65536))
  0 :: gs.foldl (fun l g => insertNat g l) [] ++ [65536]

/-! ### Flattening (R154) -/

/-- The scaled second difference of one axis: the value of dd times 2^32 (quadratic) or 2^48 (cubic), for a piece in units of 2^-16. -/
def secondDiff (cs : List Int) (ta tb : Nat) : Nat :=
  match cs with
  | [a, b, c] => (tb - ta) ^ 2 * (a - 2 * b + c).natAbs
  | [a, b, c, e] =>
    let d0 := a - 2 * b + c
    let d1 := b - 2 * c + e
    let at' (t : Nat) : Nat := (((65536 - t : Nat) : Int) * d0 + (t : Nat) * d1).natAbs
    (tb - ta) ^ 2 * max (at' ta) (at' tb)
  | _ => 0

/-- The number of lines of a piece: a power of two from 1 to 256. -/
def lineCount (ps : List Pt) (ta tb : Nat) : Nat :=
  let dd := max (secondDiff (ps.map (·.x)) ta tb) (secondDiff (ps.map (·.y)) ta tb)
  let fits (n : Nat) : Bool := if ps.length = 3 then decide (dd ≤ 64 * n ^ 2 * 2 ^ 32) else decide (3 * dd ≤ 64 * n ^ 2 * 2 ^ 48)
  ([1, 2, 4, 8, 16, 32, 64, 128].find? fits).getD 256

/-- The end of a piece: the curve's own end, or a split point. -/
def endPt (ps : List Pt) (g : Nat) : Pt :=
  if g = 0 then ps.headD ⟨0, 0⟩ else if g = 65536 then ps.getLastD ⟨0, 0⟩ else evalPt ps g 16

/-- The lines of a piece, none when its rounded ends are equal (R153, R154). -/
def pieceLines (ps : List Pt) (ta tb : Nat) : List (Pt × Pt) :=
  let pa := endPt ps ta
  let pb := endPt ps tb
  if pa = pb then []
  else
    let n := lineCount ps ta tb
    let inner := (List.range (n - 1)).map (fun k => evalPt ps (ta * 256 + (tb - ta) * 256 * (k + 1) / n) 24)
    let pts := pa :: inner ++ [pb]
    pts.zip pts.tail

/-- The lines of a curve. -/
def curveLines (ps : List Pt) : List (Pt × Pt) :=
  let ts := splits ps
  (ts.zip ts.tail).flatMap (fun e => pieceLines ps e.1 e.2)

/-! ### Lines to pieces (R155) -/

/-- A crossing: its exact parameter as a fraction, its point. -/
structure Cross where
  num : Int
  den : Nat
  pt : Pt
  deriving DecidableEq, Repr

/-- Puts a crossing in its place; one of equal parameter merges. -/
def insertCross (c : Cross) : List Cross → List Cross
  | [] => [c]
  | d :: ds =>
    let l := c.num * d.den
    let r := d.num * c.den
    if l < r then c :: d :: ds else if l = r then d :: ds else d :: insertCross c ds

/-- The multiples of 256 strictly between two coordinates. -/
def between (a b : Int) : List Int :=
  let lo := min a b
  let hi := max a b
  let first := lo / 256 + 1
  (List.range ((hi - 1) / 256 + 1 - first).toNat).map (fun i => (first + (i : Nat)) * 256)

/-- The points of a line split at the pixel boundaries, from its lower end in (y, x) order. -/
def splitLine (a b : Pt) : List Pt :=
  let dx := b.x - a.x
  let dy := b.y - a.y
  let ys := (between a.y b.y).map (fun y =>
    ({ num := y - a.y, den := dy.toNat, pt := ⟨rneDiv (a.x * dy + dx * (y - a.y)) dy.toNat, y⟩ } : Cross))
  let sg : Int := if dx < 0 then -1 else 1
  let xs := (between a.x b.x).map (fun x =>
    ({ num := sg * (x - a.x), den := dx.natAbs, pt := ⟨x, rneDiv (sg * (a.y * dx + dy * (x - a.x))) dx.natAbs⟩ } : Cross))
  a :: ((ys ++ xs).foldl (fun l c => insertCross c l) []).map (·.pt) ++ [b]

/-- The pieces of a line in its own direction. -/
def linePieces (p q : Pt) : List (Pt × Pt) :=
  let rev := q.y < p.y ∨ (q.y = p.y ∧ q.x < p.x)
  let pts := if rev then (splitLine q p).reverse else splitLine p q
  pts.zip pts.tail

/-! ### Deposits (R148, R156) -/

def Cov.cell (v : Cov) (i : Nat) : W32 := Map.get 0 v.cmem i
def Cov.addCell (v : Cov) (i : Nat) (d : Int) : Cov := { v with cmem := Map.set 0 v.cmem i (v.cell i + BitVec.ofInt 32 d) }
/-- T (R145). -/
def Cov.tile (v : Cov) : Nat := 4 * 2 ^ v.size.toNat

/-- Deposits one piece. -/
def Cov.deposit (v : Cov) (e : Pt × Pt) : Cov :=
  let a := e.1
  let b := e.2
  let dy := b.y - a.y
  let px := min a.x b.x / 256
  let cx := px - v.ox.toInt
  let cy := min a.y b.y / 256 - v.oy.toInt
  if dy = 0 ∨ cy < 0 ∨ (v.tile : Int) ≤ cy ∨ (v.tile : Int) ≤ cx then v
  else if cx < 0 then v.addCell (0x800 + cy.toNat) dy
  else
    let i := (cy.toNat * 32 + cx.toNat) * 2
    (v.addCell i dy).addCell (i + 1) (dy * (a.x + b.x - 512 * px))

def Cov.line (v : Cov) (p q : Pt) : Cov := (linePieces p q).foldl Cov.deposit v
def Cov.curve (v : Cov) (ps : List Pt) : Cov := (curveLines ps).foldl (fun v e => v.line e.1 e.2) v

/-! ### Records (R149, R150, R161) -/

/-- What a record does: the stream goes on, ends, or faults for a reason. -/
inductive RecEnd where
  | more | fin | bad (reason : Nat)
  deriving DecidableEq, Repr

def recWords (kind : Nat) : Nat := match kind with | 1 => 2 | 2 => 2 | 3 => 4 | 4 => 6 | _ => 0

/-- The closing line of the current subpath (R150). -/
def Cov.closeSub (v : Cov) (implicit : Bool) : Cov :=
  if (implicit && v.openSub) || (v.curx == v.subx && v.cury == v.suby) then v
  else
    { v.line ⟨v.curx.toInt, v.cury.toInt⟩ ⟨v.subx.toInt, v.suby.toInt⟩ with curx := v.subx, cury := v.suby }

/-- The effect of a sound record. -/
def Cov.applyRec (v : Cov) (kind : Nat) (opn : Bool) (xs : List W32) : Cov :=
  let c (i : Nat) : W32 := xs.getD i 0
  let p (i : Nat) : Pt := ⟨(c i).toInt, (c (i + 1)).toInt⟩
  let cur : Pt := ⟨v.curx.toInt, v.cury.toInt⟩
  let moveTo (v : Cov) (i : Nat) : Cov := { v with curx := c i, cury := c (i + 1) }
  match kind with
  | 0 => if v.havept then v.closeSub true else v
  | 1 =>
    let v := if v.havept then v.closeSub true else v
    { v with curx := c 0, cury := c 1, subx := c 0, suby := c 1, havept := true, openSub := opn }
  | 2 => moveTo (v.line cur (p 0)) 0
  | 3 => moveTo (v.curve [cur, p 0, p 2]) 2
  | 4 => moveTo (v.curve [cur, p 0, p 2, p 4]) 4
  | _ => v.closeSub false

/-- The next record of a stream (R150); its reasons are judged in the order 1, 4, 3, 2 (R161). -/
def Cov.record (v : Cov) (sp : Map Byte) : Cov × RecEnd :=
  let nxt := v.next.toNat
  let lim := v.limit.toNat
  if lim < nxt + 4 then (v, .bad 4)
  else
    let kw := leNat (Map.getRange Config.blank sp nxt 4)
    let kind := kw % 256
    let opn := kw.testBit 8
    let n := recWords kind
    if 512 ≤ kw ∨ 6 ≤ kind ∨ (opn = true ∧ kind ≠ 1) then (v, .bad 1)
    else if lim < nxt + 4 + 4 * n then (v, .bad 4)
    else
      let xs := (List.range n).map (fun i => word32 (Map.getRange Config.blank sp (nxt + 4 + 4 * i) 4))
      if xs.any (fun x => decide (x.toInt < -(2 ^ 23) ∨ 2 ^ 23 - 1 < x.toInt)) then (v, .bad 3)
      else if 2 ≤ kind ∧ v.havept = false then (v, .bad 2)
      else ({ v.applyRec kind opn xs with next := BitVec.ofNat 32 (nxt + 4 + 4 * n), recidx := v.recidx + 1 },
            if kind = 0 then .fin else .more)

/-! ### Ends and faults of commands (R146, R160, R161) -/

def Core.updCov (k : Core) (f : Cov → Cov) : Core := { k with cov := f k.cov }

/-- The head command ends with a status; its signal is never marked failed. It is a release at `.core` (R82, R108). -/
def Core.endCov (k : Core) (m : CovCmd) (status : Nat) : Core :=
  ((k.updCov (fun v => { v with status := BitVec.ofNat 8 status, queue := v.queue.tail })).signal m.sig false).relMark

/-- A stream fault: recorded, and what is queued behind is skipped (R161). -/
def Core.covFault (k : Core) (m : CovCmd) (idx reason : Nat) : Core :=
  (k.updCov (fun v => { v with faulted := true, frec := BitVec.ofNat 32 idx, freason := BitVec.ofNat 32 reason,
                               queue := v.queue.map (fun q => { q with skip := true }) })).endCov m 5

/-- CVCLR (R148). -/
def Cov.clear (v : Cov) (m : CovCmd) : Cov :=
  { v with
    ox := m.opa, oy := m.opb, size := BitVec.ofNat 2 m.fn, faulted := false, havept := false,
    depth := if m.fn / 4 % 2 = 1 then 0 else v.depth, cmem := v.cmem.filter (fun e => decide (0x820 ≤ e.1)) }

/-! ### The scan (R157 to R160) -/

/-- Coverage of a pixel from its S (R157). -/
def coverage (evenOdd : Bool) (sv : W32) : Nat :=
  let m := sv.toInt.natAbs
  if evenOdd then (let r := m % 262144; if r ≤ 131072 then r else 262144 - r) else min m 131072

/-- The value of the top clip level at a pixel (R158). -/
def Cov.clipAt (v : Cov) (cy cx : Nat) : Nat :=
  if v.depth = 0 then 131072 else (v.cell (0xC00 + (v.depth.toNat - 1) * 0x400 + cy * 32 + cx)).toNat

/-- The effective coverages of a row, from a running sum of cover (R157, R158). -/
def Cov.scanRow (v : Cov) (evenOdd : Bool) (cy : Nat) : Nat → Nat → W32 → List Nat
  | 0, _, _ => []
  | n + 1, cx, run =>
    let cov := v.cell ((cy * 32 + cx) * 2)
    let c := coverage evenOdd (512 * (run + cov) - v.cell ((cy * 32 + cx) * 2 + 1))
    (c * v.clipAt cy cx + 65536) / 131072 :: Cov.scanRow v evenOdd cy n (cx + 1) (run + cov)

def Cov.grid (v : Cov) (evenOdd : Bool) : List (List Nat) :=
  (List.range v.tile).map (fun cy => v.scanRow evenOdd cy v.tile 0 (v.cell (0x800 + cy)))

/-- A span (R159). -/
structure Span where
  row : Nat
  x0 : Nat
  len : Nat
  c : Nat
  deriving DecidableEq, Repr

/-- The runs of equal nonzero coverage of a row (R159); `cur` is the run under way. -/
def rowSpans (row : Nat) : List Nat → Nat → Option Span → List Span
  | [], _, cur => cur.toList
  | c :: cs, x, cur =>
    match cur with
    | some r => if r.c = c then rowSpans row cs (x + 1) (some { r with len := r.len + 1 })
        else r :: rowSpans row cs (x + 1) (if c = 0 then none else some ⟨row, x, 1, c⟩)
    | none => rowSpans row cs (x + 1) (if c = 0 then none else some ⟨row, x, 1, c⟩)

def gridSpans (g : List (List Nat)) : List Span := g.zipIdx.flatMap (fun e => rowSpans e.2 e.1 0 none)

/-- The two words of a span. -/
def Span.words (p : Span) (last : Bool) : List W32 :=
  [BitVec.ofNat 32 (p.row + p.x0 * 2 ^ 8 + p.len * 2 ^ 16 + if last then 2 ^ 24 else 0), BitVec.ofNat 32 p.c]

/-- The words of header and spans (R159, R160). -/
def spanWords (status : Nat) (ps : List Span) : List W32 :=
  BitVec.ofNat 32 ps.length :: BitVec.ofNat 32 status :: ps.zipIdx.flatMap (fun e => e.1.words (e.2 + 1 == ps.length))

/-- PUSH's new level (R158). -/
def Cov.push (v : Cov) (g : List (List Nat)) : Cov :=
  let base := 0xC00 + v.depth.toNat * 0x400
  { v with
    depth := v.depth + 1
    cmem := g.zipIdx.foldl (fun m r => r.1.zipIdx.foldl (fun m e => Map.set 0 m (base + r.2 * 32 + e.2) (BitVec.ofNat 32 e.1)) m) v.cmem }

/-- What a CVSCAN writes and leaves: its words, its status, the engine after it, the first span that does not fit (R161). -/
structure ScanOut where
  words : List W32
  status : Nat
  eng : Cov
  fault : Option Nat := none
  deriving DecidableEq, Repr

/-- CVSCAN (R157 to R161): spans, PUSH, POP, count. -/
def Cov.scan (v : Cov) (m : CovCmd) : ScanOut :=
  let g := v.grid (m.fn / 4 % 2 == 1)
  match m.fn % 4 with
  | 0 =>
    let all := gridSpans g
    let ps := all.take m.opb.toNat
    let room := (0xC0000 - m.opa.toNat - 8) / 8
    if room < ps.length then { words := spanWords 5 (ps.take room), status := 5, eng := v, fault := some room }
    else
      let st := if m.opb.toNat < all.length then 1 else 0
      { words := spanWords st ps, status := st, eng := v }
  | 1 => if v.depth = 7 then { words := spanWords 2 [], status := 2, eng := v } else { words := spanWords 0 [], status := 0, eng := v.push g }
  | 2 =>
    if v.depth = 0 then { words := spanWords 3 [], status := 3, eng := v }
    else { words := spanWords 0 [], status := 0, eng := { v with depth := v.depth - 1 } }
  | _ => { words := [BitVec.ofNat 32 (g.flatMap (fun r => r.filter (· != 0))).length, 0], status := 0, eng := v }

/-- The words of an output, but for those that were written before the others (R97, R108). -/
def State.spanWrite (s : State) (c off : Nat) (early : List Nat) (ws : List W32) : State :=
  if early = [] then s.engineWrite c off ws
  else ws.zipIdx.foldl (fun s e => if early.contains e.2 then s else s.engineWrite c (off + 4 * e.2) [e.1]) s

/-- The head CVSCAN runs to its end (R157 to R161). -/
def State.covScan (s : State) (c : Nat) (m : CovCmd) : State :=
  let r := (s.core c).cov.scan m
  (s.spanWrite c m.opa.toNat m.early r.words).updCore c (fun k => match r.fault with
    | some i => k.covFault m i 5
    | none => (k.updCov (fun _ => r.eng)).endCov m r.status)

/-! ### The engine's events (R146, R150) -/

/-- The head command may start (R146). -/
def Core.covReady (k : Core) (m : CovCmd) : Bool :=
  !m.started && !k.cov.halt && (match m.wait with | some t => (k.tb t).complete | none => true)

/-- One word of the output of a CVSCAN at the head is written before the others (R97, R108). -/
def State.earlySpan (s : State) (c i : Nat) : State :=
  match (s.core c).cov.queue with
  | [] => s
  | m :: rest =>
    if (s.core c).covReady m && !m.skip && m.op == 0xC2 && !m.early.contains i then
      match ((s.core c).cov.scan m).words[i]? with
      | some w => (s.engineWrite c (m.opa.toNat + 4 * i) [w]).updCore c (fun k => k.updCov (fun v =>
          { v with queue := { m with early := i :: m.early } :: rest }))
      | none => s
    else s

/-- COV_COMMAND_START (R146): the head command passes its wait; all but CVPATH run to their end. -/
def execCovCommandStart (core : Nat) (s : State) : Out :=
  let k := s.core core
  match k.cov.queue with
  | [] => .next s
  | m :: rest =>
    if !k.covReady m then .next s
    else if m.skip then
      let s := if m.op = 0xC2 then s.engineWrite core m.opa.toNat (spanWords 4 []) else s
      .next (s.updCore core (fun k => k.endCov m 4))
    else if m.op = 0xC0 then .next (s.updCore core (fun k => (k.updCov (fun v => v.clear m)).endCov m 0))
    else if m.op = 0xC1 then
      .next (s.updCore core (fun k => k.updCov (fun v =>
        { v with stream := m.opa, next := m.opa, limit := m.opb, recidx := 0, stopped := false,
                 queue := { m with started := true, wait := none } :: rest })))
    else .next (s.covScan core m)

/-- COV_PATH_RECORD (R150). A word that a thread has stored since the command's issue is read as it was or as it is (R105). -/
def execCovPathRecord (core : Nat) (s : State) : Out :=
  let k := s.core core
  match k.cov.queue with
  | [] => .next s
  | m :: _ =>
    if m.started = false ∨ m.op ≠ 0xC1 ∨ k.cov.halt = true then .next s
    else
      let (v, r) := k.cov.record (mixOld k.scratch m.old s.fresh)
      .next ((if m.old = [] then s else s.tickFresh).updCore core (fun k => match r with
        | .more => { k with cov := v }
        | .fin => Core.endCov { k with cov := v } m 0
        | .bad why => k.covFault m k.cov.recidx.toNat why))

/-! ### Issue (R146, R148, R161, R293) -/

/-- %tval of a pending fault (R161). -/
def Cov.faultVal (v : Cov) : W64 := BitVec.ofNat 64 (v.frec.toNat * 2 ^ 32 + v.freason.toNat % 256)

/-- The words whose newest store a path that is issued now may miss: no acquire of its threads has ordered it before the issue (R105). -/
def Core.missedNow (k : Core) (c : Nat) (ts : List Nat) : Map W32 :=
  k.recent.filterMap (fun e => (k.missable (ts.map (threadId c)) (k.acqOf ts) 0 e.1).map (fun r => (e.1, r.old)))

/-- Queues a coverage command, or blocks its threads (R146). -/
def State.covEnqueue (s : State) (e : Exec) (f : EForm) (op : Nat) (a b : W32) : State :=
  let c := s.cur.core
  if 4 ≤ (s.core c).cov.queue.length then e.targets.foldl (fun s t => s.updThread c t (fun th => th.wait .covQueue)) s
  else
    let m : CovCmd := { op := op, fn := f.fn.toNat, opa := a, opb := b, sig := EForm.sigTb f, wait := EForm.waitTb f
                        old := if op = 0xC1 then (s.core c).missedNow c e.targets else [] }
    (s.updCore c (fun k => k.updCov (fun v => { v with queue := v.queue ++ [m] }))).finishAll e {}

/-- Runs the issue of a coverage command: while FAULTED is set, every execution traps CVSTREAM and FAULTED is cleared (R161). -/
def covIssue (o : OpSpec) (one : State → Exec → State) (s : State) : Out :=
  let g := gather o s
  let v := (s.core s.cur.core).cov
  let s := s.settle o g
  if v.faulted && g.execs != [] then
    .next ((g.execs.foldl (fun s e => s.trapExec e .cvstream v.faultVal) s).updCore s.cur.core
      (fun k => k.updCov (fun v => { v with faulted := false })))
  else .next (g.execs.foldl one s)

/-- The operands of CVCLR, of CVPATH and CVSCAN, and of CVSAVE and CVLOAD. -/
def cvclrSpec (f : EForm) : OpSpec := { h := f.h, avail := .core, srcs := [{ reg := f.a.toNat, n := 2, idx := 0 }] }
def cvSpec (f : EForm) : OpSpec := { h := f.h, avail := .core, srcs := [{ reg := f.a.toNat, idx := 0 }, { reg := f.b.toNat, idx := 1 }] }
def cvimgSpec (f : EForm) : OpSpec := { h := f.h, avail := .sl, srcs := [{ reg := f.a.toNat, idx := 0 }] }

/-- CVCLR (R148, R293): the origin in A. -/
def execCvclr (f : EForm) (s : State) : Out :=
  covIssue (cvclrSpec f) (fun s e =>
    let t : Int := (4 * 2 ^ (f.fn.toNat % 4) : Nat)
    let x := (e.op 0).lo
    let y := (e.op 0).hi
    if x.toInt % t ≠ 0 ∨ y.toInt % t ≠ 0 then s.trapExec e .cvstream 6 else s.covEnqueue e f 0xC0 x y) s

/-- CVPATH (R150, R293): stream offset in A, LIMIT in B. -/
def execCvpath (f : EForm) (s : State) : Out :=
  covIssue (cvSpec f) (fun s e =>
    let a := (e.op 0).lo
    let b := (e.op 1).lo
    if a.toNat % 4 ≠ 0 then s.trapExec e .misalign (a.setWidth 64)
    else if 0xC0000 ≤ a.toNat then s.trapExec e .sprange (a.setWidth 64)
    else if 0xC0000 < b.toNat then s.trapExec e .sprange (b.setWidth 64)
    else s.covEnqueue e f 0xC1 a b) s

/-- CVSCAN (R157, R293): buffer in A, capacity in B. -/
def execCvscan (f : EForm) (s : State) : Out :=
  covIssue (cvSpec f) (fun s e =>
    let a := (e.op 0).lo
    if a.toNat % 8 ≠ 0 then s.trapExec e .misalign (a.setWidth 64)
    else if 0xC0000 < a.toNat + 8 then s.trapExec e .sprange (a.setWidth 64)
    else s.covEnqueue e f 0xC2 a (e.op 1).lo) s

/-! ### CVBOX (R163) -/

def sat16 (x : Int) : Int := if x < -32768 then -32768 else if 32767 < x then 32767 else x
/-- Signed halves of a word. -/
def lo16 (w : W32) : Int := (w.setWidth 16 : BitVec 16).toInt
def hi16 (w : W32) : Int := ((w >>> 16).setWidth 16 : BitVec 16).toInt
def pack16 (l h : Int) : W32 := (BitVec.ofInt 16 h) ++ (BitVec.ofInt 16 l)

/-- The box of a point folded into a box. -/
def boxFold (size : Nat) (p b : Opnd) : W64 :=
  let t (w : W32) : Int := sat16 (w.toInt / ((2 ^ (10 + size) : Nat) : Int))
  let tx := t p.lo
  let ty := t p.hi
  pack16 (max (lo16 b.hi) tx) (max (hi16 b.hi) ty) ++ pack16 (min (lo16 b.lo) tx) (min (hi16 b.lo) ty)

/-- CVBOX (R163). -/
def execCvbox (f : WForm) (s : State) : Out :=
  alu (specW2 f 2 none 2 none 2) (fun _ e => Res.pair f.d.toNat (boxFold (f.fn.toNat / 4 % 4) (e.op 0) (e.op 1)) 2) s

/-! ### Stopping, saving and loading (R147, R162, R294, R295) -/

/-- CVSTOP's effect: a CVPATH stands between records, and STOPPED says whether the head is one (R162). -/
def Cov.stop (v : Cov) : Cov :=
  match v.queue with
  | m :: _ => if m.started then { v with halt := true, stopped := true, status := 0xF0 } else { v with halt := true, stopped := false }
  | [] => { v with halt := true }

/-- CVSTOP (R162, R294). A record and a scan are one step each of the model. -/
def execCvstop (f : EForm) (s : State) : Out :=
  .next (runExecs { h := f.h, avail := .sl } (fun s e => (s.updCore s.cur.core (fun k => k.updCov Cov.stop)).finishAll e {}) s)

/-- CVRESUME (R294). -/
def execCvresume (f : EForm) (s : State) : Out :=
  .next (runExecs { h := f.h, avail := .sl } (fun s e =>
    (s.updCore s.cur.core (fun k => k.updCov (fun v => { v with halt := false, stopped := false }))).finishAll e {}) s)

/-- CTL of the control record (R147). -/
def Cov.ctl (v : Cov) : W32 :=
  BitVec.ofNat 32 (v.status.toNat * 256 + (if v.faulted then 128 else 0) + (if v.stopped then 64 else 0) + v.depth.toNat * 8 + v.size.toNat)

/-- The control record (R147), 32 words. -/
def Cov.ctlWords (v : Cov) : List W32 :=
  [v.ox, v.oy, v.ctl, v.recidx, v.stream, v.next, v.limit, v.curx, v.cury, v.subx, v.suby,
   BitVec.ofNat 32 ((if v.havept then 2 else 0) + if v.openSub then 1 else 0), v.frec, v.freason] ++ List.replicate 18 0

/-- A CVPATH that a record says was stopped is under way. -/
def Cov.sync (v : Cov) : Cov :=
  match v.queue with
  | m :: r => if v.stopped && m.op == 0xC1 then { v with queue := { m with started := true } :: r } else v
  | [] => v

/-- Loads the control record; reserved bits are dropped (R294). -/
def Cov.loadCtl (v : Cov) (ws : List W32) : Cov :=
  let w (i : Nat) : W32 := ws.getD i 0
  let c := w 2
  Cov.sync { v with
    ox := w 0, oy := w 1, status := c.extractLsb' 8 8, faulted := c.getLsbD 7, stopped := c.getLsbD 6, depth := c.extractLsb' 3 3,
    size := c.extractLsb' 0 2, recidx := w 3, stream := w 4, next := w 5, limit := w 6, curx := w 7, cury := w 8, subx := w 9,
    suby := w 10, havept := (w 11).getLsbD 1, openSub := (w 11).getLsbD 0, frec := w 12, freason := w 13, halt := true }

/-- The image of the engine's memory (R148): the reserved words and the work area read 0. -/
def Cov.imgWords (v : Cov) : List W32 :=
  (List.range 0x3000).map (fun i => if i < 0x820 ∨ (0xC00 ≤ i ∧ i < 0x2800) then v.cell i else 0)
def Cov.loadImg (v : Cov) (ws : List W32) : Cov :=
  { v with
    halt := true
    cmem := ws.zipIdx.foldl (fun m e => if e.2 < 0x820 ∨ (0xC00 ≤ e.2 ∧ e.2 < 0x2800) then Map.set 0 m e.2 e.1 else m) [] }

/-- A saved queue entry (R295). -/
def CovCmd.words (m : CovCmd) : List W32 :=
  let flags := (if m.wait.isSome then 4 else 0) + (if m.sig.isSome then 2 else 0) + 1
  [BitVec.ofNat 32 (m.op + m.fn % 32 * 2 ^ 8 + flags * 2 ^ 16 + (m.wait.getD 0 * 16 + m.sig.getD 0) * 2 ^ 24), m.opa, m.opb, 0]
def Cov.queueWords (v : Cov) : List W32 := (List.range 4).flatMap (fun i => match v.queue[i]? with
  | some m => m.words
  | none => [0, 0, 0, 0])

/-- A queue entry from its words, none for an empty one; it is skipped where FAULTED is set, for the layout has no mark of its own (log 129). -/
def covOfWords (skip : Bool) (a b c : W32) : Option CovCmd :=
  let op := a.toNat % 256
  let fl := a.toNat / 2 ^ 16 % 256
  let bars := a.toNat / 2 ^ 24
  if op = 0 ∨ fl % 2 = 0 then none
  else some { op := op, fn := a.toNat / 2 ^ 8 % 32, opa := b, opb := c, sig := if fl.testBit 1 then some (bars % 16) else none,
              wait := if fl.testBit 2 then some (bars / 16) else none, skip := skip }
def Cov.loadQueue (v : Cov) (ws : List W32) : Cov :=
  let w (i : Nat) : W32 := ws.getD i 0
  Cov.sync { v with
    halt := true
    queue := (List.range 4).filterMap (fun i => covOfWords v.faulted (w (4 * i)) (w (4 * i + 1)) (w (4 * i + 2))) }

/-- CVSAVE of some words (R294): the engine is stopped first. -/
def cvsave (f : EForm) (n align : Nat) (ws : Cov → List W32) (s : State) : Out :=
  .next (runExecs (cvimgSpec f) (fun s e =>
    match s.blockAt e (e.op 0).lo.toNat n align with
    | .error (cz, v) => s.trapExec e cz v
    | .ok p =>
      let s := s.updCore s.cur.core (fun k => k.updCov Cov.stop)
      (s.putWords p 0 (ws (s.core s.cur.core).cov)).finishAll e {}) s)

/-- Words at a place. -/
def State.placeWords (s : State) (p : Place) (n : Nat) : List W32 :=
  let bs := s.readPlace p n
  (List.range (n / 4)).map (fun i => word32 ((bs.drop (4 * i)).take 4))

/-- CVLOAD of some words (R294). -/
def cvload (f : EForm) (n align : Nat) (ld : Cov → List W32 → Cov) (s : State) : Out :=
  .next (runExecs (cvimgSpec f) (fun s e =>
    match s.blockAt e (e.op 0).lo.toNat n align with
    | .error (cz, v) => s.trapExec e cz v
    | .ok p =>
      let ws := s.placeWords p n
      (s.updCore s.cur.core (fun k => k.updCov (fun v => ld v.stop ws))).finishAll e {}) s)

/-- CVSAVE.img (R294). -/
def execCvsaveImg (f : EForm) (s : State) : Out := cvsave f 0xC000 256 Cov.imgWords s
/-- CVSAVE.ctl (R294). -/
def execCvsaveCtl (f : EForm) (s : State) : Out := cvsave f 128 64 Cov.ctlWords s
/-- CVSAVE.q (R294, R295). -/
def execCvsaveQ (f : EForm) (s : State) : Out := cvsave f 64 64 Cov.queueWords s
/-- CVLOAD.img (R294). -/
def execCvloadImg (f : EForm) (s : State) : Out := cvload f 0xC000 256 Cov.loadImg s
/-- CVLOAD.ctl (R294). -/
def execCvloadCtl (f : EForm) (s : State) : Out := cvload f 128 64 Cov.loadCtl s
/-- CVLOAD.q (R294, R295). -/
def execCvloadQ (f : EForm) (s : State) : Out := cvload f 64 64 Cov.loadQueue s

end Sys2Proof.Machine
end

