-- ==== Sys2Proof/Machine/Queues.lean ====
section
/-! DEFINITION. The shared operations of queues: partitions and slices (R417 to R420), the kick unit (R365), queue control blocks and
device addresses (R367, R385), the accesses of a queue engine (R372, R420), completion records (R371), the end of a logical core and of
a launch (R376, R377). -/

namespace Sys2Proof.Machine
open Sys2Proof

/-! ### Slices and partitions (R417, R419) -/

/-- The set bits of a bitmap, ascending. -/
def setBits {n : Nat} (w : BitVec n) : List Nat := (List.range n).filter (fun i => w.getLsbD i)

/-- The enabled physical cores of a die, ascending (R417). -/
def enabledCores (d : Nat) : List Nat := ((List.range 52).filter (fun i => !(Config.disabled d).getLsbD i)).map (· + 52 * d)

/-- The four places of a slice: a physical core, or none for a retired one (R417). -/
def State.sliceCores (s : State) (sl : Nat) : List (Option Nat) :=
  (List.range 4).map (fun i => match (enabledCores (sl / 12))[4 * (sl % 12) + i]? with
    | some c => if (s.core c).retired then none else some c
    | none => none)

def State.partOf (s : State) (p : Nat) : Option Part := Map.find s.parts p

/-- The logical cores of a partition, ascending (R419). -/
def State.partCores (s : State) (p : Nat) : List (Option Nat) :=
  match s.partOf p with
  | some x => (setBits x.slices).flatMap s.sliceCores
  | none => []

/-- The physical cores of a partition that are backed, in the order of its logical cores (R421). -/
def State.backed (s : State) (p : Nat) : List Nat := (s.partCores p).filterMap id

/-- The partition that a hardware slot is assigned to. -/
def State.slotPart (s : State) (q : Nat) : Option Nat := ((s.parts.find? (fun e => e.2.slots.getLsbD q)).map (·.1))

/-- A core that no instance holds (R378), and that no reset or retirement keeps from use. -/
def State.isFree (s : State) (c : Nat) : Bool :=
  let k := s.core c
  k.inst.isNone && !k.retired && !k.halted && !(s.die (dieOf c)).resetting

/-- The partitions that share the slices of a partition, ascending (R419). -/
def State.tenants (s : State) (p : Nat) : List Nat :=
  match s.partOf p with
  | some x => (s.parts.filter (fun e => e.2.slices == x.slices)).map (·.1)
  | none => []

/-- The name of the gang of a partition: its lowest tenant. -/
def State.gangKey (s : State) (p : Nat) : Nat := (s.tenants p).headD p
def State.gang (s : State) (p : Nat) : Gang := Map.get { tenant := s.gangKey p, left := 1 } s.gangs (s.gangKey p)
def State.setGang (s : State) (p : Nat) (g : Gang) : State := { s with gangs := Map.put s.gangs (s.gangKey p) g }

/-- A partition whose instances may start now: no tenant starts but the one whose turn it is, and none during a switch (R353, R419). -/
def State.mayRun (s : State) (p : Nat) : Bool :=
  match s.partOf p with
  | some x => !x.gang || ((s.gang p).tenant == p && !(s.gang p).switching)
  | none => false

/-- The partitions of a control core. -/
def State.ownParts (s : State) (cc : Nat) : List Nat := (s.parts.filter (fun e => e.2.cc == cc)).map (·.1)

/-! ### The kick unit (R306, R365, R379, R419) -/

/-- The partition of a function; 0xFF is none (R416). -/
def State.funcPart (s : State) (f : Nat) : Option Nat :=
  let b := (Map.get (255 : Byte) s.fmap f).toNat
  if b = 255 then none else some b

/-- The control core that owns a function's partition. -/
def State.funcCc (s : State) (f : Nat) : Option Nat := s.ccOf (s.funcPart f)

/-- The functions of a control core whose summary bit is set (R379). -/
def State.kpsum (s : State) (cc : Nat) : Nat :=
  ((List.range 257).filter (fun f => s.funcCc f == some cc && s.pendBits.any (fun b => b / 64 == f))).length

def insertPend (b : Nat) : List Nat → List Nat
  | [] => [b]
  | x :: xs => if b < x then b :: x :: xs else if b = x then x :: xs else x :: insertPend b xs

/-- A bit of the pending bitmap is set; KICK when %kpsum goes from 0 to nonzero (R365). A function of no partition sets none (R419). -/
def State.setPending (s : State) (f q : Nat) : State :=
  match s.funcCc f with
  | none => s
  | some cc =>
    let s' := { s with pendBits := insertPend (f * 64 + q) s.pendBits }
    if s.kpsum cc = 0 then s'.raiseEvt cc evKICK else s'

/-- The slot to which a queue is bound; a queue is unbound from the moment its QUNBIND issues (R365). -/
def State.boundSlot (s : State) (f q : Nat) : Option Nat :=
  (s.slots.find? (fun e => e.2.bound && e.2.unbinding.isNone && e.2.func == f && e.2.qnum == q)).map (·.1)

/-- %kpend's next bit (R306): the first after the one returned last, else the first. -/
def State.nextPend (s : State) (cc : Nat) : Option Nat :=
  let mine := s.pendBits.filter (fun b => s.funcCc (b / 64) == some cc)
  let after := match (s.core (208 + cc)).kpendAt with | some l => mine.filter (fun b => decide (l < b)) | none => mine
  after.head?.or mine.head?

/-- A slot with a packet in flight, or accepted and not yet issued (R379). -/
def Slot.busy (q : Slot) : Bool := q.bound && decide (q.commit < q.write)

/-- %qstate (R379): each free core of the control core's partitions counts once. -/
def State.qstate (s : State) (cc : Nat) : W32 :=
  let ps := s.ownParts cc
  let mine := s.slots.filter (fun e => e.2.bound && (match s.slotPart e.1 with | some p => ps.contains p | none => false))
  let free := ((ps.flatMap s.backed).eraseDups.filter s.isFree).length
  BitVec.ofNat 32 (mine.length * 2 ^ 16 + (mine.filter (fun e => e.2.busy)).length * 2 ^ 8 + free % 256)

/-! ### Device addresses (R385) -/

/-- Where an address of PASID 0 lies now. -/
def State.loc0 (s : State) (va : Nat) : Option Loc := s.peek 0 va

/-- What an access finds at an address now: its translation; none for good, after an unrecoverable failure; or it has to be walked for, or
asked of the host, or parked. -/
inductive PageAns where
  | have (x : Xlat) | bad | ask
  deriving DecidableEq, Repr

def State.seek (s : State) (part : Option Nat) (pasid va acc : Nat) : PageAns :=
  let known := match s.lookup pasid va with
    | some x => if (pasid = 0 ∨ partOk part x.part) ∧ (x.w || acc != 1) then some x else none
    | none => none
  match known, s.askedFor (pageUser part pasid va acc) with
  | some x, _ => .have x
  | none, some e => if e.open then .ask else .bad
  | none, none => match (s.walk [] part pasid va (acc == 1)).1 with
    | .ats _ => .ask
    | .fault _ _ => .ask
    | _ => .bad

/-- Asks for the page of an access (R390), with the bytes that a write has still to store. -/
def State.askPage (s : State) (part : Option Nat) (pasid va acc : Nat) (bs : List (Nat × Byte)) : State :=
  let u := pageUser part pasid va acc
  match s.askedFor u with
  | some _ => { s with asked := s.asked.map (fun e => if e.user = u then { e with bytes := e.bytes ++ bs } else e) }
  | none => State.startWalk { s with asked := s.asked ++ [{ user := u, bytes := bs }] } pasid { user := u, va := va, acc := acc }

/-- The addresses at which `n` bytes from an address on enter a page of 64 KiB. -/
def pageStarts (va n : Nat) : List Nat :=
  if n = 0 then [] else (List.range ((va + n - 1) / 65536 + 1 - va / 65536)).map (fun i => max va ((va / 65536 + i) * 65536))

/-- Reads at these addresses have their answers; pages without one are asked for. A failure is an answer, told once. -/
def State.readyAt (s : State) (part : Option Nat) (pasid : Nat) (vas : List Nat) : State × Bool :=
  let late := vas.filter (fun va => s.seek part pasid va 0 == .ask)
  let mine (e : Asked) : Bool := vas.any (fun va => e.user == pageUser part pasid va 0)
  if late = [] then (if s.asked.any mine then { s with asked := s.asked.filter (fun e => !mine e) } else s, true)
  else (late.foldl (fun s va => if (s.askedFor (pageUser part pasid va 0)).isSome then s else s.askPage part pasid va 0 []) s, false)

/-- A read of the queue engines at a device address has its answer (R385, R393, R398). -/
def State.ready0 (s : State) (va n : Nat) : State × Bool := s.readyAt none 0 (pageStarts va n)

/-- A byte that a write has still to store. -/
def State.lateByte (s : State) (va : Nat) : Option Byte :=
  match s.askedFor (pageUser none 0 va 1) with
  | some e => (e.bytes.reverse.find? (fun b => b.1 == va)).map (·.2)
  | none => none

/-- Reads bytes at a device address, each through the device address space; an address whose translation fails reads 0 (log 40). -/
def State.read0 (s : State) (va n : Nat) : List Byte :=
  (List.range n).map (fun i => match s.lateByte (va + i), s.loc0 (va + i) with
    | some b, _ => b
    | none, some l => (s.readLoc l 1).headD 0
    | none, none => 0)

/-- Writes one byte at a device address: now, or once its page is there (R393, R398); one whose translation fails is not written (log 40). -/
def State.put0Byte (s : State) (va : Nat) (b : Byte) : State :=
  if (s.askedFor (pageUser none 0 va 1)).isSome then s.askPage none 0 va 1 [(va, b)]
  else match s.seek none 0 va 1 with
    | .have x => (s.markD x).writeLoc (x.at va) [b]
    | .ask => s.askPage none 0 va 1 [(va, b)]
    | .bad => s

/-- Writes bytes at a device address. -/
def State.write0 (s : State) (va : Nat) : List Byte → State
  | [] => s
  | b :: bs => State.write0 (s.put0Byte va b) (va + 1) bs
def State.nat0 (s : State) (va n : Nat) : Nat := leNat (s.read0 va n)
def State.put0 (s : State) (va n v : Nat) : State := s.write0 va (leBytes n v)

/-- A field of the QCB of a slot (R367). -/
def State.qcbPut (s : State) (q off n v : Nat) : State := s.put0 ((s.slot q).qcb.toNat + off) n v
def State.qcbNat (s : State) (q off n : Nat) : Nat := s.nat0 ((s.slot q).qcb.toNat + off) n

/-- REPORT is cleared before cores of a QCB are pre-empted or restored (R377). -/
def State.clearReport (s : State) (q : Nat) : State := s.qcbPut q 0x60 4 0

/-- The save area of logical core `k` under a base; a base of 0 gives 0 (R44, R367). -/
def saveArea (base : W64) (k : Nat) : W64 := if base = 0 then 0 else base + BitVec.ofNat 64 (k * 0x260000)

/-- INSTSTATE of a logical core, written when SAVE is nonzero (R367). -/
def State.putInst (s : State) (base : W64) (k v : Nat) : State :=
  if base = 0 then s else s.put0 ((saveArea base k).toNat + 0x255000) 4 v
def State.instState (s : State) (base : W64) (k : Nat) : Nat := if base = 0 then 0 else s.nat0 ((saveArea base k).toNat + 0x255000) 4

/-! ### A queue engine's own accesses (R372, R393, R394, R420) -/

/-- What a queue engine's access finds. -/
inductive QAns where
  | have (x : Xlat) (l : Loc) (s : State) | wait (s : State) | bad (s : State)
  deriving DecidableEq, Repr

/-- The translation for one access under the queue's PASID: `ahead` for the look-ahead. It is held for that access alone. -/
def State.qXlat (s : State) (q : Nat) (ahead : Bool) (va acc : Nat) : QAns :=
  let sl := s.slot q
  let drop (s : State) : State := s.updSlot q (fun x => if ahead then { x with laXs := .idle, laSrc := [] } else { x with xs := .idle, src := [] })
  let xs := if ahead then sl.laXs else sl.xs
  let ask (kept : Bool) : QAns :=
    match s.getXlat (.queue (if ahead then 64 + q else q)) (if ahead then sl.laSrc else sl.src) sl.pasid va acc with
    | .have x s => .have x (x.at va) (if kept then s else drop s)
    | .wait s => .wait s
    | .bad => .bad (drop s)
  match xs with
  | .failed a => if a / 65536 = va / 65536 then .bad (drop s) else ask true
  | .idle => ask false
  | _ => .wait s

/-- A queue enters ERROR: it stops issuing at once, and FAULT is raised (R368, R379). -/
def State.qError (s : State) (q code : Nat) : State :=
  let s := s.updSlot q (fun x => { x with err := code, phase := if x.launch.isSome then .launch else .idle,
                                          pkt := if x.launch.isSome then x.pkt else none, xs := .idle, src := [], laXs := .idle, laSrc := [] })
  (s.qcbPut q 0x0C 4 (4 + 256 * code)).raiseOpt (s.ccOf (s.slotPart q)) evFAULT

/-! ### Completion (R371) -/

def stOK : Nat := 0
def stSKIPPED : Nat := 1
def stTRAPPED : Nat := 2
def stREFUSED : Nat := 3
def stBADPKT : Nat := 4
def stMEMERR : Nat := 5
def stTIMEOUT : Nat := 6
def stABORTED : Nat := 7
def stLATE : Nat := 8
def stNOSAVE : Nat := 9
/-- STATUS of a code and its detail. -/
def mkStatus (code detail : Nat) : Nat := detail * 2 ^ 16 + code

/-- The bytes of a completion record (R371). -/
def recordBytes (r : CRec) (time : Nat) : List Byte :=
  leBytes 8 r.seq.toNat ++ leBytes 4 r.status ++ leBytes 4 (time / 1024)

/-- A slot that has stopped and whose launches are over becomes idle (R307). -/
def State.slotIdle (s : State) (q : Nat) : State :=
  let sl := s.slot q
  if !sl.bound && (sl.draining || sl.preempting) && sl.launch.isNone && sl.record.isNone then
    ({ s with slots := Map.put s.slots q { prio := sl.prio } }).raiseOpt (s.ccOf (s.slotPart q)) evIDLE
  else s

/-- A record is written or lost: CRWR and COMMIT pass it (R371). IDLE when no accepted packet is left (R379). -/
def State.passRecord (s : State) (q : Nat) : State :=
  let s := s.updSlot q (fun x => { x with record := none, crwr := (x.crwr + 1) % 2 ^ 64, commit := (x.commit + 1) % 2 ^ 64 })
  let sl := s.slot q
  let s := (s.qcbPut q 0x40 8 sl.crwr).qcbPut q 0x18 8 sl.commit
  let s := if sl.bound && !sl.busy then s.raiseOpt (s.ccOf (s.slotPart q)) evIDLE else s
  s.slotIdle q

/-- Writes the record that is due, as soon as the ring has room and the page is there (R371). -/
def State.tryRecord (s : State) (q : Nat) (memErr : Bool) : State :=
  let sl := s.slot q
  match sl.record with
  | none => s
  | some r =>
    let (s, ok) := s.ready0 (sl.qcb.toNat + 0x48) 8
    if !ok || (sl.crwr + 2 ^ 64 - s.qcbNat q 0x48 8) % 2 ^ 64 == sl.crsize then s
    else
      match s.qXlat q false (sl.cring + 16 * (sl.crwr % sl.crsize)) 1 with
      | .wait s => s
      | .bad s => (s.qError q 4).passRecord q
      | .have _ l s =>
        if memErr then (s.qError q 4).passRecord q
        else
          let s := (s.writeLoc l (recordBytes r s.ptime)).passRecord q
          if r.irq then s.irq sl.func sl.qnum else s

/-- STACK and DEPTH of the QCB, level 1 first: address, packets left, 0 (R367). -/
def State.putStack (s : State) (q : Nat) : State :=
  let st := (s.slot q).stack.reverse
  let s := s.qcbPut q 0x2F 1 st.length
  st.zipIdx.foldl (fun s e => (s.qcbPut q (0x80 + 16 * e.2) 8 e.1.addr).qcbPut q (0x88 + 16 * e.2) 8 (e.1.left % 2 ^ 32)) s

/-- A code that ends the call it occurs in (R371). -/
def endsCall (status : Nat) : Bool := let c := status % 256; c == stBADPKT || c == stMEMERR || c == stTIMEOUT
def CallLev.note (l : CallLev) (status : Nat) : CallLev :=
  let c := status % 256
  { l with status := if l.status % 256 = 0 ∧ c ≠ stOK ∧ c ≠ stSKIPPED then status else l.status }

/-- A packet of a called buffer is over: the levels that remain, and the status of the level-0 CALL when they all end (R371). A level
that ends completes the CALL that opened it. -/
def CallLev.done (status : Nat) (ret : Bool) : List CallLev → List CallLev × Option Nat
  | [] => ([], some status)
  | l :: ls =>
    let l := { l.note status with addr := l.addr + 64, left := l.left - 1 }
    if ret || endsCall status || l.left == 0 then CallLev.done l.status false ls else (l :: ls, none)

/-- What the look-ahead has read of the levels that have ended is dropped (R371, R374). -/
def Slot.flushTo (x : Slot) (depth : Nat) : Slot :=
  let la := x.la.dropWhile (fun p => decide (depth < p.lvl))
  if la = [] then { x with la := [], laPkt := x.laPkt.filter (fun p => decide (p.lvl ≤ depth)), laJoin := false, laStack := x.laStack.drop (x.laStack.length - depth) } else { x with la := la }

/-- SEQ and IRQ of a packet. -/
def pktSeq (bs : List Byte) : W64 := BitVec.ofNat 64 (leNat ((bs.drop 8).take 8))
def pktIrq (bs : List Byte) : Bool := (bs.getD 1 0).getLsbD 0
def LaPkt.crec (p : LaPkt) (status : Nat) : CRec :=
  let bs := p.bytes.getD []
  { seq := pktSeq bs, status := status, irq := pktIrq bs }

/-- How many interrupts the completion of a called packet raises: its own, and those of the called CALLs that it ends (R369). -/
def irqsOf (p : LaPkt) (old new : List CallLev) : Nat :=
  (if pktIrq (p.bytes.getD []) then 1 else 0) + ((old.take (old.length - new.length)).filter (·.irq)).length

/-- The packet in flight completes with a status; `ret` for RETURN, which ends its buffer (R371). -/
def State.complete (s : State) (q status : Nat) (ret : Bool) : State :=
  let sl := s.slot q
  match sl.pkt with
  | none => s
  | some p =>
    let s := s.updSlot q (fun x => { x with pkt := none, phase := .idle, xs := .idle, src := [] })
    if sl.stack = [] then (s.updSlot q (fun x => { x with record := some (p.crec status) })).tryRecord q false
    else
      let (st, out) := CallLev.done status ret sl.stack
      let s := s.updSlot q (fun x => { (x.flushTo st.length) with stack := st, skip := if st.length < sl.stack.length then 0 else x.skip })
      let s := (List.range (irqsOf p sl.stack st)).foldl (fun s _ => s.irq sl.func sl.qnum) (s.putStack q)
      match out with
      | none => s.slotIdle q
      | some v => (s.updSlot q (fun x => { x with head := none, record := x.head.map (fun h => { h with status := v }) })).tryRecord q false

/-! ### The end of logical cores and launches (R338, R376, R377, R380) -/

/-- Words of a descriptor. -/
def dscNat (d : List Byte) (off n : Nat) : Nat := leNat ((d.drop off).take n)
def Launch.flags (l : Launch) : Nat := dscNat l.desc 8 4
def Launch.isDet (l : Launch) : Bool := (l.flags).testBit 0
def Launch.isReplay (l : Launch) : Bool := (l.flags).testBit 5

/-- NOFIT and VARIANT, reported with any code (R376). -/
def Launch.select (l : Launch) : Nat := (if l.nofit then 2048 else 0) + l.var * 256

def LcSt.onCore : LcSt → Bool
  | .running _ => true
  | _ => false
def LcSt.isOver : LcSt → Bool
  | .ended => true
  | .refused => true
  | _ => false

/-- A logical core as INSTSTATE gives it (R367, R377). -/
def LcSt.ofWord (w : Nat) : LcSt :=
  match w with
  | 1 => .ended
  | 2 => .saved
  | 3 => .parked []
  | 4 => .refused
  | _ => .waiting

def Launch.running (l : Launch) : Bool := l.cores.any LcSt.onCore

/-- TRAPWHO, TPC and TVAL of a TRAPPED launch, written before its record (R367, R376). -/
def State.putTrap (s : State) (q : Nat) (l : Launch) : State :=
  match l.trap with
  | some (k, r) => ((s.qcbPut q 0x6C 4 (k % 65536 + r.tid % 2048 * 65536)).qcbPut q 0x70 8 r.tpc.toNat).qcbPut q 0x78 8 r.tval.toNat
  | none => s

/-- A launch completes with a status (R376). -/
def State.endLaunch (s : State) (q : Nat) (l : Launch) (code detail : Nat) : State :=
  let s := (s.putTrap q l).updSlot q (fun x => { x with launch := none, phase := .idle })
  s.complete q (mkStatus code detail + l.select) false

/-- SELECT and the INSTSTATE words of a launch of `n` logical cores can be read (R367, R385). -/
def State.instReady (s : State) (q n : Nat) : State × Bool :=
  let save := (s.slot q).save
  if save = 0 then (s, true)
  else s.readyAt none 0 ((save.toNat + 0x255004) :: (List.range n).map (fun k => (saveArea save k).toNat + 0x255000))

/-- What a launch that a reset has interrupted does once none of its instances runs (R380, R424). -/
def State.endAborted (s : State) (q : Nat) (l : Launch) : State :=
  if !l.isReplay then s.endLaunch q l stABORTED 0
  else if (s.slot q).save = 0 then s.endLaunch q l stNOSAVE 0
  else
    let base := (s.slot q).save
    let (s, ok) := s.instReady q l.ncore
    if !ok then s
    else s.updSlot q (fun x => { x with launch := some { l with
      abort := false, closed := false, trap := none,
      cores := l.cores.zipIdx.map (fun c => if c.1.isOver then c.1 else LcSt.ofWord (s.instState base c.2)) } })

/-- A logical core that was saved or parked has still to end. -/
def LcSt.isOut : LcSt → Bool
  | .saved => true
  | .parked _ => true
  | _ => false

/-- The launch of a slot is looked at after one of its logical cores has left its core (R307, R376, R377, R380). -/
def State.launchOver (s : State) (q : Nat) : State :=
  let sl := s.slot q
  match sl.launch with
  | none => s
  | some l =>
    if l.running then s
    else if sl.preempting then
      let s := { s with kept := Map.put s.kept sl.qcb.toNat { Map.get ({} : Kept) s.kept sl.qcb.toNat with launch := some l } }
      (s.updSlot q (fun x => { x with launch := none, phase := .idle, pkt := none })).slotIdle q
    else if l.abort then s.endAborted q l
    else if l.expired then s.endLaunch q l stTRAPPED 0x11
    else if l.cores.any LcSt.isOut then s
    else if l.cores.any (· == LcSt.refused) then s.endLaunch q l stNOSAVE 1
    else match l.trap with
      | some (_, r) => s.endLaunch q l stTRAPPED r.cause
      | none => if l.cores.all LcSt.isOver then s.endLaunch q l stOK 0 else s

/-- The gang switch whose old tenant has left every core takes effect: the next tenant's turn begins (R353, R419). -/
def State.gangOver (s : State) (p : Nat) : State :=
  match s.partOf p with
  | none => s
  | some x =>
    let g := s.gang p
    if x.gang && g.switching && (s.backed p).all (fun c => (s.core c).inst.isNone) then
      let ts := s.tenants p
      let next := ((ts.filter (fun t => decide (g.tenant < t))).head?).getD (ts.headD p)
      let share := match s.partOf next with | some y => y.share | none => 1
      s.setGang p { g with tenant := next, left := share, switching := false, commits := none, misses := 0 }
    else s

/-- The shadow areas become the current save areas at the control core's commit (R353): it makes SAVE and SHADOW change places in the
QCB, and the engine's INSTSTATE and SELECT go along (log 41). -/
def State.swapShadow (s : State) (q : Nat) : State :=
  let sl := s.slot q
  let n := match sl.launch with | some l => l.ncore | none => 0
  let s := (List.range n).foldl (fun s k => s.putInst sl.shadow k (s.instState sl.save k)) s
  let s := if sl.save = 0 ∨ sl.shadow = 0 then s
    else s.put0 (sl.shadow.toNat + 0x255004) 4 (s.nat0 (sl.save.toNat + 0x255004) 4)
  let s := (s.qcbPut q 0x50 8 sl.shadow.toNat).qcbPut q 0x58 8 sl.save.toNat
  s.updSlot q (fun x => { x with save := sl.shadow, shadow := sl.save })

/-- INSTSTATE of a logical core that has left its core (R367); none keeps the word. -/
def LcSt.word : LcSt → Option Nat
  | .ended => some 1
  | .saved => some 2
  | .parked _ => some 3
  | .refused => some 4
  | _ => none

/-- A logical core has left its core: INSTSTATE, its launch, its gang (R367, R376, R377); a refused restore lets no further logical core
start. -/
def State.leaveCore (s : State) (c : Nat) (st : LcSt) : State :=
  match (s.core c).inst with
  | none => s
  | some i =>
    let k := i.lcore.toNat
    let q := i.slot
    let s := s.updCore c (fun k => { k with inst := none })
    let s := if i.gang && st == .saved && (s.slot q).save == i.save then s.swapShadow q else s
    let s := match st.word with | some v => s.putInst (s.slot q).save k v | none => s
    let s := s.updSlot q (fun x => { x with launch := x.launch.map (fun l =>
      { l with cores := l.cores.set k st, closed := l.closed || st == .refused
               carry := if st.isOut then Map.put l.carry k { i.carry with ran := s.ptime - i.start } else Map.erase l.carry k }) })
    (s.launchOver q).gangOver i.part

end Sys2Proof.Machine
end

