-- ==== Sys2Proof/Machine/Context.lean ====
section
/-! DEFINITION. The layouts of a saved core and the operations of %sctl, %tctx, %tsave and %tload (R78, R82, R86, R89, R128, R129, R341,
R342, R345 to R348, R355, R357, R358, R360). -/

namespace Sys2Proof.Machine
open Sys2Proof

/-! ### Thread state (R341, R347) -/

/-- WGEN of a wait record: once its generation has completed, the other one than the barrier's, so that the restored wait is over too
(R262, R265). -/
def Core.openGen (k : Core) (w : WaitRec) : Bool := if w.past then !k.barGen w.grp w.bar else w.gen

/-- %tctx (R341). -/
def Core.tctx (k : Core) (t : Nat) : W32 :=
  let th := k.thread t
  let w := th.wrec
  BitVec.ofNat 32 ((if th.arrC && th.arrN then 2 ^ 30 else 0) + (if th.arrC then 2 ^ 29 else 0) + (if th.arr0 then 2 ^ 28 else 0) +
    (match w with | some r => (if k.openGen r then 2 ^ 27 else 0) + 2 ^ 26 + r.bar % 16 * 2 ^ 12 | none => 0) +
    (match th.grp with | some g => 2 ^ 25 + g % 256 * 2 ^ 16 | none => 0) + (if th.live then 2 ^ 24 else 0) +
    (k.phrase (phraseOf t)).xlev.toNat * 2 ^ 8 + (th.p ||| 1).toNat)

/-- Takes a thread out of a group's list, without the effects of LEAVE. -/
def Core.dropMember (k : Core) (t : Nat) : Core :=
  match (k.thread t).grp with
  | some g => k.setGroup g { k.group g with members := (k.group g).members.filter (· != t) }
  | none => k

/-- Writes the RW fields of %tctx in restore state: membership without the effects of JOIN and LEAVE (R341). The wait record belongs to
the instruction at %tpc (R265). -/
def Core.setTctx (k : Core) (t : Nat) (w : W32) : Core :=
  let k := k.dropMember t
  let g := (w.extractLsb' 16 8).toNat
  let k := if w.getLsbD 25 then k.setGroup g { k.group g with members := insertRank t (k.group g).members } else k
  k.updThread t (fun th =>
    { th with
      p := w.setWidth 8 ||| 1, grp := if w.getLsbD 25 then some g else none, arr0 := w.getLsbD 28, arrC := w.getLsbD 29,
      arrN := w.getLsbD 30 && w.getLsbD 29
      wrec := if w.getLsbD 26 then some { bar := (w.extractLsb' 12 4).toNat, grp := g, gen := w.getLsbD 27, pc := th.tpc } else none })

/-- MTS %tctx: outside restore state it writes only PRED (R341). -/
def Core.writeTctx (k : Core) (t : Nat) (w : W32) : Core :=
  if k.restore then k.setTctx t w else k.updThread t (fun th => { th with p := w.setWidth 8 ||| 1 })

/-- The value and tag of register `r` as the block holds them: v2 to v7 from the firmware's scratch, a load's data as delivered,
registers above the level 0 (R347, R357) with tag b32 (R35, log 42). -/
def Core.savedReg (k : Core) (t r : Nat) : W32 × Tag :=
  let th := k.thread t
  let half (x : W64) : W32 := if r % 2 = 0 then x.setWidth 32 else (x >>> 32).setWidth 32
  let tg (p : Tag × Tag) : Tag := if r % 2 = 0 then p.1 else p.2
  if r = 0 then (0, 2)
  else if 32 + 32 * (k.phrase (phraseOf t)).xlev.toNat ≤ r then (0, 2)
  else if r / 2 = 1 then (half th.sscr0, tg th.sscr0t)
  else if r / 2 = 2 then (half th.sscr1, tg th.sscr1t)
  else if r / 2 = 3 then (half th.sscr2, tg th.sscr2t)
  else match th.pend.find? (fun p => p.reg == r && p.issue.isSome) with
    | some p => (p.val, p.tag)
    | none => (th.reg r, th.tag r)

/-- The tag nibbles of a block, v0 first (R50). -/
def Core.savedTags (k : Core) (t : Nat) : List Byte :=
  (List.range 64).map (fun i => BitVec.ofNat 8 ((k.savedReg t (2 * i)).2.toNat + 16 * (k.savedReg t (2 * i + 1)).2.toNat))

/-- The 640 bytes of a thread block (R347). -/
def Core.threadBlock (k : Core) (t : Nat) : List Byte :=
  let th := k.thread t
  leBytes 8 th.tpc.toNat ++ leBytes 8 th.lk.toNat ++ leBytes 8 th.hold0.toNat ++ leBytes 8 th.hold1.toNat ++ leBytes 8 th.hold2.toNat ++
    leBytes 8 th.hold3.toNat ++ leBytes 4 (k.tctx t).toNat ++ leBytes 4 th.status.toNat ++ leBytes 4 th.fpf.toNat ++
    leBytes 4 (th.tcval >>> 32).toNat ++ k.savedTags t ++ leBytes 4 th.tcval.toNat ++
    (List.range 127).flatMap (fun i => leBytes 4 (k.savedReg t (i + 1)).1.toNat)

/-- A little-endian number of a list of bytes. -/
def natAt (bs : List Byte) (off n : Nat) : Nat := leNat ((bs.drop off).take n)
def w32At (bs : List Byte) (off : Nat) : W32 := BitVec.ofNat 32 (natAt bs off 4)
def w64At (bs : List Byte) (off : Nat) : W64 := BitVec.ofNat 64 (natAt bs off 8)

def blockTag (bs : List Byte) (r : Nat) : Tag := BitVec.ofNat 4 (natAt bs (64 + r / 2) 1 / (if r % 2 = 0 then 1 else 16))
def blockReg (bs : List Byte) (r : Nat) : W32 := w32At bs (128 + 4 * r)

/-- The registers that MTS %tload writes: v1, and v8 up to the level (R358). -/
def loadRegs (lvl : Nat) : List Nat := 1 :: (List.range (24 + 32 * lvl)).map (· + 8)

/-- MTS %tload's effect (R358). -/
def Core.loadBlock (k : Core) (t : Nat) (bs : List Byte) : Core :=
  let pair (r : Nat) : W64 := blockReg bs (r + 1) ++ blockReg bs r
  let tags (r : Nat) : Tag × Tag := (blockTag bs r, blockTag bs (r + 1))
  let k := k.updThread t (fun th =>
    let th := { th with
      tpc := w64At bs 0, lk := w64At bs 8, hold0 := w64At bs 16, hold1 := w64At bs 24, hold2 := w64At bs 32, hold3 := w64At bs 40
      status := (w32At bs 52).setWidth 2, fpf := (w32At bs 56).setWidth 4, tcval := w32At bs 60 ++ blockReg bs 0
      sscr0 := pair 2, sscr0t := tags 2, sscr1 := pair 4, sscr1t := tags 4, sscr2 := pair 6, sscr2t := tags 6 }
    (loadRegs (k.phrase (phraseOf t)).xlev.toNat).foldl (fun th r => th.setReg r (blockReg bs r) (blockTag bs r)) th)
  k.setTctx t (w32At bs 48)

/-! ### %sctl (R342) -/

/-- The command's own fill, or the command, is parked in a fault queue. -/
def XSt.isParked : XSt → Bool
  | .parked _ _ => true
  | _ => false
def Core.lineParked (k : Core) (l : Nat) : Bool := match k.fillOf l with | some m => m.xs.isParked | none => false
def Core.wbackParked (k : Core) (l : Nat) : Bool := match k.wbackOf l with | some m => m.xs.isParked | none => false
/-- A parked command (R88, R342): itself, or behind a parked fill or write-back that it asked for. -/
def Core.cmdParked (k : Core) (m : Cmd) : Bool :=
  m.xs.isParked || m.fills.any (fun e => k.lineParked e.2) ||
    ((m.op == 0xA1 || m.op == 0xA2) && match m.rel with | some r => r.lines.any k.wbackParked | none => false)

/-- %sctl (R342). -/
def Core.sctl (k : Core) : W32 :=
  BitVec.ofNat 32 ((if k.busy.isSome then 2 ^ 31 else 0) + (if k.restore then 2 ^ 30 else 0) + (if k.saving then 2 ^ 29 else 0) +
    k.liveTids.length % 4096 * 2 ^ 16 + k.cmds.length % 64 * 2 ^ 10 + (k.cmds.filter k.cmdParked).length % 64 * 2 ^ 4)

/-! ### The image that DUMP writes (R345, R346) -/

/-- A region record (R78). -/
def Region.bytes (r : Region) : List Byte :=
  leBytes 4 r.spbase.toNat ++ leBytes 4 r.size.toNat ++ leBytes 8 r.va.toNat ++ leBytes 4 r.ctl.toNat ++ leBytes 4 r.status.toNat ++
    leBytes 8 r.failva.toNat
def regionOf (bs : List Byte) : Region :=
  { spbase := w32At bs 0, size := w32At bs 4, va := w64At bs 8, ctl := w32At bs 16, status := w32At bs 20, failva := w64At bs 24 }

/-- A recruitment record (R128). -/
def RecRec.bytes (r : RecRec) : List Byte :=
  leBytes 2 r.tid ++ leBytes 1 (r.fflags.toNat * 16 + (if r.reissue then 8 else 0) + (if r.failed then 4 else 0) +
      (if r.release then 2 else 0) + (if r.live then 1 else 0)) ++ leBytes 1 r.op ++ leBytes 1 r.creg ++ leBytes 1 r.fcause ++
    leBytes 2 r.failoff ++ leBytes 4 r.next.toNat ++ leBytes 4 r.count.toNat ++ leBytes 4 r.oldest.toNat ++ leBytes 4 r.acc.toNat ++
    leBytes 4 r.done.toNat ++ leBytes 4 r.failk.toNat
def recOf (bs : List Byte) : RecRec :=
  let f := BitVec.ofNat 8 (natAt bs 2 1)
  { tid := natAt bs 0 2, fflags := f.extractLsb' 4 4, reissue := f.getLsbD 3, failed := f.getLsbD 2, release := f.getLsbD 1,
    live := f.getLsbD 0, op := natAt bs 3 1, creg := natAt bs 4 1, fcause := natAt bs 5 1, failoff := natAt bs 6 2, next := w32At bs 8,
    count := w32At bs 12, oldest := w32At bs 16, acc := w32At bs 20, done := w32At bs 24, failk := w32At bs 28 }

/-- A reorder-window entry (R129). -/
def WinEnt.word (w : WinEnt) : Nat :=
  w.value.toNat + w.off % 64 * 2 ^ 32 + (if w.val then 2 ^ 38 else 0) + w.st % 4 * 2 ^ 39 + w.rid % 8 * 2 ^ 41
def winOf (n : Nat) : WinEnt :=
  { rid := n / 2 ^ 41 % 8, st := n / 2 ^ 39 % 4, val := n.testBit 38, off := n / 2 ^ 32 % 64, value := BitVec.ofNat 32 n }

/-- The line-state table: four lines a byte, the lowest in bits [1:0] (R82, log 43). -/
def Core.lineBytes (k : Core) : List Byte :=
  (List.range 768).map (fun i => BitVec.ofNat 8 ((List.range 4).foldl (fun a j => a + (k.line (4 * i + j)).st % 4 * 4 ^ j) 0))

/-- A detached command (R348): FN[50:45] is the FN field and the signal bit. The region slot of a WBACK or RUNMAP stands in OPA (log 44). -/
def Cmd.bytes (m : Cmd) : List Byte :=
  let reg := m.op = 0xA1 ∨ m.op = 0xA2
  let word := m.op = 0xA6 ∨ m.op = 0xA7 ∨ m.op = 0xA8
  leBytes 1 m.op ++ leBytes 1 (m.fn % 32 * 2 + if m.sig.isSome then 1 else 0) ++ leBytes 1 (m.wait.getD 0 * 16 + m.sig.getD 0) ++
    leBytes 1 ((if m.reg ≠ 0 ∧ m.op ≠ 0xA8 then 2 else 0) + (if m.wait.isSome then 1 else 0)) ++
    leBytes 2 m.tid ++ leBytes 1 m.reg ++ leBytes 1 0 ++ leBytes 8 (if reg then m.x else m.a.toNat) ++ leBytes 8 m.b.toNat ++
    leBytes 4 m.c.toNat ++ leBytes 4 (if word then (m.c >>> 32).toNat else m.done)

/-- The bytes of group `g` (R346). -/
def Core.groupBytes (k : Core) (g : Nat) : List Byte :=
  let gr := k.group g
  if gr.members = [] then List.replicate 128 0
  else
    let (op, fn) := match gr.coll with | some c => (c.op, c.fn.toNat) | none => (0, 0)
    let arr := if gr.coll.isSome then (gr.members.filter (fun m => (k.thread m).arrC)).length else 0
    leBytes 1 ((if gr.coll.isSome then 4 else 0) + (if gr.lend then 2 else 0) + 1) ++ leBytes 1 0 ++ leBytes 2 gr.members.length ++
      leBytes 1 op ++ leBytes 1 0 ++ leBytes 2 fn ++ leBytes 2 arr ++ leBytes 2 (k.arrived0 g) ++ leBytes 1 (if gr.b0gen then 1 else 0) ++
      List.replicate 51 0 ++ (List.range 16).flatMap (fun b => leBytes 4 (k.bcnt g b).toNat)

/-- The undelivered matrix faults in ascending order of ticket: status and ticket (R131, R345). -/
def Core.faultAt (k : Core) (i : Nat) : List Byte :=
  match k.mfaults[i]? with
  | some (t, st) => leBytes 4 st.toNat ++ leBytes 4 t.toNat
  | none => leBytes 8 0

/-- XLEV (R345): two bits a phrase. -/
def Core.xlevNat (k : Core) : Nat := (List.range 32).foldl (fun a f => a + (k.phrase f).xlev.toNat * 4 ^ f) 0

/-- The header from +0x008 to the matrix queue. -/
def Core.headBytes (k : Core) (det : Bool) : List Byte :=
  let i : Inst := k.inst.getD {}
  let set := match k.sset with | some (id, r) => id % 16 + r % 8 * 16 | none => 0
  leBytes 4 i.lcore.toNat ++ leBytes 4 i.t ++ leBytes 4 ((if k.sset.isSome then 4 else 0) + if det then 2 else 0) ++ leBytes 1 set ++
    leBytes 3 0 ++ leBytes 4 k.mticket.toNat ++ leBytes 4 i.var.toNat ++ leBytes 8 i.launch.toNat ++ leBytes 8 i.param.toNat ++
    leBytes 8 k.xlevNat ++ k.faultAt 0 ++
    (List.range 3).flatMap (fun n => let d := Map.get ({} : Disp) i.disp n
      leBytes 4 d.next.toNat ++ leBytes 4 d.fin.toNat ++ leBytes 4 d.k.toNat ++ leBytes 4 0) ++
    (List.range 7).flatMap (fun j => k.faultAt (j + 1)) ++ List.replicate 88 0 ++
    (List.range 16).flatMap (fun r => (k.region r).bytes) ++ (List.range 16).flatMap (fun t => leBytes 8 (k.tb t).bits.toNat)

/-- The header from +0x500 to the coverage queue. -/
def Core.midBytes (k : Core) : List Byte :=
  (List.range 8).flatMap (fun r => (k.rcd r).bytes) ++ (List.range 64).flatMap (fun e => leBytes 8 (k.win e).word) ++ k.lineBytes ++
    leBytes 64 k.ovf.toNat

/-- The header from +0xB80 on, and the group table. -/
def Core.tailBytes (k : Core) (ms : List Cmd) : List Byte :=
  (List.range 32).flatMap (fun i => match ms[i]? with | some m => m.bytes | none => List.replicate 32 0) ++ leBytes 4 ms.length ++
    List.replicate 124 0 ++ (List.range 256).flatMap k.groupBytes

/-- Writes the image to staging, but for what the firmware writes (R342). -/
def Core.writeImage (k : Core) (det : Bool) (ms : List Cmd) : Core :=
  let put (k : Core) (off : Nat) (bs : List Byte) : Core := { k with staging := Map.setRange Config.blank k.staging off bs }
  put (put (put k 0x8 (k.headBytes det)) 0x500 k.midBytes) 0xB80 (k.tailBytes ms)

/-- The commands that DUMPD detaches (R342, R348). A parked SEMWAIT restarts with its thread instead (R285, R343). -/
def Core.detachable (k : Core) (m : Cmd) : Bool :=
  k.cmdParked m && (m.op == 0xA1 || m.op == 0xA2 || m.op == 0xA3 || m.op == 0xA6 || m.op == 0xA7 || m.op == 0xA8)
def Core.detaching (k : Core) : List Cmd := k.cmds.filter (fun m => k.detachable m && m.op != 0xA7)

/-- What the image of a DUMP or DUMPD waits for is over (R342). -/
def Core.dumpReady (k : Core) : Bool :=
  match k.busy with
  | some 1 => k.cmds == [] && !k.lines.any (fun e => e.2.filling)
  | some 2 => k.cmds.all k.detachable && k.lines.all (fun e => !e.2.filling || k.lineParked e.1)
  | _ => false

/-- The fault record that a parked translation waits on. -/
def XSt.recs : XSt → List (Nat × Nat)
  | .parked d t => [(d, t)]
  | _ => []
def MOp.recs (m : Option MOp) : List (Nat × Nat) := match m with | some x => x.xs.recs | none => []

/-- The fault records that a command waits on: its own, those of the fills that it asked for, and, for a WBACK or RUNMAP, those of its
write-backs (R88, R280). -/
def Core.cmdRecs (k : Core) (m : Cmd) : List (Nat × Nat) :=
  m.xs.recs ++ m.fills.flatMap (fun e => MOp.recs (k.fillOf e.2)) ++
    (if m.op == 0xA1 || m.op == 0xA2 then (match m.rel with | some r => r.lines.flatMap (fun l => MOp.recs (k.wbackOf l)) | none => []) else [])

/-- The fault records that the parked copies and line fills of a core wait on (R355). -/
def Core.parkedOn (k : Core) : List (Nat × Nat) :=
  (k.cmds.flatMap k.cmdRecs ++ k.mops.flatMap (fun m => match m.kind with | .fill _ _ => m.xs.recs | _ => [])).eraseDups

/-- DUMPD abandons the parked fills and the parked write-backs of detached commands: the lines stay as they are (R342). -/
def Core.abandon (k : Core) : Core :=
  { k with
    mops := k.mops.filter (fun m => match m.kind with | .fwd _ _ _ => true | _ => !m.xs.isParked)
    lines := k.lines.mapVal (fun l x =>
      { x with filling := x.filling && !k.lineParked l, refill := x.refill && !k.lineParked l, wback := x.wback && !k.wbackParked l }) }

/-- What an instance carries beside its image (R113, log 111). -/
def Core.carries (k : Core) : Carry :=
  { nt := k.lines.filterMap (fun e => if e.2.nt then some e.1 else none)
    acq := k.threads.filterMap (fun e => if e.2.acqLines = [] then none else some (e.1, e.2.acqLines))
    fenced := k.threads.filterMap (fun e => if e.2.fenced then some e.1 else none)
    old := k.unfenced
    parked := if k.busy = some 2 then k.detaching.map (fun m => { x := m.x, batch := m.batch, targets := m.targets }) else []
    dry := match k.inst with | some i => i.disp.filterMap (fun e => if e.2.dry then some e.1 else none) | none => []
    rows := k.mq.foldl (fun m o => match o.ovfRow with | some r => Map.put m o.ticket.toNat r | none => m) [] }

/-- The image is written once the wait is over (R342). The instance re-enters once the faults of the detached commands are answered
(R355). -/
def Core.dumpImage (k : Core) : Core :=
  if !k.dumpReady then k
  else
    let k : Core := { k with inst := k.inst.map (fun (i : Inst) => { i with carry := k.carries }) }
    if k.busy = some 2 then
      let ms := k.detaching
      let recs := (ms.flatMap k.cmdRecs).eraseDups
      let k := k.writeImage true ms
      { k.abandon with cmds := [], busy := none, inst := k.inst.map (fun i => { i with detached := recs }) }
    else { k.writeImage false [] with busy := none }

/-- DUMP_IMAGE_WRITE (R342). -/
def execDumpImageWrite (core : Nat) (s : State) : Out := .next (s.updCore core Core.dumpImage)

/-! ### LOAD (R342, R360) -/

/-- A reserved field of the staging bytes that makes LOAD refuse (R360). -/
def imageBad (h : List Byte) : Bool :=
  let z (off n : Nat) : Bool := (h.drop off).take n |>.all (· == 0)
  let region (r : Nat) : Bool :=
    let o := 0x100 + 32 * r
    let ctl := natAt h (o + 16) 4
    natAt h (o + 3) 1 != 0 || ctl / 16 % 2 ^ 27 != 0 || natAt h (o + 22) 2 != 0 || ctl % 4 == 3 ||
      ctl / 4 % 4 == 3 || (ctl / 4 % 4 == 1 && ctl % 4 == 1)
  let cmd (i : Nat) : Bool :=
    let o := 0xB80 + 32 * i
    natAt h (o + 1) 1 / 64 != 0 || natAt h (o + 3) 1 / 4 != 0 || !z (o + 7) 1 || !List.contains [0, 0xA1, 0xA2, 0xA3, 0xA6, 0xA7, 0xA8] (natAt h o 1)
  let group (g : Nat) : Bool :=
    let o := 0x1000 + 128 * g
    natAt h o 1 / 8 != 0 || !z (o + 1) 1 || !z (o + 5) 1 || natAt h (o + 12) 1 / 2 != 0 || !z (o + 13) 51
  natAt h 0x10 4 / 8 != 0 || natAt h 0x14 1 / 128 != 0 || !z 0x15 3 || !z 0x4C 4 || !z 0x5C 4 || !z 0x6C 4 || !z 0xA8 0x58 || !z 0xF84 0x7C || (List.range 16).any region ||
    (List.range 16).any (fun t => natAt h (0x300 + 8 * t) 8 / 2 ^ 36 != 0) ||
    (List.range 64).any (fun e => natAt h (0x600 + 8 * e) 8 / 2 ^ 44 != 0) || (List.range 32).any cmd || (List.range 256).any group

/-- The first of the detached commands that belong to one issue with the `i`-th. -/
def Carry.firstOf (y : Carry) (i : Nat) : Nat :=
  match y.parked[i]? with
  | some e => (y.parked.findIdx? (fun x => x.batch == e.batch)).getD i
  | none => i

/-- The `i`-th requeued command, under number `base` + `i`: its moves and range entries as if it had never left, its copy from byte DONE on; it
starts after RUN (R342, R348). A global atomic keeps its order, and each its issue and the threads that issued it, as the instance carried them (R94, R113, R284). -/
def State.requeue (s : State) (c base i : Nat) (y : Carry) (bs : List Byte) : Option Cmd :=
  let op := natAt bs 0 1
  let fn := natAt bs 1 1 / 2 % 32
  let fl := natAt bs 3 1
  let a := natAt bs 8 8
  let b := natAt bs 16 8
  let n := natAt bs 24 4
  let d := natAt bs 28 4
  let k := s.core c
  let dg := fn % 4 = 1 ∨ fn % 4 = 3
  let sg := fn % 4 = 0 ∨ fn % 4 = 3
  let slot := a % 16
  let reg := op = 0xA1 ∨ op = 0xA2
  let cpy := op = 0xA3
  let tid := natAt bs 4 2
  if op = 0 then none
  else some
    { id := base + i, op := op, fn := fn, batch := base + y.firstOf i, tid := tid
      targets := match y.parked[i]? with | some e => e.targets | none => [tid]
      reg := if fl.testBit 1 then natAt bs 6 1 else 0
      wide := op == 0xA6 && (fn == 0xE || fn == 0xF), a := BitVec.ofNat 64 a, b := BitVec.ofNat 64 b
      c := BitVec.ofNat 64 (if cpy then n else natAt bs 24 8)
      x := if reg then slot else if op = 0xA6 then (match y.parked[i]? with | some e => e.x | none => 0) else 0
      sig := if (natAt bs 1 1).testBit 0 then some (natAt bs 2 1 % 16) else none
      wait := if fl.testBit 0 then some (natAt bs 2 1 / 16) else none
      pasid := match k.inst with | some i => i.pasid | none => 0
      hold := true
      ranges := if cpy then (if dg then [] else s.rangeOf c a n true) ++ (if sg then [] else s.rangeOf c b n false)
        else if reg then (if (k.region slot).isLive then mkRng (k.region slot).spbase.toNat (k.region slot).size.toNat false else []) else []
      moves := if cpy && decide (d < n) then
        [{ src := if sg then .glob (b + d) else .spad (b + d), dst := if dg then .glob (a + d) else .spad (a + d), n := n - d }] else []
      done := if cpy || reg then d else 0
      rel := if op = 0xA8 then some {} else none }

/-- The group that a record describes; its members come with their threads (R341, R346). -/
def groupOf (bs : List Byte) (inc : Nat) : Option Group :=
  let f := natAt bs 0 1
  if f % 2 = 0 then none
  else some
    { inc := inc, lend := f.testBit 1
      coll := if f.testBit 2 then some { op := natAt bs 4 1, fn := BitVec.ofNat 10 (natAt bs 6 2) } else none
      b0gen := (natAt bs 12 1).testBit 0
      bcnt := (List.range 15).foldl (fun m b => Map.set 0 m (b + 1) (w32At bs (68 + 4 * b))) [] }

/-- The fields of a core that the header holds (R345). -/
def Core.loadHead (k : Core) (h : List Byte) : Core :=
  let at2 (off n i : Nat) : List Byte := (h.drop (off + n * i)).take n
  let faults := ((w32At h 0x3C, w32At h 0x38) :: (List.range 7).map (fun j => (w32At h (0x74 + 8 * j), w32At h (0x70 + 8 * j)))).filter
    (fun e => e.1 != 0)
  { k with
    mticket := w32At h 0x18, mfaults := faults
    phrases := (List.range 32).foldl (fun m f =>
      Map.put m f { Map.get ({} : Phrase) m f with xlev := BitVec.ofNat 2 (natAt h 0x30 8 / 4 ^ f) }) k.phrases
    regions := (List.range 16).foldl (fun m r => Map.set {} m r (regionOf (at2 0x100 32 r))) []
    tbs := (List.range 16).foldl (fun m t => Map.set {} m t (TBar.ofBits (w64At h (0x300 + 8 * t)))) []
    recs := (List.range 8).foldl (fun m r => Map.set {} m r (recOf (at2 0x500 32 r))) []
    window := (List.range 64).foldl (fun m e => Map.set {} m e (winOf (natAt h (0x600 + 8 * e) 8))) []
    ovf := BitVec.ofNat 512 (natAt h 0xB00 64)
    groups := (List.range 256).foldl (fun m g => match groupOf (at2 0x1000 128 g) (k.nextInc + g) with
      | some x => Map.put m g x
      | none => m) []
    nextInc := k.nextInc + 256
    inst := k.inst.map (fun i => { i with
      lcore := w32At h 8, t := natAt h 0xC 4, var := w32At h 0x1C, launch := w64At h 0x20, param := w64At h 0x28
      disp := (List.range 3).foldl (fun m n =>
        Map.put m n { Map.get ({} : Disp) m n with next := w32At h (0x40 + 16 * n), fin := w32At h (0x44 + 16 * n), k := w32At h (0x48 + 16 * n) })
        i.disp }) }

/-- The line states (R82); a dirty line of a non-temporal region is marked so (R81), and one that was stored to with ORD nt (R109,
R113, log 111). -/
def Core.loadLines (k : Core) (h : List Byte) (carry : Carry) : Core :=
  { k with lines := (List.range 3072).foldl (fun m l =>
      let st := natAt h (0x800 + l / 4) 1 / 4 ^ (l % 4) % 4
      let nt := decide (2 ≤ st) && (carry.nt.contains l || (match k.regionAt (l * 256) with | some r => (k.region r).wb == 2 | none => false))
      Map.set {} m l { st := st, nt := nt }) [] }

/-- What the instance carried beside its image (R113, log 111). -/
def Core.loadCarry (k : Core) (carry : Carry) : Core :=
  let k : Core := { k with
    unfenced := carry.old
    inst := k.inst.map (fun i => { i with disp := i.disp.mapVal (fun n d => { d with dry := carry.dry.contains n }) }) }
  let k := carry.fenced.foldl (fun (k : Core) t => k.updThread t (fun th => { th with fenced := true })) k
  carry.acq.foldl (fun k e => k.updThread e.1 (fun th => { th with acqLines := e.2 })) k

/-- A principal's current iteration is the entry of its record in state 1 (R129). -/
def Core.loadIters (k : Core) : Core :=
  k.window.foldl (fun k e => if e.2.st = 1 && (k.rcd e.2.rid).live then k.updThread (k.rcd e.2.rid).tid (fun th => { th with iter := some e.1 }) else k) k

/-- A thread whose command is queued again: its result registers are due, a non-temporal copy stands outside its releases (R87, R109), and an
acquiring GATOM holds it once its handler has returned (R94, R113). -/
def Thread.requeued (th : Thread) (m : Cmd) : Thread :=
  let th := th.addPend m.reg (if m.wide then 2 else 1) m.id
  { th with ntCmds := if m.nonTemporal then th.ntCmds ++ [m.id] else th.ntCmds
            order := if m.op = 0xA6 ∧ m.order.acq = true then some m.id else th.order }

/-- The detached commands are queued again (R342, R348). -/
def State.loadCmds (s : State) (c : Nat) (y : Carry) (h : List Byte) : State :=
  let base := (s.core c).nextId
  (List.range 32).foldl (fun s i => match s.requeue c base i y ((h.drop (0xB80 + 32 * i)).take 32) with
    | none => s
    | some m => s.updCore c (fun k => m.targets.foldl (fun k t => k.updThread t (fun th => th.requeued m)) { k with cmds := k.cmds ++ [m] }))
    (s.updCore c (fun k => { k with nextId := base + 32 }))

/-- LOAD (R342, R360): refused, it reinstates nothing, and RESTORE reads 0. -/
def State.loadImage (s : State) (c : Nat) : State :=
  let h := Map.getRange Config.blank (s.core c).staging 0 0x9000
  if imageBad h then s.updCore c (fun k => { k with restore := false })
  else
    let carry := match (s.core c).inst with | some i => i.carry | none => {}
    (s.updCore c (fun k => { (((k.loadHead h).loadLines h carry).loadIters).loadCarry carry with restore := true })).loadCmds c carry h

/-! ### DUMP, DUMPD, RUN, FREE (R342) -/

/-- DUMP or DUMPD begins: BUSY and SAVING are set. -/
def Core.startDump (k : Core) (op : Nat) : Core := { k with busy := some op, saving := true }

/-- RUN leaves restore state and saving state; held commands may start. -/
def Core.runCore (k : Core) : Core :=
  { k with
    restore := false, saving := false, inst := k.inst.map (fun i => { i with restored := false, reported := false })
    cmds := k.cmds.map (fun m => { m with hold := false }) }

/-- What is left of a core after FREE: memories, clocks and caches; a SEMPOST already issued and the forwarded writes are still performed
(R81, R99, log 45). -/
def Core.freed (k : Core) : Core :=
  let posts := (k.cmds.filter (fun m => m.op == 0xA8)).map (fun m => { m with rel := m.rel.map (fun r => { fwds := r.fwds }), wait := none, sig := none })
  { k with
    threads := [], phrases := [], rgetQ := [], groups := [], tbs := [], recs := [], window := [], lines := []
    regions := k.regions.mapVal (fun _ r => r.setLive false)
    mops := k.mops.filter (fun m => match m.kind with | .fwd _ _ _ => true | _ => false)
    cmds := posts, mq := [], mstop := false, mticket := 0, mfaults := [], unfenced := [], recent := [], cov := { k.cov with queue := [], halt := false, faulted := false, stopped := false }
    promoReq := false, promoLines := [], sset := none, leaving := none, sphase := 0, sphaseSet := false, saving := false, restore := false, busy := none }

/-- The state in which FREE leaves the logical core (R338, R355, R362, R377): its restore refused, saved, parked, or ended. -/
def Core.freeState (k : Core) : LcSt :=
  match k.inst with
  | none => .ended
  | some i => if i.trap.isSome then .ended else if i.restored then .refused else if k.saving then (if i.parking then .parked i.detached else .saved) else .ended

/-- FREE (R342); the core leaves its share set (R287). -/
def State.freeCore (s : State) (c : Nat) : State :=
  let st := (s.core c).freeState
  let s := if (s.core c).sset.isSome then (s.revokeThreads c).revokeCopies c else s
  (s.updCore c Core.freed).leaveCore c st

/-- The operation that a write of %sctl names (R342). -/
def State.sctlOp (s : State) (c op : Nat) : State :=
  match op with
  | 1 => s.updCore c (fun k => k.startDump 1)
  | 2 => s.updCore c (fun k => k.startDump 2)
  | 3 => s.loadImage c
  | 4 => s.updCore c Core.runCore
  | 5 => s.freeCore c
  | _ => s

/-- DUMP (R342). -/
def execDump (core : Nat) (s : State) : Out := .next (s.sctlOp core 1)
/-- DUMPD (R342). -/
def execDumpd (core : Nat) (s : State) : Out := .next (s.sctlOp core 2)
/-- LOAD (R342, R360). -/
def execLoad (core : Nat) (s : State) : Out := .next (s.sctlOp core 3)
/-- RUN (R342). -/
def execRun (core : Nat) (s : State) : Out := .next (s.sctlOp core 4)
/-- FREE (R342). -/
def execFree (core : Nat) (s : State) : Out := .next (s.sctlOp core 5)

end Sys2Proof.Machine
end

