-- ==== Sys2Proof/Machine/System.lean ====
section
/-! DEFINITION. System instructions: MFS and MTS with their registers, ERET, IFLUSH, WFI, KPEND, IPI, and the delivery of a
pre-emption (R42 to R46, R302 to R306, R308, R337, R340, R341, R344, R356 to R359, R379). -/

namespace Sys2Proof.Machine
open Sys2Proof

/-! ### Reading system registers (R42 to R46, R340, R356) -/

/-- The level to which a register belongs (R42). -/
def sysAvail (sys : Nat) : Avail := if sys < 0x100 then .all else if sys < 0x200 then .sl else .cl

/-- The instance of a core; the fields of one that starts where none runs: so a control core, which holds none, reads %core, %ncore, %launch,
%param and %var as 0, which the spec leaves open (R43; the model's choice, log 120). -/
def Core.i (k : Core) : Inst := k.inst.getD {}

/-- The thread whose %tid a thread reads (R120). -/
def Core.tidOf (k : Core) (t : Nat) : Nat :=
  match (k.thread t).sub with | some sb => (k.rcd sb.rid).tid | none => t

/-- The kernel-level registers (R43); those that R42 fixes on a control core. -/
def State.mfsKl (s : State) (c t sys : Nat) : W64 :=
  let k := s.core c
  let th := k.thread t
  let n (x : Nat) : W64 := BitVec.ofNat 64 x
  let w (x : W32) : W64 := x.setWidth 64
  match sys with
  | 0x000 => n (k.tidOf t)
  | 0x001 => if isCtl c then 0 else n (laneOf t)
  | 0x002 => if isCtl c then 0 else n (slotOf t)
  | 0x003 => if isCtl c then 0 else n (ctxOf t)
  | 0x004 => w k.i.lcore
  | 0x005 => w k.i.ncore
  | 0x006 => match k.grpOf t with | some g => n g | none => 0xFFFFFFFF
  | 0x007 => if isCtl c then 0 else match k.grank t with | some r => n r | none => 0xFFFFFFFF
  | 0x008 => if isCtl c then 1 else n (k.gsize t)
  | 0x009 => n k.segW
  | 0x00A => th.lk
  | 0x00B => if th.sub.isSome then 0 else (k.phrase (phraseOf t)).xlev.setWidth 64
  | 0x00C => n k.clock
  | 0x00D => n s.ptime
  | 0x00E => th.fpf.setWidth 64
  | 0x00F => th.status.setWidth 64
  | 0x010 => w th.rgrant
  | 0x011 => w th.rcause
  | 0x012 => k.i.launch
  | 0x013 => k.i.param
  | 0x014 => w k.i.var
  | _ => 0

def Thread.hold (th : Thread) (i : Nat) : W64 :=
  match i with | 0 => th.hold0 | 1 => th.hold1 | 2 => th.hold2 | _ => th.hold3

/-- The supervisor-level registers (R44, R340, R356); %tsave and %tload read 0. -/
def State.mfsSl (s : State) (c t sys : Nat) : W64 :=
  let k := s.core c
  let th := k.thread t
  let w (x : W32) : W64 := x.setWidth 64
  match sys with
  | 0x100 => w k.tvec
  | 0x101 => w th.tcause
  | 0x102 => th.tpc
  | 0x103 => th.tval
  | 0x104 => w th.tlev
  | 0x105 => th.save
  | 0x106 => 3
  | 0x107 => w (k.tctx t)
  | 0x108 => th.tcval
  | 0x109 => th.sscr0
  | 0x10A => th.sscr1
  | 0x10B => th.sscr2
  | 0x10E => k.i.qcb
  | 0x150 => BitVec.ofNat 64 c
  | 0x151 => BitVec.ofNat 64 (dieOf c)
  | 0x152 => w k.sctl
  | 0x153 => w k.sphase
  | _ =>
    if 0x110 ≤ sys ∧ sys ≤ 0x113 then th.hold (sys - 0x110)
    else if 0x120 ≤ sys ∧ sys ≤ 0x12F then (match k.grpOf t with | some g => w (k.bcnt g (sys - 0x120)) | none => 0)
    else 0

/-- The control-level registers (R46, R302, R379). -/
def State.mfsCl (s : State) (c sys imm : Nat) : W64 :=
  let k := s.core c
  match sys with
  | 0x200 => (s.slot imm).prio.setWidth 64
  | 0x201 => (s.qstate (c - 208)).setWidth 64
  | 0x202 => BitVec.ofNat 64 (s.kpsum (c - 208))
  | 0x203 => k.evt.setWidth 64
  | 0x204 => k.tickIv.setWidth 64
  | _ => 0

/-- The value that MFS reads. -/
def State.mfsVal (s : State) (c t sys imm : Nat) : W64 :=
  if sys < 0x100 then s.mfsKl c t sys else if sys < 0x200 then s.mfsSl c t sys else s.mfsCl c sys imm

/-- The tags that MFS writes to the two halves: b32, but for the stored tags of the scratch registers (R42). -/
def Thread.mfsTags (th : Thread) (sys : Nat) : Tag × Tag :=
  match sys with
  | 0x109 => th.sscr0t
  | 0x10A => th.sscr1t
  | 0x10B => th.sscr2t
  | _ => (2, 2)

def sysWide (sys : Nat) : Bool := match sysReg sys with | some r => r.wide | none => false

/-- A register of the thread's group, named by a thread in no group: BARCOUNT (R45, R339). -/
def Core.noGroupBcnt (k : Core) (t sys : Nat) : Bool := decide (0x120 ≤ sys ∧ sys ≤ 0x12F) && (k.grpOf t).isNone

/-- The destination of an MFS. -/
def mfsSpec (f : SForm) : OpSpec :=
  { h := f.h, avail := sysAvail f.sys.toNat, dsts := [dstD f.d (if sysWide f.sys.toNat then 2 else 1)] }

/-- MFS (R301). A read of %sphase that an MTS has written is an acquire (R359). -/
def execMfs (f : SForm) (s : State) : Out :=
  let sys := f.sys.toNat
  .next (runExecs (mfsSpec f) (fun s e =>
    let c := s.cur.core
    let k := s.core c
    let th := k.thread e.lead
    if k.noGroupBcnt e.lead sys then s.trapExec e .barcount (barVal 0 (sys - 0x120) 1)
    else
      let v := s.mfsVal c e.lead sys f.imm.toNat
      let s := if sys = 0x153 ∧ k.sphaseSet = true then s.acquired e else s
      let (t0, t1) := th.mfsTags sys
      let d := f.d.toNat
      s.finishAll e (if sysWide sys then (if d = 0 then {} else { regs := [(d, v.setWidth 32, t0), (d + 1, (v >>> 32).setWidth 32, t1)] })
        else { regs := [(d, v.setWidth 32, 2)] })) s)

/-! ### Writing system registers -/

/-- The source of an MTS. -/
def mtsSpec (f : SForm) : OpSpec :=
  { h := f.h, avail := sysAvail f.sys.toNat, srcs := [{ reg := f.a.toNat, n := if sysWide f.sys.toNat then 2 else 1, idx := 0 }] }

/-- Runs an MTS for each thread that is still live when its turn comes; the thread completes first. -/
def mtsRun (f : SForm) (eff : State → Nat → Opnd → State) (s : State) : Out :=
  .next (runExecs (mtsSpec f) (fun s e =>
    if (s.core s.cur.core).live e.lead then eff (s.finish e.lead {}) e.lead (e.op 0) else s) s)

/-- The registers of a thread that an MTS writes (R56, R57, R301, R340, R356). -/
def Thread.mts (th : Thread) (sys : Nat) (o : Opnd) : Thread :=
  match sys with
  | 0x00A => { th with lk := o.x }
  | 0x00E => { th with fpf := o.lo.setWidth 4 }
  | 0x00F => { th with status := o.lo.setWidth 2 }
  | 0x101 => { th with tcause := o.lo }
  | 0x102 => { th with tpc := o.x }
  | 0x103 => { th with tval := o.x }
  | 0x104 => { th with tlev := o.lo }
  | 0x105 => { th with save := o.x }
  | 0x108 => { th with tcval := o.x }
  | 0x109 => { th with sscr0 := o.x, sscr0t := (o.tag, o.tagHi) }
  | 0x10A => { th with sscr1 := o.x, sscr1t := (o.tag, o.tagHi) }
  | 0x10B => { th with sscr2 := o.x, sscr2t := (o.tag, o.tagHi) }
  | 0x110 => { th with hold0 := o.x, heldFor := 0 }
  | 0x111 => { th with hold1 := o.x }
  | 0x112 => { th with hold2 := o.x }
  | 0x113 => { th with hold3 := o.x }
  | _ => th

/-- An MTS of a register without a row of its own (R44, R46, R301, R342, R379). -/
def State.mts (s : State) (t sys imm : Nat) (o : Opnd) : State :=
  let c := s.cur.core
  match sys with
  | 0x100 => s.updCore c (fun k => { k with tvec := o.lo &&& 0xFFFFFFF8 })
  | 0x152 => s.sctlOp c (o.lo.toNat % 8)
  | 0x200 => s.updSlot imm (fun q => { q with prio := o.lo.setWidth 3 })
  | 0x204 => s.updCore c (fun k => { k with tickIv := o.lo.setWidth 24, tickLeft := (o.lo.setWidth 24 : BitVec 24).toNat * 1000 })
  | _ => s.updThread c t (fun th => th.mts sys o)

/-- MTS (R301). -/
def execMts (f : SForm) (s : State) : Out := mtsRun f (fun s t o => s.mts t f.sys.toNat f.imm.toNat o) s

/-- EVT_WRITE (R302). -/
def execEvtWrite (f : SForm) (s : State) : Out :=
  mtsRun f (fun s _ o => s.updCore s.cur.core (fun k => { k with evt := k.evt &&& ~~~(o.lo.setWidth 6) })) s

/-- A write of a barrier's register, and the completion it may cause (R260); %bcnt0 takes none (R261). The waiters of the generation that
stood open go on when it completes, or when the write gives another one. -/
def Core.writeBcnt (k : Core) (g b : Nat) (w : W32) : Core :=
  if b = 0 then k
  else
    let old := k.barGen g b
    let done := decide (0 < bcntExp w ∧ bcntExp w ≤ bcntArr w)
    let w' := if done then mkBcnt (!bcntGen w) (bcntExp w) 0 else w
    let k := k.setGroup g { k.group g with bcnt := Map.set 0 (k.group g).bcnt b w' }
    if done || bcntGen w' != old then k.wakeAll g b old else k

/-- BCNT_WRITE (R45, R260, R261). -/
def execBcntWrite (f : SForm) (s : State) : Out :=
  let sys := f.sys.toNat
  .next (runExecs (mtsSpec f) (fun s e =>
    let c := s.cur.core
    match (s.core c).grpOf e.lead with
    | none => s.trap c e.lead .barcount s.cur.pc (barVal 0 (sys - 0x120) 1)
    | some g => (s.finish e.lead {}).updCore c (fun k => k.writeBcnt g (sys - 0x120) (e.op 0).lo)) s)

/-- TCTX_WRITE (R341). -/
def execTctxWrite (f : SForm) (s : State) : Out :=
  mtsRun f (fun s t o => s.updCore s.cur.core (fun k => k.writeTctx t o.lo)) s

/-- The checks of a block's staging offset (R357). -/
def stagingBad (a : W32) : Option Cause :=
  if a.toNat % 64 ≠ 0 then some .misalign
  else if 0xF00000 ≤ a.toNat ∧ a.toNat + 640 ≤ 0xF20000 then none else some .sprange

/-- The 640 bytes of a block in staging; an access to them stalls behind a copy under way (R84). -/
def State.blockStall (s : State) (e : Exec) (a : W32) : State :=
  let bytes := [(s.cur.core, a.toNat, 640)]
  s.updThread s.cur.core e.lead (fun th => th.stall e.ops [] (.mem bytes bytes))

/-- TSAVE_WRITE (R357): stores of the thread. -/
def execTsaveWrite (f : SForm) (s : State) : Out :=
  .next (runExecs (mtsSpec f) (fun s e =>
    let c := s.cur.core
    let a := (e.op 0).lo
    match stagingBad a with
    | some cz => s.trap c e.lead cz s.cur.pc (a.setWidth 64)
    | none =>
      if (s.core c).stalls a.toNat 640 then s.blockStall e a
      else (s.finish e.lead {}).updCore c (fun k =>
        { k with staging := Map.setRange Config.blank k.staging (a.toNat - 0xF00000) (k.threadBlock e.lead) })) s)

/-- TLOAD_WRITE (R358). -/
def execTloadWrite (f : SForm) (s : State) : Out :=
  .next (runExecs (mtsSpec f) (fun s e =>
    let c := s.cur.core
    let a := (e.op 0).lo
    match stagingBad a with
    | some cz => s.trap c e.lead cz s.cur.pc (a.setWidth 64)
    | none =>
      let bs := Map.getRange Config.blank (s.core c).staging (a.toNat - 0xF00000) 640
      if (s.core c).stalls a.toNat 640 then s.blockStall e a
      else if (s.core c).restore = false ∨ (w32At bs 48).getLsbD 24 = false then s.trap c e.lead .illegal s.cur.pc s.cur.word
      else (s.finish e.lead {}).updCore c (fun k => k.loadBlock e.lead bs)) s)

/-- The release of an MTS of %sphase, and its value (R82, R359). -/
def Core.writeSphase (k : Core) (t : Nat) (v : W32) : Core := { k.relMarkBy t with sphase := v, sphaseSet := true }

/-- SPHASE_WRITE (R82, R359): a release at `.core`, which follows the thread's global atomics (R94). -/
def execSphaseWrite (f : SForm) (s : State) : Out :=
  .next (runExecs (mtsSpec f) (fun s e =>
    let (s, free) := s.narrowRelease e.lead
    if !free then s.updThread s.cur.core e.lead (fun th => th.stall e.ops [] .release)
    else (s.finish e.lead {}).updCore s.cur.core (fun k => k.writeSphase e.lead (e.op 0).lo)) s)

/-! ### Pre-emption (R44, R308, R337, R344) -/

/-- A thread takes PREEMPT, which changes no line state (R113, log 110): the trap, and %save at the base of the area that this save uses (R44). -/
def State.takePreempt (s : State) (c t : Nat) (val : W64) : State :=
  let s := (s.updThread c t (fun th => { th with preempt := none })).trap c t .preempt ((s.core c).thread t).pc val
  let i := (s.core c).i
  let q := s.slot i.slot
  s.updThread c t (fun th => { th with save := saveArea (if val.getLsbD 8 then q.shadow else q.save) i.lcore.toNat })

/-- A thread takes WATCHDOG. -/
def State.takeWdog (s : State) (c t : Nat) (val : W64) : State :=
  (s.updThread c t (fun th => { th with wdog := none })).trap c t .watchdog ((s.core c).thread t).pc val

/-- The traps held while the thread was at SL, at its first instruction boundary at KL (R337). -/
def State.takeHeld (s : State) (c t : Nat) : State :=
  let th := (s.core c).thread t
  if th.level ≠ .kl then s
  else match th.preempt, th.wdog with
    | some v, _ => s.takePreempt c t v
    | none, some v => s.takeWdog c t v
    | none, none => s

/-- The threads of an instance to which a pre-emption goes: subordinates are only marked (R125, R344). -/
def Core.principals (k : Core) : List Nat := k.liveTids.filter (fun t => (k.thread t).sub.isNone)

/-- A PREEMPT arrives at a core (R308, R344): subordinates are marked for release; every thread traps, at SL later. -/
def State.deliverPreempt (s : State) (c : Nat) (val : W64) : State :=
  let s := s.updCore c (fun k =>
    let k := (List.range 8).foldl (fun k r => if (k.rcd r).live then k.markSubs r (fun _ => true) else k) k
    { k with inst := k.inst.map (fun i => { i with gang := val.getLsbD 8, parking := val.getLsbD 9, reported := false, refused := false }) })
  (s.core c).principals.foldl (fun s t =>
    if ((s.core c).thread t).level = .kl then s.takePreempt c t val
    else s.updThread c t (fun th => { th with preempt := some val })) s

/-- PREEMPT_DELIVERY (R308, R344). -/
def execPreemptDelivery (core : Nat) (s : State) : Out :=
  match (s.core core).ipis with
  | [] => .next s
  | v :: vs =>
    let s := s.updCore core (fun k => { k with ipis := vs })
    .next (if (s.core core).inst.isSome then s.deliverPreempt core v else s)

/-! ### ERET (R303) -/

/-- The header of the block that holds an instruction word: the nearest header word before it (R303). -/
inductive Found where
  | header (a h : W64) (n : Nat)
  | miss (a : W64)
  | none
  deriving DecidableEq, Repr

/-- Searches the words before `pc`: `n` is the distance of the next, `fuel` how many are left. -/
def Core.findHeader (k : Core) (pc : W64) : Nat → Nat → Found
  | 0, _ => .none
  | fuel + 1, n =>
    let a := pc - 8 * BitVec.ofNat 64 n
    if pc.toNat < 8 * n then .none
    else match k.fetch a with
      | .none => .miss a
      | .some h => if (fld h 60 4).toNat = 15 then .header a h n else Core.findHeader k pc fuel (n + 1)

/-- ERET for one thread (R303). -/
def State.eretOne (s : State) (t : Nat) : State :=
  let c := s.cur.core
  let k := s.core c
  let th := k.thread t
  let go (blk : Option (W64 × W64)) : State := (s.updThread c t (fun th => th.doEret blk)).takeHeld c t
  let bad : State := s.trap c t .badhdr s.cur.pc th.tpc
  if 1 < th.tlev.toNat then s.trap c t .illegal s.cur.pc s.cur.word
  else if th.tpc.toNat % 8 ≠ 0 then bad
  else match k.fetch th.tpc with
    | none => s.waitFetch c [t] th.tpc
    | some w =>
      if (fld w 60 4).toNat = 15 then go none
      else match k.findHeader th.tpc 255 1 with
        | .miss a => s.waitFetch c [t] a
        | .none => bad
        | .header a h n => if headerOk h = .ok ∧ n ≤ hdrLen h then go (some (a, h)) else bad

/-- ERET (R303). -/
def execEret (f : SForm) (s : State) : Out :=
  .next (runExecs { h := f.h, avail := .sl, endsBlock := true } (fun s e => s.eretOne e.lead) s)

/-! ### IFLUSH (R304) -/

/-- Drops `n` lines of the instruction cache from an address on, or all of them. Fetches under way read memory again. -/
def Core.iflush (k : Core) (a : W64) (n : Nat) : Core :=
  if n = 0 then { k with icache := [] }
  else { k with icache := k.icache.filter (fun e =>
    !(e.1 / 2 ^ 56 == k.fetchPasid && decide (a.toNat / 256 ≤ e.1 % 2 ^ 56 ∧ e.1 % 2 ^ 56 < a.toNat / 256 + n))) }

/-- The address of IFLUSH. -/
def iflushSpec (f : SForm) : OpSpec := { h := f.h, avail := .slcl, srcs := [{ reg := f.a.toNat, n := 2, idx := 0 }] }

/-- IFLUSH (R304). -/
def execIflush (f : SForm) (s : State) : Out :=
  .next (runExecs (iflushSpec f) (fun s e =>
    (s.updCore s.cur.core (fun k => k.iflush (e.op 0).x f.imm.toNat)).finishAll e {}) s)

/-! ### Control cores (R302, R305, R306, R308) -/

/-- The operands of a control-level instruction. -/
def clSpec (f : SForm) (srcs : List Src) : OpSpec := { h := f.h, avail := .cl, srcs := srcs, dsts := [dstD f.d 1] }

/-- WFI (R305): an acquire at `.dev`. -/
def execWfi (f : SForm) (s : State) : Out :=
  .next (runExecs (clSpec f []) (fun s e =>
    let c := s.cur.core
    let v := (s.core c).evt &&& (f.imm.setWidth 6)
    if v = 0 then e.targets.foldl (fun s t => s.updThread c t (fun th => th.wait (.wfi f.imm.toNat))) s
    else ((s.updCore c (fun k => k.acqInvalidate [])).acquired e).finishAll e (Res.one f.d.toNat (v.setWidth 32) 1)) s)

/-- KPEND (R306). -/
def execKpend (f : SForm) (s : State) : Out :=
  .next (runExecs (clSpec f []) (fun s e =>
    let c := s.cur.core
    match s.nextPend (c - 208) with
    | none => s.finishAll e (Res.one f.d.toNat 0xFFFFFFFF 1)
    | some b =>
      let s := { s with pendBits := s.pendBits.filter (· != b) }
      (s.updCore c (fun k => { k with kpendAt := some b })).finishAll e
        (Res.one f.d.toNat (BitVec.ofNat 32 b) 1)) s)

/-- A core that runs a launch of a hardware slot. -/
def State.runsSlot (s : State) (q c : Nat) : Bool := match (s.core c).inst with | some i => i.slot == q | none => false

/-- A PREEMPT is sent to a core. -/
def State.sendPreempt (s : State) (c : Nat) (val : W64) : State := s.updCore c (fun k => { k with ipis := k.ipis ++ [val] })
def physCores : List Nat := List.range 208
def State.preemptSlot (s : State) (q : Nat) (val : W64) : State :=
  (physCores.filter (s.runsSlot q)).foldl (fun s c => s.sendPreempt c val) s

/-- The targets of an IPI (R308): none is a bad target. -/
def State.sendIpi (s : State) (cc : Nat) (a : W32) : Option State :=
  let low := a.toNat % 2 ^ 30
  match a.toNat / 2 ^ 30 with
  | 0 => if low < 8 then some (s.raiseEvt low evIPI) else none
  | 1 => if low < 208 then some (s.sendPreempt low (BitVec.ofNat 64 cc)) else none
  | 2 => if low < 64 then some (s.preemptSlot low (BitVec.ofNat 64 cc)) else none
  | _ => none

/-- IPI (R308): a release at `.dev`. -/
def execIpi (f : SForm) (s : State) : Out :=
  .next (runExecs (clSpec f [{ reg := f.a.toNat, idx := 0 }]) (fun s e =>
    let c := s.cur.core
    let (s, ok) := s.releaseReady c e.targets
    if !ok then e.targets.foldl (fun s t => s.updThread c t (fun th => th.wait .release)) s
    else match s.sendIpi (c - 208) (e.op 0).lo with
      | some s => (s.updCore c (fun k => k.relMark)).finishAll e (Res.one f.d.toNat 0 1)
      | none => s.finishAll e (Res.one f.d.toNat 1 1)) s)

end Sys2Proof.Machine
end

