-- ==== Sys2Proof/Machine/Translate.lean ====
section
/-! DEFINITION. The ends of page walks, the answers to fault records, invalidations, page migration, and the host's side of
translation: ATS and PRI (R389 to R398). -/

namespace Sys2Proof.Machine
open Sys2Proof

/-- A host write or a register access can reach the device: the link is up and the module is powered and present (R410, R424, R429). -/
def State.hostUp (s : State) : Bool := s.link && s.mainPower && s.present
/-- All of BAR0 and BAR2 are served: READY is set, and not by the recovery image (R410, R412). -/
def State.barUp (s : State) : Bool := s.hostUp && s.boot.ready && !s.boot.recovery

/-- The function is there: the physical one, or a virtual one under SR-IOV (R399, log 134). -/
def State.fnUp (s : State) (func : Nat) : Bool := func == 0 || (s.vfs && decide (func ≤ 256))

/-! ### Users -/

/-- How far the user's translation has come. -/
def State.getXs (s : State) (u : User) : XSt :=
  match u with
  | .cmd c id => match (s.core c).cmd? id with | some m => m.xs | none => .idle
  | .mop c id => match (s.core c).mop? id with | some m => m.xs | none => .idle
  | .queue q => if q < 64 then (s.slot q).xs else (s.slot (q % 64)).laXs
  | .page _ _ _ _ => match s.askedFor u with | some e => e.xs | none => .idle
  | .rdma => .idle

/-- The users that still wait. -/
def State.stillWalking (s : State) (ns : List Need) : List Need := ns.filter (fun n => s.getXs n.user == .walking)

/-- PAGE_WALK_COMPLETE (R389, R390): a stale walk is restarted, every other answers its users. -/
def execPageWalkComplete (die idx : Nat) (s : State) : Out :=
  match (s.die die).walks[idx]? with
  | none => .next s
  | some w =>
    if w.stale then
      .next (s.updDie die (fun di => { di with walks := di.walks.map (fun x => if x = w then { x with stale := false } else x) }))
    else
      let s := s.updDie die (fun di => { di with walks := di.walks.filter (· != w) })
      let s := (s.stillWalking w.users).foldl (fun s n => s.endWalk die w.pasid n) s
      .next (s.pullWalk die)

/-! ### Fault records (R393, R394) -/

/-- FQHEAD is written: faults that waited for room are recorded (R393). -/
def State.setFqhead (s : State) (d : Nat) (v : W32) : State :=
  let s := s.updDie d (fun di => { di with fqhead := v })
  s.flushFaults d (s.die d).waiting.length

/-- FQHEAD_WRITE (R392, R393). -/
def execFqheadWrite (die : Nat) (value : W32) (s : State) : Out :=
  .next (if s.barUp then s.setFqhead die value else s)

/-- A fault record is answered: every command still parked on it walks again, or fails (R394). -/
def State.answer (s : State) (d : Nat) (token : W32) (retry : Bool) : State :=
  match (s.die d).faults.find? (fun r => r.token == token.toNat) with
  | none => s
  | some r =>
    let s := s.updDie d (fun di => { di with faults := di.faults.filter (fun x => x.token != r.token) })
    (r.users.filter (fun n => s.getXs n.user == .parked d r.token)).foldl
      (fun s n => if retry then s.startWalk r.pasid n else s.setXs n.user (.failed n.va)) s

/-- FRESP_RETRY (R394). -/
def execFrespRetry (die : Nat) (token : W32) (s : State) : Out := .next (if s.barUp then s.answer die token true else s)
/-- FRESP_FAIL (R394). -/
def execFrespFail (die : Nat) (token : W32) (s : State) : Out := .next (if s.barUp then s.answer die token false else s)

/-! ### Invalidation (R390 to R392) -/

/-- A range of an invalidation: a PASID or all of them, a start, a length with 0 for everything. -/
abbrev InvRange := Option Nat × Nat × Nat

/-- A span of addresses meets the range. -/
def invMeets (r : InvRange) (pasid va size : Nat) : Bool :=
  (match r.1 with | some p => p == pasid | none => true) && (r.2.2 == 0 || decide (va < r.2.1 + r.2.2 ∧ r.2.1 < va + size))

/-- A command that has started keeps what it uses until it retires; a GATOM or a semaphore command uses its translation within one step. -/
def Cmd.using (m : Cmd) : Bool := m.started && m.op != 0xA6 && m.op != 0xA7 && m.op != 0xA8

/-- An access that uses such a translation has not been performed. -/
def State.inUse (s : State) (bad : Xlat → Bool) : Bool := s.cores.any (fun e => e.2.cmds.any (fun m => m.using && m.src.any bad))

/-- Drops translations from every cache and from every user that has not used them. -/
def State.dropXlats (s : State) (bad : Xlat → Bool) : State :=
  let keep (l : List Xlat) : List Xlat := l.filter (fun x => !bad x)
  { s with
    cores := s.cores.mapVal (fun _ (k : Core) => { k with
      tlb := keep k.tlb, cmds := k.cmds.map (fun m => if m.using then m else { m with src := keep m.src })
      mops := k.mops.map (fun m => { m with xl := keep m.xl }) })
    dies := s.dies.mapVal (fun _ (d : Die) => { d with dtlb := keep d.dtlb })
    slots := s.slots.mapVal (fun _ (q : Slot) => { q with src := keep q.src, laSrc := keep q.laSrc }) }

/-- The lowest address bit that a table of a level indexes (R387). -/
def lvlBit (lvl : Nat) : Nat := match lvl with | 3 => 39 | 2 => 30 | 1 => 21 | _ => 16

/-- Drops cached pointers and marks walks of a range for a new start (R389, R390). -/
def State.dropWalks (s : State) (r : InvRange) : State :=
  { s with dies := s.dies.mapVal (fun _ (d : Die) => { d with
      ptrs := d.ptrs.filter (fun p => !invMeets r p.pasid (p.va * 2 ^ lvlBit p.lvl) (2 ^ lvlBit p.lvl))
      walks := d.walks.map (fun w => if invMeets r w.pasid (w.va / 65536 * 65536) 65536 then { w with stale := true } else w) }) }

/-- Some 64 KiB of a page are poisoned. -/
def State.anyPoison (s : State) (x : Xlat) : Bool := (List.range (x.size / 65536)).any (fun i => s.poisoned (x.at (x.va + 65536 * i)))

/-- The leaf that maps an address, or RESULT (R392, R396, R397); a page of tier 2 is one whether or not its PASID may use ATS. -/
def State.leafOf (s : State) (pasid va : Nat) : Except Nat Xlat :=
  match s.pasidEntry pasid with
  | none => .error 4
  | some pe =>
    if 2 ^ 52 ≤ va ∨ va / 2 ^ 48 = 15 then .error 4
    else match (s.walkFrom { pe with ats := true } pasid va false levels pe.root).1 with
      | .hit x => if x.size = 2 ^ 30 then .error 2 else if s.anyPoison x then .error 4 else .ok x
      | .ats x => .error (if x.size = 2 ^ 30 then 2 else 3)
      | .fault _ _ => .error 1
      | .bad => .error 4

/-- A migration ends with a result. -/
def State.endMig (s : State) (result : Nat) : State :=
  { s with mig := { s.mig with busy := false, armed := none, pend := [], saw := false, migSet := false, drain := none, result := BitVec.ofNat 8 result } }

/-- An INVCMD over the page of a migration whose leaf is no longer valid abandons the move (R397). -/
def State.checkMig (s : State) (r : InvRange) : State :=
  let m := s.mig
  if m.busy && m.drain.isNone && invMeets r m.pasid.toNat (m.va.toNat / 65536 * 65536) 65536 then
    match s.leafOf m.pasid.toNat m.va.toNat with
    | .error 1 => s.endMig 1
    | _ => s
  else s

/-- INVCMD is written: ignored while BUSY; its bits [63:21] are ignored (R9, R392). -/
def State.startInv (s : State) (v : W64) : State :=
  if s.inv.isSome then s
  else
    let r : InvRange := (if v.getLsbD 20 then none else some (v.toNat % 2 ^ 20), s.invva.toNat, s.invlen.toNat)
    State.checkMig { s with inv := some r } r

/-- INVCMD (R391, R392, R397). -/
def execInvcmd (value : W64) (s : State) : Out := .next (if s.barUp then s.startInv value else s)

/-- INVALIDATION_COMPLETE (R390, R391): once every access that used an old translation has been performed. -/
def execInvalidationComplete (s : State) : Out :=
  match s.inv with
  | none => .next s
  | some r =>
    let bad (x : Xlat) : Bool := invMeets r x.pasid x.va x.size
    if s.inUse bad then .next s else .next { (s.dropXlats bad).dropWalks r with inv := none }

/-! ### Migration (R396, R397) -/

/-- MIGGO is written (R392, R396). -/
def State.startMig (s : State) (v : W32) : State :=
  if v ≠ 1 ∨ s.mig.busy then s
  else { s with mig := { s.mig with busy := true, abandons := 0, armed := none, pend := [], saw := false, migSet := false, drain := none } }

/-- MIGGO (R396). -/
def execMiggo (value : W32) (s : State) : Out := .next (if s.barUp then s.startMig value else s)

/-- The address of the new frame, if MIGDST names one for a page of this size (R392). -/
def migTarget (dst : W64) (size : Nat) : Option Nat :=
  let tier := dst.toNat % 4
  let addr := dst.toNat / 2 ^ 12 % 2 ^ 36 * 2 ^ 12
  if dst.toNat / 4 % 2 ^ 10 ≠ 0 ∨ 2 ^ 48 ≤ dst.toNat ∨ 1 < tier ∨ addr % size ≠ 0 then none else tierLoc tier addr size

/-- The commands and write-backs (core, number) whose writes are counted in the page and not yet performed. -/
def State.writers (s : State) (leaf : Nat) : List (Nat × Nat) :=
  s.cores.flatMap (fun e => (e.2.cmds.filter (fun m => m.using && m.src.any (fun x => x.leaf == some leaf && x.w) &&
    (m.writePages.any (fun x => x.leaf == some leaf)))).map (fun m => (e.1, m.id)) ++
    (e.2.mops.filter (fun m => m.counted && m.xl.any (fun x => x.leaf == some leaf && x.w))).map (fun m => (e.1, m.id)))

/-- Copies the bytes of a page to its new frame. -/
def State.copyPage (s : State) (src dst size : Nat) : State :=
  let moved := s.mem.filter (fun e => decide (src ≤ e.1 ∧ e.1 < src + size))
  let rest := s.mem.filter (fun e => !decide (dst ≤ e.1 ∧ e.1 < dst + size))
  { s with mem := moved.foldl (fun m e => Map.set Config.blank m (e.1 - src + dst) e.2) rest }

/-- Replaces ADDR and TIER of a leaf, clears MIG, keeps the rest (R396). -/
def State.replaceLeaf (s : State) (leaf : Nat) (dst : W64) : State :=
  let e := s.devNat leaf 8
  let e := e - e / 2 ^ 12 % 2 ^ 36 * 2 ^ 12 - e / 2 ^ 4 % 4 * 2 ^ 4 - (if e.testBit 8 then 2 ^ 8 else 0)
  s.devPut leaf 8 (e + dst.toNat / 2 ^ 12 % 2 ^ 36 * 2 ^ 12 + dst.toNat % 4 * 2 ^ 4)

/-- The page is copied and replaced, its old translations are invalidated. -/
def State.movePage (s : State) (x : Xlat) (leaf new : Nat) : State :=
  let s := ((s.copyPage x.loc.addr new x.size).replaceLeaf leaf s.mig.dst).dropXlats (fun y => y.leaf == some leaf)
  { s with mig := { s.mig with armed := none, pend := [], migSet := false, drain := some (leaf, new) } }

/-- One stage of a migration: the watch is armed, a round ends once the writes that its WVER counts are performed, MIG is set, the page is
replaced, its old frame falls out of use. -/
def State.migRound (s : State) : State :=
  let m := s.mig
  match m.drain with
  | some (leaf, new) => if s.inUse (fun x => x.leaf == some leaf && x.loc.addr != new) then s else s.endMig 0
  | none => match s.leafOf m.pasid.toNat m.va.toNat with
    | .error r => s.endMig r
    | .ok x => match x.leaf, migTarget m.dst x.size with
      | some leaf, some new =>
        let wver := s.devNat leaf 8 / 2 ^ 52
        if m.migSet then (if s.writers leaf = [] then s.movePage x leaf new else s)
        else match m.armed with
          | none => { s with mig := { m with armed := some (leaf, wver), pend := s.writers leaf, saw := false } }
          | some (l, v) =>
            if (s.writers leaf).any m.pend.contains then s
            else if l = leaf ∧ v = wver ∧ m.saw = false then s.movePage x leaf new
            else
              let n := min 255 (m.abandons + 1)
              let s := { s with mig := { m with abandons := n, armed := none, pend := [], saw := false, migSet := n == 4 } }
              if n = 4 then s.devPut leaf 8 (s.devNat leaf 8 ||| 256) else s
      | _, _ => s.endMig 4

/-- MIGRATION_ROUND (R396). -/
def execMigrationRound (s : State) : Out := .next (if s.mig.busy then s.migRound else s)

/-! ### Host memory (R398) -/

/-- The translation of 64 KiB that the host has given; the table's own W bound applies too. None when the table no longer leads to the
host. -/
def State.hostXlat (s : State) (pasid va hostPage : Nat) (writable : Bool) : Option Xlat :=
  match s.pasidEntry pasid with
  | none => none
  | some pe => match (s.walkFrom pe pasid va false levels pe.root).1 with
    | .ats x => some { pasid := pasid, va := va, size := 65536, loc := { host := true, addr := hostPage * 65536 }, w := writable && x.w
                       leaf := x.leaf, part := x.part }
    | _ => none

/-- The inbound accesses of a request that its translation does not allow are answered with a NAK, and are not parked (R405). -/
def State.nakInbound (s : State) (no : List (Nat × Bool)) : State :=
  { s with replies := s.replies ++ no.map (fun e => { req := e.1, ok := false }) }

/-- What an inbound access needs of a page. -/
def inboundNeed (va : Nat) (e : Nat × Bool) : Need := { user := .rdma, va := va, acc := if e.2 then 1 else 0 }

/-- A translation that returns no permission: a page request, or a recoverable fault of reason 3 under PRI = 0 (R393, R398). -/
def State.noPermission (s : State) (a : AtsReq) (ns : List Need) : State :=
  let pri := match s.pasidEntry a.pasid with | some pe => pe.pri | none => false
  if ns = [] then s
  else if pri then { s with pri := s.pri ++ [{ a with users := ns.filter (fun n => n.user != .rdma), inbound := [] }] }
  else ns.foldl (fun s n => s.park (ringDie a.die)
    { user := n.user, pasid := a.pasid, va := n.va, acc := n.acc, reason := 3, src := n.user.src }) s

/-- ATS_TRANSLATION_COMPLETION (R398): the die caches what it may read. A page request waits while 512 are outstanding. -/
def execAtsTranslationCompletion (idx hostPage : Nat) (readable writable : Bool) (s : State) : Out :=
  match s.ats[idx]? with
  | none => .next s
  | some a =>
    let live := s.stillWalking a.users
    match s.hostXlat a.pasid a.va hostPage writable with
    | none =>
      let s := { s with ats := s.ats.filter (· != a) }
      .next (live.foldl (fun s n => s.startWalk a.pasid n) s)
    | some x =>
      let served (n : Need) : Bool := readable && (x.w || (n.acc != 1 && n.acc != 2))
      let nak := a.inbound.filter (fun e => !(readable && (x.w || !e.2)))
      let no := live.filter (fun n => !served n) ++ nak.map (inboundNeed a.va)
      if no != [] && 512 ≤ s.pri.length then .next s
      else
        let s : State := { s with ats := s.ats.filter (· != a) }
        let s := (if readable then s.updDie a.die (fun di => di.cacheLeaf x) else s).nakInbound nak
        .next (State.noPermission ((live.filter served).foldl (fun s n => s.serve a.die n x) s) a no)

/-- PRI_RESPONSE (R398): a success retries the translation; otherwise every command that waits on the page fails. -/
def execPriResponse (idx : Nat) (success : Bool) (s : State) : Out :=
  match s.pri[idx]? with
  | none => .next s
  | some a =>
    let mine (b : AtsReq) : Bool := b.pasid == a.pasid && b.va == a.va
    if success then
      let live := s.stillWalking a.users
      let s := { s with pri := s.pri.filter (· != a) }
      .next (live.foldl (fun s n => s.startWalk a.pasid n) s)
    else
      let live := s.stillWalking ((s.pri.filter mine).flatMap (·.users))
      let s := { s with pri := (s.pri.filter (· != a)).map (fun b => if mine b then { b with users := [] } else b) }
      .next (live.foldl (fun s n => s.setXs n.user (.failed n.va)) s)

/-- ATS_INVALIDATE_REQUEST (R398): completed once no access that used the translation is outstanding. -/
def execAtsInvalidateRequest (pasid va len : Nat) (s : State) : Out :=
  let bad (x : Xlat) : Bool := x.loc.host && invMeets (some pasid, va, len) x.pasid x.va x.size
  .next (if s.inUse bad then s else s.dropXlats bad)

end Sys2Proof.Machine
end

