-- ==== Sys2Proof/Machine/Packets.lean ====
section
/-! DEFINITION. Queues: kicks, QBIND and QUNBIND, the look-ahead, and every packet but LAUNCH and FRAME (R307, R365 to R374, R377,
R380). -/

namespace Sys2Proof.Machine
open Sys2Proof

/-! ### Kicks (R365, R402) -/

/-- KWR_WRITE (R365): an aligned 8-byte write to one of the 257 functions (R4). A function under FLR takes none (R402). -/
def execKwrWrite (func off size : Nat) (value : W64) (s : State) : Out :=
  .next (
    if !s.hostUp || !s.fnUp func || (s.fn func).flr || size != 8 || off % 8 != 0 || decide (0x200 ≤ off) then s
    else
      let q := off / 8
      let s := { s with kwr := Map.set 0 s.kwr (func * 64 + q) value }
      match s.boundSlot func q with
      | some _ => s
      | none => s.setPending func q)

/-! ### QBIND (R307, R368, R377) -/

/-- A ring size within its range (R367). -/
def ringSizeOk (n : Nat) : Bool := decide (16 ≤ n ∧ n ≤ 1048576) && n == 2 ^ Nat.log2 n

/-- What makes QBIND answer 2 (R307); `b` are the bytes of the QCB. -/
def qcbBad (part : Nat) (qcb : W64) (b : List Byte) : Bool :=
  let st := natAt b 0x0C 4
  let depth := natAt b 0x2F 1
  let level (i : Nat) : Bool :=
    natAt b (0x80 + 16 * i) 8 % 64 != 0 || natAt b (0x88 + 16 * i) 4 == 0 || decide (65536 < natAt b (0x88 + 16 * i) 4)
  qcb.toNat % 256 != 0 || natAt b 0 8 % 64 != 0 || natAt b 0x30 8 % 16 != 0 || !ringSizeOk (natAt b 8 4) || !ringSizeOk (natAt b 0x38 4) ||
    st / 2 ^ 16 != 0 || st / 16 % 16 != 0 || !List.contains [0, 2, 3] (st % 16) ||
    decide (7 < natAt b 0x28 1) || decide (256 < natAt b 0x2A 2) || decide (63 < natAt b 0x2C 1) || natAt b 0x2D 1 != part ||
    natAt b 0x3C 4 == 0 || decide (2 ^ 20 ≤ natAt b 0x3C 4) || decide (8 < depth) || (List.range (min depth 8)).any level ||
    (natAt b 0x50 8 != 0 && !List.contains [1, 2, 3] (natAt b 0x68 4))

/-- The look-ahead's levels of a cursor: an outer level goes on behind the CALL that is in progress. -/
def aheadOf : List CallLev → List CallLev
  | [] => []
  | l :: ls => l :: ls.map (fun o => { o with addr := o.addr + 64, left := o.left - 1 })

/-- The device stopped this queue at this cursor: what it kept of it still holds (R371, R374). -/
def Kept.fits (k : Kept) (b : List Byte) (stack : List CallLev) : Bool :=
  k.ring == natAt b 0 8 && k.commit == natAt b 0x18 8 && k.stack.map (fun l => (l.addr, l.left)) == stack.map (fun l => (l.addr, l.left))

/-- The slot that QBIND makes of a QCB and of what the device kept of its queue (R371, R374, R377, R380). -/
def slotOfQcb (part : Nat) (qcb : W64) (b : List Byte) (lost : Bool) (kept : Kept) : Slot :=
  let read : List CallLev := ((List.range (natAt b 0x2F 1)).map (fun i =>
    { addr := natAt b (0x80 + 16 * i) 8, left := natAt b (0x88 + 16 * i) 4 })).reverse
  let fits := kept.fits b read
  let stack := if fits then kept.stack else read
  { prio := BitVec.ofNat 3 (natAt b 0x28 1), bound := true, qcb := qcb, ring := natAt b 0 8, rsize := natAt b 8 4
    cring := natAt b 0x30 8, crsize := natAt b 0x38 4, func := natAt b 0x2A 2, qnum := natAt b 0x2C 1, part := part
    pasid := natAt b 0x3C 4, save := w64At b 0x50, shadow := w64At b 0x58, commit := natAt b 0x18 8, write := natAt b 0x20 8
    read := natAt b 0x18 8, crwr := natAt b 0x40 8, stack := stack, laStack := aheadOf stack, skip := if fits then kept.skip else 0
    resume := if lost then .reset else if natAt b 0x0C 4 % 16 = 3 then .saved else .fresh }

/-- The binding takes effect. -/
def State.bind (s : State) (q part : Nat) (qcb : W64) (b : List Byte) : State :=
  let a := qcb.toNat
  let x := slotOfQcb part qcb b (s.interrupted.contains a) (Map.get {} s.kept a)
  let s := { s with slots := Map.put s.slots q x, interrupted := s.interrupted.filter (· != a)
                    kept := if x.resume = Resume.saved then s.kept else Map.erase s.kept a }
  ((s.qcbPut q 0x0C 4 1).qcbPut q 0x10 8 x.commit).qcbPut q 0x2E 1 q

/-- The control core owns the partition of a slot. -/
def State.ownsSlot (s : State) (cc q : Nat) : Option Nat :=
  match s.slotPart q with
  | some p => if s.ccOf (some p) = some cc then some p else none
  | none => none

/-- QBIND's status and effect, its conditions in the order 3, 4, 1, 2 (R307). -/
def State.qbind (s : State) (cc q : Nat) (qcb : W64) : State × Nat :=
  if 64 ≤ q then (s, 3)
  else match s.ownsSlot cc q with
    | none => (s, 4)
    | some p =>
      let sl := s.slot q
      if sl.bound || sl.draining || sl.preempting then (s, 1)
      else
        let b := s.read0 qcb.toNat 256
        if qcbBad p qcb b then (s, 2) else (s.bind q p qcb b, 0)

/-- QBIND has come so far that it reads the QCB: the page is there, or it waits (R307, R385). An address that is no multiple of 256 is not
read. -/
def State.qcbReady (s : State) (cc q : Nat) (qcb : W64) : State × Bool :=
  let sl := s.slot q
  if 64 ≤ q ∨ (s.ownsSlot cc q).isNone = true ∨ (sl.bound || sl.draining || sl.preempting) = true ∨ qcb.toNat % 256 ≠ 0 then (s, true)
  else s.ready0 qcb.toNat 256

/-- The operands of QBIND and of QUNBIND: D names the slot and receives the status. -/
def qbindSpec (f : SForm) : OpSpec :=
  { h := f.h, avail := .cl, srcs := [{ reg := f.d.toNat, idx := 3 }, { reg := f.a.toNat, n := 2, idx := 0 }], dsts := [dstD f.d 1] }
def qunbindSpec (f : SForm) : OpSpec := { h := f.h, avail := .cl, srcs := [{ reg := f.d.toNat, idx := 3 }], dsts := [dstD f.d 1] }

/-- QBIND (R307): it reads the QCB with acquire at `.dev`. -/
def execQbind (f : SForm) (s : State) : Out :=
  .next (runExecs (qbindSpec f) (fun s e =>
    let q := (e.op 0).lo.toNat
    let qcb := (e.op 1).x
    match s.qcbReady (s.cur.core - 208) q qcb with
    | (s, false) => e.targets.foldl (fun s t => s.updThread s.cur.core t (fun th => th.wait (.page qcb.toNat))) s
    | (s, true) =>
      let s := (s.updCore s.cur.core (fun k => k.acqInvalidate [])).acquired e
      let (s, st) := s.qbind (s.cur.core - 208) q qcb
      s.finishAll e (Res.one f.d.toNat (BitVec.ofNat 32 st) 1)) s)

/-! ### QUNBIND (R307, R368, R377) -/

/-- The cores that run the launch of a slot. -/
def State.launchCores (s : State) (q : Nat) : List Nat := physCores.filter (s.runsSlot q)

/-- A user's translations are of no more use. -/
def State.forget (s : State) (u : User) : State :=
  let keep (ns : List Need) : List Need := ns.filter (fun n => n.user != u)
  { s with
    dies := s.dies.mapVal (fun _ (d : Die) => { d with
      walks := d.walks.map (fun w => { w with users := keep w.users }), pendWalks := d.pendWalks.filter (fun e => e.2.user != u)
      waiting := d.waiting.filter (fun w => w.user != u), faults := d.faults.map (fun r => { r with users := keep r.users }) })
    ats := s.ats.map (fun a => { a with users := keep a.users }), pri := s.pri.map (fun a => { a with users := keep a.users }) }

/-- ST as the stop of a queue leaves it (R368): a LAUNCH that QBIND has found saved or interrupted is in flight. -/
def Slot.stopSt (x : Slot) (pre : Bool) : Nat := if pre && (x.launch.isSome || x.resume != .fresh) then 3 else 2

/-- The engine has stopped at a packet boundary: the cursor goes to the QCB, the slot is unbound (R307, R368, R377). A LAUNCH that a reset
interrupted and that has not issued again stays interrupted (R380). -/
def State.stopQueue (s : State) (cc q : Nat) (pre : Bool) : State :=
  let sl := s.slot q
  let a := sl.qcb.toNat
  let s := ((s.forget (.queue q)).forget (.queue (64 + q))).putStack q
  let s := { s with kept := Map.put s.kept a (sl.cursor (Map.get {} s.kept a))
                    interrupted := if sl.resume = Resume.reset then s.interrupted ++ [a] else s.interrupted }
  let st := sl.stopSt pre
  let s := s.qcbPut q 0x10 8 sl.read
  let s := if sl.err = 0 then s.qcbPut q 0x0C 4 st else s
  let s := s.qcbPut q 0x2E 1 0xFF
  if sl.launch.isNone then ({ s with slots := Map.put s.slots q { prio := sl.prio } }).raiseEvt cc evIDLE
  else
    let s := s.updSlot q (fun x => { x with
      bound := false, unbinding := none, la := [], laPkt := none, laStack := [], laJoin := false, xs := .idle, src := [], laXs := .idle, laSrc := []
      draining := !pre, preempting := pre })
    if pre then ((s.launchCores q).foldl (fun s c => s.sendPreempt c (BitVec.ofNat 64 cc)) (s.clearReport q)).launchOver q else s

/-- QUNBIND's status, or none while it waits; its conditions in the order 3, 4, 5 (R307). A core without a save area is not pre-empted
(R377). -/
def State.qunbind (s : State) (cc q : Nat) (flag : Bool) : State × Option Nat :=
  if 64 ≤ q then (s, some 3)
  else if (s.ownsSlot cc q).isNone then (s, some 4)
  else
    let sl := s.slot q
    if !sl.bound then (s, some 5)
    else
      let pre := sl.unbinding.getD (flag && sl.save != 0)
      if sl.atBoundary pre then (s.stopQueue cc q pre, some 0) else (s.updSlot q (fun x => { x with unbinding := some pre }), none)

/-- The queue of a slot is unbound from the moment that its QUNBIND issues: kicks set its pending bit (R365). -/
def State.beginUnbind (s : State) (cc q : Nat) (flag : Bool) : State :=
  if 64 ≤ q ∨ (s.ownsSlot cc q).isNone then s
  else s.updSlot q (fun x => if x.bound then { x with unbinding := some (x.unbinding.getD (flag && x.save != 0)) } else x)

/-- QUNBIND (R307): a waiting instruction, and a release at `.dev`. -/
def execQunbind (f : SForm) (s : State) : Out :=
  .next (runExecs (qunbindSpec f) (fun s e =>
    let c := s.cur.core
    let q := (e.op 0).lo.toNat
    let (s, ok) := (s.beginUnbind (c - 208) q (f.fn.getLsbD 0)).releaseReady c e.targets
    if !ok then e.targets.foldl (fun s t => s.updThread c t (fun th => th.wait .release)) s
    else
      match s.qunbind (c - 208) q (f.fn.getLsbD 0) with
      | (s, some st) => (s.updCore c (fun k => k.relMark)).finishAll e (Res.one f.d.toNat (BitVec.ofNat 32 st) 1)
      | (s, none) => e.targets.foldl (fun s t => s.updThread c t (fun th => th.wait (.qunbind q))) s) s)

/-! ### The form of packets (R369, R370) -/

def pktTy (bs : List Byte) : Nat := natAt bs 0 1
/-- The bytes that a type uses. -/
def pktUsed (ty : Nat) : Nat :=
  match ty with | 1 => 52 | 2 => 28 | 5 => 28 | 6 => 36 | 7 => 36 | 8 => 36 | _ => 16

/-- A packet that completes with BADPKT (R369, R370); `lvl` is its level. -/
def pktBad (bs : List Byte) (lvl : Nat) : Bool :=
  let ty := pktTy bs
  let w := natAt bs 0 4
  let op := natAt bs 32 4
  ty == 0 || decide (9 < ty) || decide (2 ^ 9 ≤ w) || natAt bs 4 4 != 0 || (bs.drop (pktUsed ty)).any (· != 0) ||
    (match ty with
     | 1 => natAt bs 16 8 % 256 != 0 || natAt bs 32 8 % 4 != 0
     | 2 => natAt bs 16 8 % 64 != 0 || natAt bs 24 4 == 0 || decide (65536 < natAt bs 24 4)
     | 3 => lvl == 0
     | 5 => natAt bs 16 8 % 4 != 0 || decide (1023 < natAt bs 24 4)
     | 6 => decide (2 < op) || natAt bs 16 8 % (if op = 1 then 8 else 4) != 0
     | 7 => natAt bs 16 8 % 4 != 0 || decide (3 < natAt bs 28 4)
     | 8 => natAt bs 16 8 % 256 != 0 || decide (15 < natAt bs 32 4)
     | _ => false)

/-! ### The look-ahead (R366, R372, R373) -/

/-- The engine reads KWR: an index above WRITE is accepted (R366). -/
def State.acceptKwr (s : State) (q : Nat) : State :=
  let sl := s.slot q
  let k := (Map.get 0 s.kwr (sl.func * 64 + sl.qnum)).toNat
  if k ≤ sl.write then s
  else if sl.commit + sl.rsize < k then s.qError q 1
  else (s.updSlot q (fun x => { x with write := k })).qcbPut q 0x20 8 k

/-- Levels whose packets have all been read end. -/
def dropDone : List CallLev → List CallLev
  | [] => []
  | l :: ls => if l.left = 0 then dropDone ls else l :: ls

/-- The level on which the look-ahead reads moves on by one packet. -/
def stepAhead : List CallLev → List CallLev
  | [] => []
  | l :: ls => { l with addr := l.addr + 64, left := l.left - 1 } :: ls

/-- A packet has been read: what it says of the next ones (R370, R373). -/
def Slot.takeAhead (x : Slot) (p : LaPkt) : Slot :=
  let x := { x with la := x.la ++ [p] }
  match p.bytes with
  | none => x
  | some bs =>
    if pktBad bs p.lvl then x
    else match pktTy bs with
      | 2 => { x with laStack := { addr := natAt bs 16 8, left := natAt bs 24 4 } :: x.laStack }
      | 3 => { x with laStack := x.laStack.tail }
      | 4 => { x with laJoin := true }
      | _ => x

/-- A packet that the look-ahead may carry out is of this type. -/
def LaPkt.isTy (p : LaPkt) (ty : Nat) : Bool := match p.bytes with | some bs => !pktBad bs p.lvl && pktTy bs == ty | none => false

/-- The look-ahead has the packet: it moves on; a ninth level of CALL puts the queue in ERROR (R372). -/
def State.pushAhead (s : State) (q : Nat) (p : LaPkt) : State :=
  if p.isTy 2 && p.lvl == 8 then s.qError q 3
  else
    s.updSlot q (fun x => Slot.takeAhead { x with
      laPkt := none, laStack := stepAhead x.laStack, read := if x.laStack = [] then (x.read + 1) % 2 ^ 64 else x.read } p)

/-- A packet is read; the descriptor of a LAUNCH is read after it. -/
def State.havePacket (s : State) (q : Nat) (p : LaPkt) : State :=
  if p.isTy 1 then s.updSlot q (fun x => { x with laPkt := some p }) else s.pushAhead q p

/-- Reads the descriptor of a LAUNCH; one that cannot be read makes the packet complete with MEMERR (R372). -/
def State.readDesc (s : State) (q : Nat) (memErr : Bool) (p : LaPkt) : State :=
  match s.qXlat q true (natAt (p.bytes.getD []) 16 8) 0 with
  | .wait s => s
  | .bad s => s.pushAhead q p
  | .have _ l s => s.pushAhead q { p with desc := if memErr then none else some (s.readLoc l 256) }

/-- Where packet `i` of a ring lies. -/
def Slot.ringAt (x : Slot) (i : Nat) : Nat := x.ring + 64 * (i % x.rsize)

/-- Reads one packet: first the CALL in progress when the queue was bound within one, then the next of the ring or of a buffer. -/
def State.readAhead (s : State) (q : Nat) (memErr : Bool) : State :=
  let s := s.updSlot q (fun x => { x with laStack := dropDone x.laStack })
  let sl := s.slot q
  if sl.stack != [] && sl.head.isNone then
    match s.qXlat q true (sl.ringAt sl.commit) 0 with
    | .wait s => s
    | .bad s => s.qError q 2
    | .have _ l s =>
      if memErr then s.qError q 2
      else
        let bs := s.readLoc l 64
        s.updSlot q (fun x => { x with head := some { seq := pktSeq bs, status := stOK, irq := pktIrq bs }, read := (x.commit + 1) % 2 ^ 64 })
  else if sl.laJoin || decide (1024 ≤ sl.la.length) then s
  else match sl.laPkt, sl.laStack with
    | some p, _ => s.readDesc q memErr p
    | none, [] =>
      if sl.write ≤ sl.read then s
      else match s.qXlat q true (sl.ringAt sl.read) 0 with
        | .wait s => s
        | .bad s => s.qError q 2
        | .have _ l s => if memErr then s.qError q 2 else s.havePacket q { bytes := some (s.readLoc l 64), lvl := 0 }
    | none, l :: _ =>
      let lvl := sl.laStack.length
      match s.qXlat q true l.addr 0 with
      | .wait s => s
      | .bad s => s.pushAhead q { bytes := none, lvl := lvl }
      | .have _ a s => s.havePacket q { bytes := if memErr then none else some (s.readLoc a 64), lvl := lvl }

/-- The engine works for a bound queue that is not in ERROR and not told to stop; one that has to drain goes on to its LAUNCH in flight. -/
def Slot.works (x : Slot) : Bool := x.bound && x.err == 0 && (x.unbinding.isNone || (x.unbinding == some false && x.resuming))

/-- QUEUE_LOOKAHEAD (R366, R372). A record that is held is tried again first (R371). -/
def execQueueLookahead (slot : Nat) (memErr : Bool) (s : State) : Out :=
  .next (
    if (s.slot slot).record.isSome then s.tryRecord slot memErr
    else if !(s.slot slot).works then s
    else
      let s := s.acceptKwr slot
      if (s.slot slot).works then s.readAhead slot memErr else s)

/-! ### Issue (R371, R372, R374) -/

/-- The packet that the issue stage has, or takes next; none while it is busy with another or holds a record. -/
def Slot.current (x : Slot) : Option LaPkt :=
  if !x.works || x.record.isSome || x.phase != .idle || (x.stack != [] && x.head.isNone) then none
  else match x.pkt with
    | some p => some p
    | none => x.la.head?

/-- The packet comes to the issue stage. -/
def Slot.take (x : Slot) (p : LaPkt) : Slot :=
  if x.pkt.isSome then x else { x with pkt := some p, la := x.la.tail, ran := if x.resume = .fresh then 0 else x.ran }

/-- The look-ahead starts again behind the cursor. -/
def Slot.resync (x : Slot) : Slot :=
  { x with la := [], laPkt := none, laStack := aheadOf x.stack, laJoin := false, read := if x.stack = [] then x.commit else (x.commit + 1) % 2 ^ 64 }

/-- A packet is skipped (R374): what was read of a skipped CALL's buffer is dropped, and a skipped RETURN ends nothing. -/
def State.skipPacket (s : State) (q : Nat) (p : LaPkt) : State :=
  let ty := pktTy (p.bytes.getD [])
  let s := s.updSlot q (fun x => { (x.flushTo x.stack.length) with skip := x.skip - 1, laJoin := if ty = 4 then false else x.laJoin })
  let s := s.complete q stSKIPPED false
  if ty = 3 then s.updSlot q (fun x => if x.pkt.isNone then x.resync else x) else s

/-- The packet at the issue stage, when it is of this type, or of none: skipped, unreadable and bad packets complete here. -/
def State.issuePacket (s : State) (q ty : Nat) (run : State → LaPkt → List Byte → State) : State :=
  match (s.slot q).current with
  | none => s
  | some p =>
    let bs := p.bytes.getD []
    let known := p.bytes.isSome && decide (1 ≤ pktTy bs ∧ pktTy bs ≤ 9)
    if known && pktTy bs != ty then s
    else
      let s := s.updSlot q (fun x => x.take p)
      let s := if pktTy bs = 1 ∧ p.bytes.isSome then s else s.updSlot q (fun x => { x with resume := .fresh })
      if 0 < (s.slot q).skip then s.skipPacket q p
      else if p.bytes.isNone then s.complete q stMEMERR false
      else if pktBad bs p.lvl then s.complete q stBADPKT false
      else run s p bs

/-- CALL_PACKET (R370, R372): the called buffer is entered. -/
def execCallPacket (slot : Nat) (s : State) : Out :=
  .next (s.issuePacket slot 2 (fun s p bs =>
    if (s.slot slot).stack.length = 8 then s.qError slot 3
    else
      let s := s.updSlot slot (fun x => { x with
        pkt := none
        stack := { addr := natAt bs 16 8, left := natAt bs 24 4, irq := x.stack != [] && pktIrq bs } :: x.stack
        head := if x.stack = [] then some (p.crec stOK) else x.head })
      s.putStack slot))

/-- RETURN_PACKET (R370). -/
def execReturnPacket (slot : Nat) (s : State) : Out := .next (s.issuePacket slot 3 (fun s _ _ => s.complete slot stOK true))

/-- JOIN_PACKET (R373). -/
def execJoinPacket (slot : Nat) (s : State) : Out :=
  .next (s.issuePacket slot 4 (fun s _ _ => (s.updSlot slot (fun x => { x with laJoin := false })).complete slot stOK false))

/-- NOP_PACKET (R374). -/
def execNopPacket (slot : Nat) (s : State) : Out := .next (s.issuePacket slot 9 (fun s _ _ => s.complete slot stOK false))

/-- COND_PACKET (R374). -/
def execCondPacket (slot : Nat) (memErr : Bool) (s : State) : Out :=
  .next (s.issuePacket slot 5 (fun s _ bs => match s.qXlat slot false (natAt bs 16 8) 0 with
    | .wait s => s
    | .bad s => s.complete slot stMEMERR false
    | .have _ l s =>
      if memErr then s.complete slot stMEMERR false
      else
        let s := if leNat (s.readLoc l 4) = 0 then s.updSlot slot (fun x => { x with skip := natAt bs 24 4 }) else s
        s.complete slot stOK false))

/-- The write of a SIGNAL (R370). -/
def State.signalWrite (s : State) (x : Xlat) (l : Loc) (bs : List Byte) : State :=
  let v := natAt bs 24 8
  let s := s.countWrite x
  match natAt bs 32 4 with
  | 0 => s.writeLoc l (leBytes 4 v)
  | 1 => s.writeLoc l (leBytes 8 v)
  | _ => s.writeLoc l (leBytes 4 (leNat (s.readLoc l 4) + v))

/-- The record of a level-0 packet could be written now (R371); a record that can only fail counts. -/
def State.recordReady (s : State) (q : Nat) : State × Bool :=
  let sl := s.slot q
  let (s, ok) := s.ready0 (sl.qcb.toNat + 0x48) 8
  if sl.stack != [] then (s, true)
  else if !ok || (sl.crwr + 2 ^ 64 - s.qcbNat q 0x48 8) % 2 ^ 64 == sl.crsize then (s, false)
  else match s.qXlat q false (sl.cring + 16 * (sl.crwr % sl.crsize)) 1 with
    | .wait s => (s, false)
    | .bad s => (s.updSlot q (fun x => { x with xs := .failed (sl.cring + 16 * (sl.crwr % sl.crsize)) }), true)
    | .have _ _ s => (s, true)

/-- SIGNAL_PACKET (R374, R380): performed with its record, or not at all. -/
def execSignalPacket (slot : Nat) (memErr : Bool) (s : State) : Out :=
  .next (s.issuePacket slot 6 (fun s _ bs => match s.qXlat slot false (natAt bs 16 8) (if natAt bs 32 4 = 2 then 2 else 1) with
    | .wait s => s
    | .bad s => s.complete slot stMEMERR false
    | .have x l s =>
      if memErr then s.complete slot stMEMERR false
      else if s.migrating x then s
      else match s.recordReady slot with
        | (s, false) => s
        | (s, true) => (s.signalWrite x l bs).complete slot stOK false))

/-- WAIT_PACKET (R374): the queue waits from now on. -/
def execWaitPacket (slot : Nat) (s : State) : Out :=
  .next (s.issuePacket slot 7 (fun s _ bs =>
    let t := natAt bs 32 4
    s.updSlot slot (fun x => { x with phase := .wait (if t = 0 then none else some (s.ptime + t * 1000)) })))

/-- The condition of a WAIT (R370). -/
def waitHolds (bs : List Byte) (mem : Nat) : Bool :=
  let v := natAt bs 24 4
  match natAt bs 28 4 with
  | 1 => mem == v
  | 2 => mem != v
  | _ => decide (v ≤ mem)

/-- A waiting slot that still works, with its packet. -/
def Slot.waiting (x : Slot) : Option (List Byte) :=
  match x.works, x.phase, x.pkt with
  | true, .wait _, some p => p.bytes
  | _, _, _ => none

/-- WAIT_SATISFIED (R374). -/
def execWaitSatisfied (slot : Nat) (memErr : Bool) (s : State) : Out :=
  match (s.slot slot).waiting with
  | none => .next s
  | some bs =>
    let take := natAt bs 28 4 = 3
    .next (match s.qXlat slot false (natAt bs 16 8) (if take then 2 else 0) with
      | .wait s => s
      | .bad s => s.complete slot stMEMERR false
      | .have x l s =>
        if memErr then s.complete slot stMEMERR false
        else
          let m := leNat (s.readLoc l 4)
          if !waitHolds bs m then s
          else if !take then s.complete slot stOK false
          else if s.migrating x then s
          else ((s.countWrite x).writeLoc l (leBytes 4 (m - natAt bs 24 4))).complete slot stOK false)

/-- WAIT_TIMEOUT (R374). -/
def execWaitTimeout (slot : Nat) (s : State) : Out :=
  .next (match (s.slot slot).waiting, (s.slot slot).phase with
    | some _, .wait (some till) => if till ≤ s.ptime then s.complete slot stTIMEOUT false else s
    | _, _ => s)

end Sys2Proof.Machine
end

