-- ==== Sys2Proof/Machine/Launch.lean ====
section
/-! DEFINITION. Launches: the descriptor, the selection of a variant, the start and the restore of an instance, its end, the choice of a
core, the watchdog (R23, R26 to R30, R44, R322, R336, R361, R370, R375 to R378, R380, R421). -/

namespace Sys2Proof.Machine
open Sys2Proof

/-! ### The descriptor (R322, R371) -/

/-- Offset of a variant's record. -/
def varAt (v : Nat) : Nat := 96 + 16 * v

/-- DETAIL of a refused descriptor: 1, or 4 for SCRATCH over 786,432 (R322, R371). -/
def descRefused (d : List Byte) : Option Nat :=
  let n := natAt d
  let fl := n 8 4
  let l := n 12 4
  let nv := n 6 1
  let ranged (v : Nat) : Bool :=
    let t := n (varAt v + 8) 2
    let w := n (varAt v + 10) 1
    !List.contains [8, 16, 32, 64] w || t == 0 || decide (2048 < t) || t % w != 0 || decide (3 < n (varAt v + 11) 1) || n (varAt v + 12) 4 % 256 != 0
  let disp (i : Nat) : Bool := (!fl.testBit 0 && decide (65535 < n (40 + 16 * i) 4)) || n (44 + 16 * i) 4 != 0
  if n 0 4 ≠ 0x4C415A4B ∨ n 4 2 ≠ 1 ∨ nv = 0 ∨ 8 < nv ∨ n 7 1 ≠ 0 ∨ 64 ≤ fl ∨ n 20 4 ≠ 0 ∨ n 80 16 ≠ 0 ∨ n 224 32 ≠ 0 ∨
      (fl.testBit 0 = true ∧ (l = 0 ∨ 65535 < l)) ∨ (fl.testBit 0 = false ∧ l ≠ 0) ∨ (List.range 3).any disp = true ∨
      (List.range nv).any ranged = true then some 1
  else if (List.range nv).any (fun v => decide (786432 < n (varAt v + 12) 4)) then some 4
  else none

/-- The number of logical cores, or none for a bad NLC (R370). -/
def logicalCores (d : List Byte) (nlc : Nat) : Option Nat :=
  if (natAt d 8 4).testBit 0 then (if nlc = 0 ∨ nlc = natAt d 12 4 then some (natAt d 12 4) else none)
  else if 1 ≤ nlc ∧ nlc ≤ 65535 then some nlc else none

/-- The better of two variants for an extent (R28). -/
def betterVar (d : List Byte) (ext best v : Nat) : Nat :=
  let cb := natAt d (varAt best + 4) 4
  let cv := natAt d (varAt v + 4) 4
  if ext ≤ cv then (if cb < ext ∨ cv < cb then v else best) else (if cb < ext ∧ cb < cv then v else best)

/-- The variant for an extent, and whether no capacity reaches it (R28, R29). -/
def selectVar (d : List Byte) (ext : Nat) : Nat × Bool :=
  let v := (List.range (natAt d 6 1)).foldl (betterVar d ext) 0
  (v, decide (natAt d (varAt v + 4) 4 < ext))

/-- The occupied phrases of one slot of a launch of `t` threads: 64 threads each, slot after slot (R12, R29). -/
def phrasesInSlot (t slot : Nat) : Nat := ((List.range ((t + 63) / 64)).filter (fun p => p % 4 == slot)).length

/-- The minimum level of a variant exceeds a slot's pool (R29). -/
def granulesShort (d : List Byte) (v : Nat) : Bool :=
  (List.range 4).any (fun sl => decide (16 < natAt d (varAt v + 11) 1 * phrasesInSlot (natAt d (varAt v + 8) 2) sl))

/-! ### LAUNCH (R375, R377, R380) -/

/-- SELECT (R367). -/
def selectWord (v : Nat) (nofit : Bool) : Nat := v + if nofit then 2 ^ 31 else 0

/-- The cores of a partition that are free now, in the order of its logical cores (R421). -/
def State.freeBacked (s : State) (p : Nat) : List Nat := (s.backed p).filter s.isFree

/-- The launch begins: its record, INSTSTATE and SELECT (R367, R375, R421). -/
def State.openLaunch (s : State) (q : Nat) (l : Launch) : State :=
  let sl := s.slot q
  let s := if sl.save = 0 then s
    else ((List.range l.ncore).foldl (fun s k => s.putInst sl.save k 0) s).put0 (sl.save.toNat + 0x255004) 4 (selectWord l.var l.nofit)
  s.updSlot q (fun x => { x with phase := .launch, launch := some { l with ran := sl.ran }, resume := .fresh, ran := 0 })

/-- A launch with a selected variant, or its refusal. -/
def State.selected (s : State) (q : Nat) (bs d : List Byte) (nc ext : Nat) : State :=
  let (v, nofit) := selectVar d ext
  let l : Launch := { desc := d, addr := w64At bs 16, param := w64At bs 24, var := v, nofit := nofit, ncore := nc
                      cores := List.replicate nc .waiting, wdog := natAt bs 48 4
                      place := if (natAt d 8 4).testBit 0 then s.freeBacked (s.slot q).part else [] }
  if granulesShort d v then s.complete q (mkStatus stREFUSED 2 + l.select) false else s.openLaunch q l

/-- A new LAUNCH: the checks, the extent, the selection (R28, R375). -/
def State.newLaunch (s : State) (q : Nat) (memErr : Bool) (bs d : List Byte) : State :=
  match descRefused d with
  | some x => s.complete q (mkStatus stREFUSED x) false
  | none => match logicalCores d (natAt bs 44 4) with
    | none => s.complete q (mkStatus stREFUSED 3) false
    | some nc =>
      if natAt bs 32 8 = 0 then s.selected q bs d nc (natAt bs 40 4)
      else match s.qXlat q false (natAt bs 32 8) 0 with
        | .wait s => s
        | .bad s => s.complete q stMEMERR false
        | .have _ l s =>
          if memErr then s.complete q stMEMERR false else s.selected q bs d nc (leNat (s.readLoc l 4))

/-- The launch at a cursor that was pre-empted, or interrupted by a reset, goes on with the variant of SELECT and the states of INSTSTATE
(R377, R380). What the engine itself held of a pre-empted launch is as it was. -/
def State.reopen (s : State) (q : Nat) (bs d : List Byte) : State :=
  let sl := s.slot q
  let sel := if sl.save = 0 then 0 else s.nat0 (sl.save.toNat + 0x255004) 4
  let nc := (logicalCores d (natAt bs 44 4)).getD 0
  let old : Launch := (Map.get ({} : Kept) s.kept sl.qcb.toNat).launch.getD {}
  let state (k : Nat) : LcSt := match LcSt.ofWord (s.instState sl.save k), old.cores[k]? with
    | .parked _, some (.parked rs) => .parked rs
    | x, _ => x
  let l : Launch := { old with
    desc := d, addr := w64At bs 16, param := w64At bs 24, var := sel % 8, nofit := sel.testBit 31, ncore := nc
    cores := (List.range nc).map state, wdog := natAt bs 48 4, ran := old.ran + sl.ran
    place := if (natAt d 8 4).testBit 0 then s.freeBacked sl.part else [] }
  let s := { s with kept := Map.erase s.kept sl.qcb.toNat }
  (s.updSlot q (fun x => { x with phase := .launch, launch := some l, resume := .fresh, ran := 0 })).launchOver q

/-- A LAUNCH that a reset interrupted (R380). -/
def State.afterReset (s : State) (q : Nat) (bs d : List Byte) : State :=
  let sl := s.slot q
  let sel := if sl.save = 0 then 0 else s.nat0 (sl.save.toNat + 0x255004) 4
  let rep := (if sel.testBit 31 then 2048 else 0) + sel % 8 * 256
  let ends (st : Nat) : State := (s.updSlot q (fun x => { x with resume := .fresh })).complete q st false
  if !(natAt d 8 4).testBit 5 then ends (mkStatus stABORTED 0 + rep)
  else if sl.save = 0 then ends (mkStatus stNOSAVE 0)
  else s.reopen q bs d

/-- The LAUNCH at the issue stage: a new one, or one that goes on once its words can be read. -/
def State.runLaunch (s : State) (q : Nat) (memErr : Bool) (bs d : List Byte) : State :=
  match (s.slot q).resume with
  | .fresh => s.newLaunch q memErr bs d
  | r =>
    let (s, ok) := s.instReady q ((logicalCores d (natAt bs 44 4)).getD 0)
    if !ok then s
    else if r = .saved then s.reopen q bs d else s.afterReset q bs d

/-- An interrupted launch none of whose instances runs: its end waits for words of its save areas (R380, R385). -/
def Slot.aborting (x : Slot) : Bool := match x.launch with | some l => l.abort && !l.running | none => false

/-- LAUNCH_PACKET (R372, R375, R377, R380). -/
def execLaunchPacket (slot : Nat) (memErr : Bool) (s : State) : Out :=
  .next (
    if (s.slot slot).aborting then s.launchOver slot
    else s.issuePacket slot 1 (fun s p bs => match p.desc with
      | none => s.complete slot stMEMERR false
      | some d => s.runLaunch slot memErr bs d))

/-! ### The start of an instance (R23, R26, R27, R44, R361) -/

/-- A LAUNCH of the queue has issued, and the engine has still to read its extent or to come to it again (R375, R377). -/
def Slot.opening (x : Slot) : Bool := x.launch.isNone && (x.resume != .fresh || x.pkt.any (fun p => p.isTy 1))
/-- The LAUNCH of a bound queue has run longer, from its issue on (R376). -/
def Slot.ranFor (x : Slot) (n : Nat) : Slot :=
  if !x.bound then x
  else { x with launch := x.launch.map (fun l => { l with ran := l.ran + n }), ran := if x.opening then x.ran + n else x.ran }

/-- %ptime goes on by `n` nanoseconds; the watchdogs of bound launches count with it (R376). -/
def State.advance (s : State) (n : Nat) : State := { s with ptime := s.ptime + n, slots := s.slots.mapVal (fun _ x => Slot.ranFor x n) }

/-- What a core holds of its threads and engines when an instance starts; memories, caches and clocks stay. -/
def Core.cleared (k : Core) : Core :=
  let posts := k.freed
  { posts with regions := [], inst := none, ipis := [] }

/-- The instance of logical core `k` of a launch. -/
def instOf (sl : Slot) (q : Nat) (l : Launch) (k now : Nat) : Inst :=
  let n := natAt l.desc
  let v := varAt l.var
  let fl := n 8 4
  let disp (i : Nat) : Disp := { x := w32At l.desc (32 + 16 * i), y := w32At l.desc (36 + 16 * i)
                                 chunk := BitVec.ofNat 32 (max 1 (n (40 + 16 * i) 4)) }
  { lcore := BitVec.ofNat 32 k, ncore := BitVec.ofNat 32 l.ncore, launch := l.addr, param := l.param
    var := BitVec.ofNat 32 (selectWord l.var l.nofit), codebase := w64At l.desc 24, w := n (v + 10) 1, t := n (v + 8) 2
    det := fl.testBit 0, tagchk := fl.testBit 1, unichk := fl.testBit 2, norec := fl.testBit 3, barto := fl.testBit 4, replay := fl.testBit 5
    disp := [(0, disp 0), (1, disp 1), (2, disp 2)], pasid := sl.pasid, part := sl.part, slot := q, qcb := sl.qcb, save := sl.save
    shadow := sl.shadow, start := now }

/-- The default group of a thread: its segment (R23). -/
def defaultGroup (w t : Nat) : Nat := t / w

/-- The threads of a fresh instance with their groups and granules (R12, R23, R27). -/
def Core.startThreads (k : Core) (t w xmin : Nat) (pc save : W64) : Core :=
  let k := { k with phrases := (List.range ((t + 63) / 64)).map (fun p => (p, ({ xlev := BitVec.ofNat 2 xmin } : Phrase))) }
  let k := { k with threads := (List.range t).map (fun i => (i, ({ st := .live, pc := pc, save := save } : Thread))) }
  (List.range t).foldl (fun k i => k.addMember (defaultGroup w i) i) k

/-- A core starts a logical core from its beginning (R26, R27, R336, R375). -/
def State.startFresh (s : State) (c q k : Nat) (l : Launch) : State :=
  let sl := s.slot q
  let i := instOf sl q l k s.ptime
  let v := varAt l.var
  s.updCore c (fun (x : Core) => Core.startThreads
    { x.cleared with inst := some i, sphase := x.sphase, sphaseSet := x.sphaseSet, tvec := w32At l.desc 16 &&& 0xFFFFFFF8 } i.t i.w (natAt l.desc (v + 11) 1)
    (i.codebase + BitVec.ofNat 64 (natAt l.desc v 4)) (saveArea sl.save k))

/-- A core starts the restore of a logical core (R361): NCTX threads at SL, in no group. Its run time goes on (R339). -/
def State.startRestore (s : State) (c q k : Nat) (l : Launch) : State :=
  let sl := s.slot q
  let base := saveArea sl.save k
  let n := min 2048 (s.nat0 (base.toNat + 0x0C) 4)
  let y := Map.get ({} : Carry) l.carry k
  let i : Inst := { instOf sl q l k (s.ptime - y.ran) with restored := true, carry := y }
  s.updCore c (fun (x : Core) =>
    let th : Thread := { st := .live, level := .sl, pc := x.fwRestore, save := base }
    { x.cleared with
      inst := some i, tvec := w32At l.desc 16 &&& 0xFFFFFFF8
      phrases := (List.range ((n + 63) / 64)).map (fun p => (p, ({ xlev := BitVec.ofNat 2 (natAt l.desc (varAt l.var + 11) 1) } : Phrase)))
      threads := (List.range n).map (fun t => (t, th)) })

/-! ### The choice of a core (R355, R376 to R378, R421) -/

/-- The fault records of a parked logical core are answered (R355). -/
def State.answered (s : State) (rs : List (Nat × Nat)) : Bool := rs.all (fun r => !(s.die r.1).faults.any (fun x => x.token == r.2))

/-- A logical core that waits for a core: to start, unless the launch is bound to end, to restore, or to re-enter (R376, R378). -/
def State.wantsCore (s : State) (l : Launch) (st : LcSt) : Bool :=
  match st with
  | .waiting => !l.closed && !l.abort
  | .saved => !l.abort && !l.expired
  | .parked rs => !l.abort && !l.expired && s.answered rs
  | _ => false

/-- The next logical core that core `c` may take: the lowest that waits; under DET the one whose turn it is on `c` (R375, R421). -/
def State.nextLc (s : State) (l : Launch) (c : Nat) : Option Nat :=
  if !l.isDet then (List.range l.ncore).find? (fun k => s.wantsCore l (l.cores.getD k .ended))
  else
    let p := l.place.length
    match (List.range l.ncore).find? (fun k => l.place[k % p]? == some c && !(l.cores.getD k .ended).isOver) with
    | some k => if s.wantsCore l (l.cores.getD k .ended) then some k else none
    | none => none

/-- A DET launch that found no core takes those that are free now (R421). -/
def State.placeDet (s : State) (q : Nat) : State :=
  match (s.slot q).launch with
  | some l => if l.isDet && l.place == [] then
      s.updSlot q (fun x => { x with launch := some { l with place := s.freeBacked x.part } }) else s
  | none => s

/-- The launch of a slot that may be given a core. -/
def Slot.hungry (x : Slot) : Option Launch := if x.preempting then none else x.launch

/-- The slots of a partition that have a logical core for core `c`. -/
def State.candidates (s : State) (p c : Nat) : List Nat :=
  match s.partOf p with
  | none => []
  | some x => (setBits x.slots).filter (fun q => match (s.slot q).hungry with | some l => (s.nextLc l c).isSome | none => false)

/-- The slot chosen: the highest priority, round-robin after the slot served last at that priority (R378). -/
def State.chooseSlot (s : State) (p : Nat) (qs : List Nat) : Option Nat :=
  let top := qs.foldl (fun m q => max m (s.slot q).prio.toNat) 0
  let best := qs.filter (fun q => (s.slot q).prio.toNat == top)
  match Map.find s.lastServed (p * 8 + top) with
  | some last => (best.find? (fun q => decide (last < q))).or best.head?
  | none => best.head?

/-- A logical core goes to a core. -/
def State.placeLc (s : State) (c q : Nat) : State :=
  match (s.slot q).launch with
  | none => s
  | some l => match s.nextLc l c with
    | none => s
    | some k =>
      let sl := s.slot q
      let s := { s with lastServed := Map.put s.lastServed (sl.part * 8 + sl.prio.toNat) q }
      let run (s : State) : State :=
        s.updSlot q (fun x => { x with launch := x.launch.map (fun l => { l with cores := l.cores.set k (.running c) }) })
      match l.cores.getD k .ended with
      | .waiting => run (s.startFresh c q k l)
      | _ =>
        let (s, ok) := s.ready0 ((saveArea sl.save k).toNat + 0x0C) 4
        if ok then run ((s.clearReport q).startRestore c q k l) else s

/-- CORE_ALLOCATION (R378): a free core of a partition whose instances may run is given to a slot. -/
def execCoreAllocation (core : Nat) (s : State) : Out :=
  .next (
    if isCtl core || !s.isFree core then s
    else match s.parts.find? (fun e => (s.backed e.1).contains core && s.mayRun e.1) with
      | none => s
      | some (p, x) =>
        let s := (setBits x.slots).foldl State.placeDet s
        match s.chooseSlot p (s.candidates p core) with
        | some q => s.placeLc core q
        | none => s)

/-! ### The end of an instance (R26, R376) -/

/-- The dirty lines of live regions. -/
def Core.dirtyLines (k : Core) : List (Nat × Nat) :=
  k.lines.filterMap (fun e => match k.regionAt (e.1 * 256) with | some r => if 2 ≤ e.2.st then some (r, e.1) else none | none => none)

/-- The instance's commands have retired, and it is in no share set. -/
def Core.quiet (k : Core) : Bool := k.cmds == [] && k.sset.isNone

/-- Nothing of the instance is left to be written or retired. -/
def Core.drained (k : Core) : Bool :=
  k.quiet && k.mops.all (fun m => match m.kind with | .wback _ => false | .fwd _ _ _ => false | _ => true)

/-- The instance's last thread has exited: it leaves its share set and retires its copies; then it writes back its regions, once nothing
dirties them any more; then it unmaps them and releases (R376). -/
def State.endInst (s : State) (c : Nat) (i : Inst) : State :=
  if !i.ending then
    let s := s.updCore c (fun k => { k with inst := some { i with ending := true } })
    if (s.core c).sset.isSome then s.startLeave c else s
  else if !i.flushed then
    if (s.core c).quiet then
      s.updCore c (fun k =>
        let k := { k with inst := some { i with flushed := true } }
        k.dirtyLines.foldl (fun k e => k.startWback e.1 e.2) k)
    else s
  else if (s.core c).drained then
    if (s.core c).dirtyLines != [] then s.updCore c (fun k => k.dirtyLines.foldl (fun k e => k.startWback e.1 e.2) k)
    else (s.updCore c (fun k => { k.relMark with regions := k.regions.mapVal (fun _ r => r.setLive false), lines := [], mops := [] })).leaveCore c .ended
  else s

/-- INSTANCE_END (R376): one stage of the end. -/
def execInstanceEnd (core : Nat) (s : State) : Out :=
  let k := s.core core
  .next (match k.inst with
    | some i => if k.liveTids = [] && !k.saving && !i.restored then s.endInst core i else s
    | none => s)

/-! ### The watchdog (R337, R376) -/

/-- Every thread of an instance traps WATCHDOG, those at SL later (R337). -/
def State.expireCore (s : State) (c : Nat) : State :=
  let v : W64 := BitVec.ofNat 64 ((s.ptime - (s.core c).i.start) / 1000)
  (s.core c).liveTids.foldl (fun s t =>
    if ((s.core c).thread t).level = .kl then s.takeWdog c t v else s.updThread c t (fun th => { th with wdog := some v })) s

/-- The cores that run a launch, in the order of its logical cores. -/
def Launch.onCores (l : Launch) : List Nat := l.cores.filterMap (fun x => match x with | .running c => some c | _ => none)

/-- LAUNCH_WATCHDOG (R376): the cores report in the order of the logical cores (R338). -/
def execLaunchWatchdog (slot : Nat) (s : State) : Out :=
  .next (match (s.slot slot).launch with
    | none => s
    | some l =>
      if l.wdog = 0 ∨ l.expired ∨ (s.slot slot).bound = false ∨ l.ran < l.wdog * 1000 then s
      else
        let s := s.updSlot slot (fun x => { x with launch := some { l with expired := true, closed := true } })
        (l.onCores.foldl State.expireCore s).launchOver slot)

end Sys2Proof.Machine
end

