-- ==== Sys2Proof/Machine/Gang.lean ====
section
/-! DEFINITION. Gang switches and parking (R302, R353 to R355, R377, R419). -/

namespace Sys2Proof.Machine
open Sys2Proof

/-- The cores on which the running tenant of a gang has instances. -/
def State.tenantCores (s : State) (p : Nat) : List Nat :=
  (s.backed p).filter (fun c => match (s.core c).inst with | some i => i.part == (s.gang p).tenant | none => false)

/-- The slots whose launches run on some cores. -/
def State.slotsOf (s : State) (cs : List Nat) : List Nat := (cs.map (fun c => (s.core c).i.slot)).eraseDups
/-- How many of some cores belong to a slot. -/
def State.coresOfSlot (s : State) (cs : List Nat) (q : Nat) : Nat := (cs.filter (s.runsSlot q)).length

/-- The control core posts to the decision semaphore of a QCB (R362, R377). -/
def State.postDecide (s : State) (q n : Nat) : State := s.qcbPut q 0x64 4 (s.qcbNat q 0x64 4 + n)

/-- Pre-empts cores with a value of PREEMPT, REPORT cleared first. -/
def State.preemptCores (s : State) (cs : List Nat) (val : Nat) : State :=
  cs.foldl (fun s c => s.sendPreempt c (BitVec.ofNat 64 val)) ((s.slotsOf cs).foldl State.clearReport s)

/-- The tick of a partition, in nanoseconds. -/
def Part.tickNs (x : Part) : Nat := x.tick * 1000

/-- A tick: the round counts down, or the switch begins (R353). -/
def State.startTick (s : State) (p : Nat) (x : Part) : State :=
  let g := { s.gang p with since := s.ptime, prestop := false }
  let s := s.raiseEvt x.cc evGANG
  if (s.tenants p).length ≤ 1 then s.setGang p g
  else if 1 < g.left then s.setGang p { g with left := g.left - 1 }
  else
    let s := s.setGang p { g with switching := true, commits := none }
    let cs := s.tenantCores p
    if cs = [] then s.gangOver p else s.preemptCores cs (x.cc + 256)

/-- Every core that the switch waits for has reported. -/
def State.allReported (s : State) (p : Nat) : Bool := (s.tenantCores p).all (fun c => (s.core c).i.reported)

/-- The commits of one QCB after another: 1 is posted when DECIDE reads 0 (R377). -/
def State.postCommits (s : State) (p : Nat) (g : Gang) (l : List (Nat × Nat)) : State :=
  match l.find? (fun e => e.2 != 0 && s.qcbNat e.1 0x64 4 == 0) with
  | none => s
  | some e =>
    (s.postDecide e.1 1).setGang p { g with commits := some (l.map (fun y => if y.1 = e.1 then (y.1, y.2 - 1) else y)) }

/-- DECIDE of some slots' QCBs can be read (R377, R385). -/
def State.decideReady (s : State) (qs : List Nat) : State × Bool := s.readyAt none 0 (qs.map (fun q => (s.slot q).qcb.toNat + 0x64))

/-- A switch under way: once every die has reported, the control core commits. -/
def State.commitTick (s : State) (p : Nat) (g : Gang) : State :=
  match g.commits with
  | some l =>
    let (s, ok) := s.decideReady (l.map (·.1))
    if ok then s.postCommits p g l else s
  | none =>
    if s.allReported p then
      let cs := s.tenantCores p
      s.setGang p { g with commits := some ((s.slotsOf cs).map (fun q => (q, s.coresOfSlot cs q))) }
    else s

/-- GANG_TICK (R353). -/
def execGangTick (part : Nat) (s : State) : Out :=
  .next (match s.partOf part with
    | none => s
    | some x =>
      let g := s.gang part
      if !x.gang || g.tenant != part then s
      else if g.switching then s.commitTick part g
      else if g.since + x.tickNs ≤ s.ptime then s.startTick part x else s)

/-- SAVE_DEADLINE (R354): the switch is discarded, every core is told to resume, the old tenant runs one more tick. -/
def execSaveDeadline (part : Nat) (s : State) : Out :=
  .next (match s.partOf part with
    | none => s
    | some x =>
      let g := s.gang part
      if !x.gang || g.tenant != part || !g.switching || g.commits.isSome || decide (s.ptime < g.since + x.deadline * 1000) || s.allReported part then s
      else
        let cs := s.tenantCores part
        let (s, ok) := s.decideReady (s.slotsOf cs)
        if !ok then s
        else
        let s := (s.slotsOf cs).foldl (fun s q => s.postDecide q (2 * s.coresOfSlot cs q)) s
        let s := s.setGang part { g with switching := false, left := 1, misses := g.misses + 1 }
        let s := { s with parts := Map.put s.parts part { x with lateSave := x.lateSave + 1 } }
        s.devPut (s.partbase.toNat + 64 * part + 32) 4 (x.lateSave + 1).toNat)

/-- PRESTOP (R354). -/
def execPrestop (part : Nat) (s : State) : Out :=
  .next (match s.partOf part with
    | none => s
    | some x =>
      let g := s.gang part
      if !x.gang || g.tenant != part || g.switching || g.prestop || decide (g.misses < 3) || decide (s.ptime + 200000 < g.since + x.tickNs) then s
      else (s.tenantCores part).foldl (fun s c => s.sendPreempt c (BitVec.ofNat 64 (x.cc + 1024))) (s.setGang part { g with prestop := true }))

/-- The park threshold, in nanoseconds. -/
def parkNs : Nat := 100000

/-- The user is a copy-unit command or a line fill of a core (R355). -/
def Core.parks (k : Core) (c : Nat) (u : User) : Bool :=
  match u with
  | .cmd c' id => c' == c && (k.cmd? id).isSome
  | .mop c' id => c' == c && (k.mop? id).any (fun m => match m.kind with | .fill _ _ => true | _ => false)
  | _ => false

/-- A copy or a line fill of a core has been parked for longer than the threshold (R355). -/
def State.waitsLong (s : State) (c : Nat) : Bool :=
  (s.core c).parkedOn.any (fun r => (s.die r.1).faults.any (fun x => x.token == r.2 &&
    x.users.any (fun n => (s.core c).parks c n.user && decide (n.since + parkNs < s.ptime))))

/-- An instance that may be parked (R355). -/
def State.mayPark (s : State) (c : Nat) (i : Inst) : Bool :=
  s.waitsLong c && i.save != 0 && !i.parking && !i.restored && !(s.core c).saving && (s.core c).ipis == [] &&
    !(s.core c).cmds.any (fun m => m.op == 0xA4 && (s.core c).cmdParked m)

/-- A save that the control core commits alone: one that parks the instance, or one of an unbound queue (R307, R355, R377). -/
def State.commitsAlone (s : State) (i : Inst) : Bool := (i.parking || (!i.gang && (s.slot i.slot).preempting)) && i.reported && !i.restored

/-- PARK_THRESHOLD (R355, R377): the instance is pre-empted to be parked. Its save, or that of an unbound queue, is committed once it is
reported and DECIDE reads 0. -/
def execParkThreshold (core : Nat) (s : State) : Out :=
  .next (match (s.core core).inst with
    | none => s
    | some i =>
      if s.commitsAlone i then
        let (s, ok) := s.decideReady [i.slot]
        if ok && s.qcbNat i.slot 0x64 4 == 0 then
          (s.postDecide i.slot 1).updCore core (fun k => { k with inst := some { i with reported := false } })
        else s
      else if s.mayPark core i then
        match s.ccOf (some i.part) with
        | some cc => s.preemptCores [core] (cc + 512)
        | none => s
      else s)

end Sys2Proof.Machine
end

