-- ==== Sys2Proof/Machine/Boot.lean ====
section
/-! DEFINITION. Start-up: the flash images, the steps of a start, its failure and READY, the resets that begin one, and those of the link
and of a function (R399, R402, R409 to R412, R417, R423, R424, R429). -/

namespace Sys2Proof.Machine
open Sys2Proof

/-! ### Images (R409) -/

/-- Where an image lies in the flash, and the bytes there are for it. -/
def imageArea (recovery : Bool) : Nat × Nat := if recovery then (0x2000000, 0x1E00000) else (0, 0x2000000)

def Flash.read (fl : Flash) (a n : Nat) : List Byte := Map.getRange Config.blank fl.bytes a n

/-- Header and body of an image in the flash; SIZE beyond its place gives the header alone. -/
def Flash.imageOf (fl : Flash) (recovery : Bool) : List Byte :=
  let (base, room) := imageArea recovery
  let n := leNat (fl.read (base + 12) 4)
  fl.read base (if 512 + n ≤ room then 512 + n else 512)

/-- The fused key that an image's key is (R409): none when no unrevoked one matches. -/
def keyOf (bs : List Byte) : Option Nat :=
  let h := sha512 ((bs.drop 212).take 133)
  (List.range 4).find? (fun i => !Config.keyRevoked i && Config.keyHash i == h)

def imageSvn (bs : List Byte) : W32 := w32At bs 8
def imageLayout (bs : List Byte) : Nat := natAt bs 6 2

/-- An image is valid, its security version apart (R409). -/
def imageForm (bs : List Byte) : Bool :=
  natAt bs 0 4 == 0x4D465A4B && natAt bs 4 2 == 1 && bs.length == 512 + natAt bs 12 4 && (keyOf bs).isSome &&
    ecdsaOk ((bs.drop 212).take 133) ((bs.drop 80).take 66) ((bs.drop 146).take 66) (bs.take 80) &&
    sha512 (bs.drop 512) == (bs.drop 16).take 64 && ((bs.take 512).drop 345).all (· == 0)

/-- SVN is at least the fused minimum. -/
def Flash.svnOk (fl : Flash) (bs : List Byte) : Bool := decide (fl.svnMin.toNat ≤ (imageSvn bs).toNat)
def Flash.imageOk (fl : Flash) (bs : List Byte) : Bool := imageForm bs && fl.svnOk bs

/-- The image that ACTIVATE puts in place: the new one, if an update has written one (R423). -/
def Flash.newImage (fl : Flash) : List Byte := fl.pend.getD (fl.imageOf false)
/-- It stands in the primary image's place. -/
def Flash.install (fl : Flash) : Flash :=
  { fl with bytes := match fl.pend with | some bs => Map.setRange Config.blank fl.bytes 0 bs | none => fl.bytes, pend := none }

/-- The certificate chain, from the certificate partition (R409, R413). -/
def Flash.certs (fl : Flash) : List Byte :=
  let a := Config.certAt % 0x200000
  fl.read (0x3E00000 + a) (min Config.certLen (0x200000 - a))

/-! ### The steps of a start (R410, R412) -/

/-- A control core starts from its firmware image (R334, R410). -/
def State.startCtl (s : State) (i : Nat) : State :=
  s.updCore (208 + i) (fun k => { k with halted := false, threads := [(0, { st := .live, level := .cl, pc := Config.ctlEntry i })] })

/-- The next step. -/
def State.nextPhase (s : State) : State := { s with boot := { s.boot with phase := s.boot.phase + 1 } }

/-- A start fails: FAILS goes up, and a cold start follows, of the recovery image at 3 (R412). ERROR holds the failing step's code until
READY or another start (R411, log 73). -/
def State.startFailed (s : State) (err : BitVec 16) : State :=
  let n := min 3 (s.boot.fails.toNat + 1)
  let s := State.coldStart { s with boot := { s.boot with fails := BitVec.ofNat 4 n } } (n == 3)
  { s with boot := { s.boot with error := err } }

/-- An error code that a step reports: free, and not 0 (R411). -/
def State.someError (s : State) : BitVec 16 := let e := Config.errorCode s.fresh; if e = 0 then 1 else e

/-- Step 5: the image is verified and measured (R410); an invalid recovery image leaves the device in the ROM (R412). -/
def State.verifyImage (s : State) : State :=
  let bs := s.flash.imageOf s.boot.recovery
  match s.flash.imageOk bs, keyOf bs with
  | true, some i =>
    State.nextPhase { s with flash := { s.flash with
      image := bs, keySlot := i, measure := sha512 (s.flash.measure ++ sha512 bs) } }
  | _, _ =>
    if s.boot.recovery then { s.tickFresh with boot := { s.boot with error := s.someError, stuck := true } }
    else s.tickFresh.startFailed s.someError

/-- Step 3 of a cold start: cores that fail the self-test are retired (R417). -/
def State.selfTest (s : State) : State :=
  ((List.range 208).filter (Config.selfTestFails s.fresh)).foldl (fun s c => s.updCore c (fun k => { k with retired := true })) s.tickFresh

/-- The module has power, and a start is under way. -/
def State.starting (s : State) : Bool :=
  s.mainPower && s.present && !s.boot.stuck && decide (1 ≤ s.boot.phase.toNat ∧ s.boot.phase.toNat ≤ 8)

/-- A step of the start ends, with an error or with its effect. Step 8 ends with READY. -/
def State.startStep (s : State) (err : BitVec 16) : State :=
  if err ≠ 0 then s.startFailed err
  else match s.boot.phase.toNat with
    | 1 => State.nextPhase ({ s with link := s.link || s.boot.start == 1, flash := { s.flash with measure := List.replicate 64 0 } }.startCtl 0)
    | 3 => (if s.boot.start = 1 then s.selfTest else s).nextPhase
    | 5 => s.verifyImage
    | 6 => ((List.range 7).foldl (fun s i => s.startCtl (i + 1)) s).nextPhase
    | 8 => s
    | _ => s.nextPhase

/-- What the start-up logic does next: a step of a start, or, once READY, the new start of a stopped control core (R334). -/
def State.bootAct (s : State) (err : Nat) : State :=
  if s.starting then s.startStep (BitVec.ofNat 16 err)
  else if s.boot.ready && (s.core (208 + err % 8)).halted then s.startCtl (err % 8)
  else s

/-- The cores are brought up with the firmware entry (R336, R361, R410). -/
def State.bringUp (s : State) (cs : List Nat) : State :=
  cs.foldl (fun s c => s.updCore c (fun k => { k with fwEntry := Config.fwEntry, fwRestore := Config.fwRestore })) s

/-- READY (R410 to R412, R423). -/
def execReady (s : State) : Out :=
  .next (
    if s.starting && s.boot.phase == 8 then
      let s := s.bringUp (List.range 208)
      let fl := if s.boot.raiseSvn then { s.flash with svnMin := imageSvn s.flash.image } else s.flash
      State.setReady { s with
        flash := fl, boot := { s.boot with phase := 9, error := 0, raiseSvn := false, fails := if s.boot.recovery then s.boot.fails else 0 } } true
    else s)

/-- START_TIMEOUT (R412): 120 s of a cold start, 20 s of a warm start. -/
def execStartTimeout (s : State) : Out :=
  let limit := if s.boot.start = 2 then 20000000000 else 120000000000
  .next (if s.starting && decide (s.boot.since + limit ≤ s.ptime) then s.tickFresh.startFailed s.someError else s)

/-- BOOTSTAT (R411). -/
def State.bootstat (s : State) : Nat :=
  let b := s.boot
  (if b.ready then 2 ^ 31 else 0) + (if b.recovery then 2 ^ 30 else 0) + b.start.toNat * 2 ^ 28 + b.fails.toNat * 2 ^ 24 +
    b.phase.toNat * 2 ^ 16 + b.error.toNat

/-! ### What begins a start (R410, R411) -/

/-- BOOTCTL_WARM_START (R410, R411). -/
def execBootctlWarmStart (s : State) : Out := .next (if s.hostUp then s.warmStart else s)
/-- BOOTCTL_COLD_START (R410, R411). -/
def execBootctlColdStart (s : State) : Out := .next (if s.hostUp then s.coldStart false else s)
/-- POWER_ON (R410): of the module where it stands, or of one that has been put in, which has no retired cores (R417). -/
def execPowerOn (s : State) : Out :=
  .next (State.coldStart { s with mainPower := true, present := true, cores := if s.present then s.cores else [] } false)
/-- FUNDAMENTAL_RESET (R410). -/
def execFundamentalReset (s : State) : Out := .next (if s.mainPower && s.present then s.coldStart false else s)

/-! ### The link (R410, R424) -/

/-- HOT_RESET (R410): the link alone is reset. -/
def execHotReset (s : State) : Out := .next { s with link := false }
/-- LINK_DOWN (R424). -/
def execLinkDown (s : State) : Out := .next { s with link := false }

/-- A function sends what is pending and not masked (R401). -/
def State.sendPending (s : State) (f : Nat) : State :=
  let fn := s.fn f
  if fn.msix && s.link then
    let go := (List.range 66).filter (fun v => fn.pend.getLsbD v && !fn.mask.getLsbD v)
    { s with irqs := go.map (fun v => (f, v)) ++ s.irqs, fns := Map.put s.fns f { fn with pend := fn.pend &&& fn.mask } }
  else s

/-- LINK_UP (R410): what became pending while the link was down is sent. -/
def execLinkUp (s : State) : Out :=
  .next (if s.mainPower && s.present then
    let s : State := { s with link := true }
    (Map.keys s.fns).foldl State.sendPending s else s)

/-! ### Functions (R401, R402) -/

/-- VF Enable of SR-IOV, in the configuration space of function 0; without it no virtual function is there (R399, log 134). -/
def State.setVfs (s : State) (on : Bool) : State := { s with vfs := on, fns := if on then s.fns else s.fns.filter (fun e => e.1 == 0) }

/-- FLR (R402): configuration space, MSI-X table and pending bits of the function. -/
def execFlr (func : Nat) (s : State) : Out :=
  .next (if s.hostUp && s.fnUp func then
      let s := if func = 0 then s.setVfs false else s
      { s with fns := Map.put s.fns func { flr := true } }
    else s)
/-- FLR_COMPLETE (R402). -/
def execFlrComplete (func : Nat) (s : State) : Out := .next { s with fns := Map.put s.fns func { s.fn func with flr := false } }

/-- CONFIGURATION_REQUEST (R399, R401, R402): MSI-X is enabled or disabled, or on function 0 the virtual functions. -/
def execConfigurationRequest (func : Nat) (write : ConfigWrite) (s : State) : Out :=
  .next (if s.hostUp && s.fnUp func && !(s.fn func).flr then
      match write with
      | .msix on => State.sendPending { s with fns := Map.put s.fns func { s.fn func with msix := on } } func
      | .vf on => if func = 0 then s.setVfs on else s
    else s)

/-! ### Loss of the device (R415, R429) -/

/-- SURPRISE_REMOVAL (R429). -/
def execSurpriseRemoval (s : State) : Out := .next { s.wiped with present := false, mainPower := false }
/-- MAIN_POWER_LOSS (R415). -/
def execMainPowerLoss (s : State) : Out := .next { s.wiped with mainPower := false }

end Sys2Proof.Machine
end

