-- ==== Sys2Proof/Machine/Fleet.lean ====
section
/-! DEFINITION. The control pages and fleet operation: register writes, BAR2, APPLY, ACTIVATE, resets of a die, errors, telemetry
(R352, R392, R400, R401, R405, R416 to R419, R422 to R424). -/

namespace Sys2Proof.Machine
open Sys2Proof

/-! ### Register writes (R392, R400, R405, R416) -/

/-- A register of some bytes at address `a` after a write of bytes at `off`. -/
def putBytes {w : Nat} (old : BitVec w) (a off : Nat) (bs : List Byte) : BitVec w :=
  BitVec.ofNat w (leNat ((List.range (w / 8)).map (fun i =>
    if off ≤ a + i ∧ a + i < off + bs.length then bs.getD (a + i - off) 0 else BitVec.ofNat 8 (old.toNat / 2 ^ (8 * i)))))

/-- The write touches bytes of a register. -/
def touches (a n off len : Nat) : Bool := decide (off < a + n ∧ a < off + len)

/-- The translation control page (R392); faults that waited go on when their ring changes. -/
def State.xlatPage (s : State) (off : Nat) (bs : List Byte) : State :=
  let s := (List.range 4).foldl (fun s d =>
    let a := 0x1000 + 0x100 * d
    if touches a 12 off bs.length then
      let s := s.updDie d (fun di => { di with fqbase := putBytes di.fqbase a off bs, fqsize := putBytes di.fqsize (a + 8) off bs })
      s.flushFaults d (s.die d).waiting.length
    else s) s
  { s with
    ptbase := putBytes s.ptbase 0x1400 off bs, invva := putBytes s.invva 0x1410 off bs, invlen := putBytes s.invlen 0x1418 off bs
    mig := { s.mig with pasid := putBytes s.mig.pasid 0x1440 off bs, va := putBytes s.mig.va 0x1448 off bs, dst := putBytes s.mig.dst 0x1450 off bs } }

/-- The fabric control page (R405); a queue pair that is not ready afterwards begins to count again. -/
def State.fabricPage (s : State) (off : Nat) (bs : List Byte) : State :=
  let s : State := { s with
    pwbase := putBytes s.pwbase 0x2000 off bs, pwcount := putBytes s.pwcount 0x2008 off bs
    qpbase := putBytes s.qpbase 0x2010 off bs, qpcount := putBytes s.qpcount 0x2018 off bs }
  { s with qps := s.qps.filter (fun e => s.qpState e.1 == 1) }

/-- The registers of the fleet control page that no other row writes (R416). -/
def State.fleetPage (s : State) (off : Nat) (bs : List Byte) : State :=
  { s with
    partbase := putBytes s.partbase 0x6000 off bs, partcount := putBytes s.partcount 0x6008 off bs
    fpbase := putBytes s.fpbase 0x6010 off bs, strbase := putBytes s.strbase 0x6040 off bs, strcount := putBytes s.strcount 0x6048 off bs }

/-- One word of an MSI-X table at `base` (R400, R401): bit 0 of an entry's last word masks its vector. -/
def Fn.putMsix (x : Fn) (base j off : Nat) (bs : List Byte) : Fn :=
  let a := base + 4 * j
  let v := j / 4
  if j % 4 = 3 then
    let m : W32 := putBytes (if x.mask.getLsbD v then 1 else 0) a off bs
    { x with mask := if m.getLsbD 0 then x.mask ||| (1#66 <<< v) else x.mask &&& ~~~(1#66 <<< v) }
  else { x with table := Map.set 0 x.table j (putBytes (Map.get 0 x.table j) a off bs) }

/-- A write to the MSI-X table of a function; a vector that is unmasked sends what is pending. -/
def State.msixPage (s : State) (f base entries off : Nat) (bs : List Byte) : State :=
  let js := (List.range (4 * entries)).filter (fun j => touches (base + 4 * j) 4 off bs.length)
  State.sendPending { s with fns := Map.put s.fns f (js.foldl (fun x j => x.putMsix base j off bs) (s.fn f)) } f

/-- MMIO_REGISTER_WRITE (R392, R400, R401, R405, R416): a register without a row of its own. Reserved and read-only bytes ignore it. -/
def execMmioRegisterWrite (func off size : Nat) (value : W64) (s : State) : Out :=
  let bs := leBytes (min size 8) value.toNat
  let table := if func = 0 then 0x4000 else 0x1000
  .next (
    if !s.barUp || !s.fnUp func || (s.fn func).flr then s
    else if touches table 1056 off bs.length then s.msixPage func table (if func = 0 then 66 else 64) off bs
    else if func ≠ 0 then s
    else if touches 0x1000 0x1000 off bs.length then s.xlatPage off bs
    else if touches 0x2000 0x1000 off bs.length then s.fabricPage off bs
    else if touches 0x6000 0x1000 off bs.length then s.fleetPage off bs
    else s)

/-! ### BAR2 (R400, R424) -/

/-- A byte of BAR2: 0 where no memory is, open on a poisoned page. -/
def State.bar2Byte (s : State) (a : Nat) : Nat :=
  if !s.barUp || !inDevice a 1 then 0
  else if s.poison.contains (a / 65536) then Config.freeNat (s.fresh + a) % 256
  else s.devNat a 1

/-- BAR2_ACCESS (R400): a read of as many bytes as `bytes` has, or a write of them. -/
def execBar2Access (write : Bool) (addr : Nat) (bytes : List Byte) (s : State) : Out :=
  .next (
    if write then
      if s.barUp then bytes.zipIdx.foldl (fun s e => if inDevice (addr + e.2) 1 then s.devWrite (addr + e.2) [e.1] else s) s else s
    else if s.hostUp then
      State.tickFresh { s with replies := s.replies ++ [{ req := addr, ok := true, data := (List.range bytes.length).map (fun i => s.bar2Byte (addr + i)) }] }
    else s)

/-! ### APPLY (R416 to R419) -/

/-- The entries of the partition table in force after APPLY, by index. -/
def partRow (bs : List Byte) : Part :=
  { slices := w64At bs 0, slots := w64At bs 8, cc := natAt bs 16 1, share := natAt bs 17 1, hbmw := natAt bs 18 2
    gang := (natAt bs 20 4).testBit 1, tick := if natAt bs 24 4 = 0 then 2000 else natAt bs 24 4
    deadline := if natAt bs 28 4 = 0 then 50 else natAt bs 28 4, lateSave := w32At bs 32 }

def State.partRows (s : State) : List (Nat × List Byte) :=
  ((List.range (min 48 s.partcount.toNat)).map (fun n => (n, s.devRead (s.partbase.toNat + 64 * n) 64))).filter (fun e => (natAt e.2 20 4).testBit 0)

/-- A field outside its range (R418). -/
def partRowBad (bs : List Byte) : Bool :=
  let x := partRow bs
  decide (2 ^ 48 ≤ x.slices.toNat) || decide (7 < x.cc) || x.share == 0 || x.hbmw == 0 || decide (1024 < x.hbmw) ||
    decide (4 ≤ natAt bs 20 4) || decide (x.tick < 500 ∨ 100000 < x.tick) || decide (x.deadline < 10 ∨ x.tick / 4 < x.deadline) ||
    (bs.drop 36).any (· != 0)

/-- Two valid partitions that may not stand together (R419). -/
def partsClash (a b : Part) : Bool :=
  let meet := a.slices &&& b.slices != 0
  (meet && a.slices != b.slices) || (a.slices == b.slices && !(a.gang && b.gang)) || (a.slots &&& b.slots) != 0

/-- Every pair of a list. -/
def anyPair (l : List (Nat × Part)) : Bool := l.any (fun a => l.any (fun b => decide (a.1 < b.1) && partsClash a.2 b.2))

/-- The slice of a physical core (R417). -/
def sliceOf (c : Nat) : Nat := 12 * (c / 52) + (((enabledCores (c / 52)).takeWhile (fun x => x != c)).length) / 4

/-- The change would move a bound slot, or a slice that a live instance holds. -/
def State.movesLive (s : State) (new : List (Nat × Part)) : Bool :=
  s.slots.any (fun e => (e.2.bound || e.2.launch.isSome) &&
      ((new.find? (fun y => y.2.slots.getLsbD e.1)).map (·.1)) != some e.2.part) ||
    s.cores.any (fun e => match e.2.inst with
      | some i => !new.any (fun y => y.1 == i.part && y.2.slices.getLsbD (sliceOf e.1))
      | none => false)

/-- A gang that goes on keeps its turn; a new one begins with its lowest tenant (R419). -/
def State.keepGangs (s : State) : State :=
  (s.parts.filter (fun e => e.2.gang && s.gangKey e.1 == e.1)).foldl (fun s e =>
    let g := s.gang e.1
    if (s.tenants e.1).contains g.tenant ∧ (Map.find s.gangs e.1).isSome = true then s
    else s.setGang e.1 { tenant := e.1, left := e.2.share, since := s.ptime }) s

/-- APPLYSTAT of the two tables as they stand (R419). -/
def State.applyCode (s : State) (rows : List (Nat × List Byte)) (map : List Byte) : Nat :=
  let new := rows.map (fun e => (e.1, partRow e.2))
  if 48 < s.partcount.toNat ∨ s.partbase.toNat % 4096 ≠ 0 ∨ rows.any (fun e => partRowBad e.2) = true ∨
      map.any (fun b => b != 0xFF && !new.any (fun e => e.1 == b.toNat)) = true then 3
  else if anyPair new then 1
  else if s.movesLive new then 2
  else 0

/-- The tables come into force; KICK where %kpsum is no longer 0 (R365). -/
def State.applyTables (s : State) (rows : List (Nat × List Byte)) (map : List Byte) : State :=
  let s' := State.keepGangs { s with parts := rows.map (fun e => (e.1, partRow e.2)), fmap := Map.setRange 255 [] 0 map }
  (List.range 8).foldl (fun t cc => if s.kpsum cc = 0 ∧ s'.kpsum cc ≠ 0 then t.raiseEvt cc evKICK else t) s'

/-- APPLY (R416, R419). -/
def execApply (value : W32) (s : State) : Out :=
  .next (
    if !s.barUp || value != 1 then s
    else
      let rows := s.partRows
      let map := s.devRead s.fpbase.toNat 257
      let code := s.applyCode rows map
      { (if code = 0 then s.applyTables rows map else s) with applystat := BitVec.ofNat 32 code })

/-! ### ACTIVATE (R352, R423) -/

/-- The QCBs that the device knows to name save areas: of bound queues, of pre-empted and of interrupted launches. -/
def State.knownQcbs (s : State) : List Nat :=
  s.slots.map (fun e => e.2.qcb.toNat) ++ (s.kept.filter (fun e => e.2.launch.isSome)).map (·.1) ++ s.interrupted

/-- A save area holds a layout that the firmware of layout `v` does not restore. -/
def State.oldLayout (s : State) (v : Nat) : Bool :=
  s.knownQcbs.any (fun q => s.nat0 (q + 0x50) 8 != 0 && decide (s.nat0 (q + 0x68) 4 + 2 < v))

/-- The code of ACTSTAT (R423). -/
def State.activateCode (s : State) (bs : List Byte) : Nat :=
  if s.flash.updating.isSome then 3
  else if !imageForm bs then 2
  else if !s.flash.svnOk bs then 4
  else if s.oldLayout (imageLayout bs) then 1
  else 0

/-- ACTIVATE (R416, R423): bits [31:2] are ignored (R9). -/
def execActivate (value : W32) (s : State) : Out :=
  .next (
    if !s.barUp || !value.getLsbD 0 then s
    else
      let code := s.activateCode s.flash.newImage
      let s : State := { s with actstat := BitVec.ofNat 32 code }
      if code = 0 then
        let s := s.warmStart
        { s with flash := s.flash.install, boot := { s.boot with raiseSvn := value.getLsbD 1 } }
      else s)

/-! ### Resets of a die (R380, R416, R424) -/

/-- A user of translations that a reset of a die leaves: on the I/O die. -/
def User.onIo : User → Bool
  | .cmd c _ => isCtl c
  | .mop c _ => isCtl c
  | _ => true

def ioUsers (ns : List Need) : List Need := ns.filter (fun n => n.user.onIo)

/-- What waits in a die's walkers for users on the I/O die begins again. -/
def State.restartIo (s : State) (d : Nat) : State :=
  let di := s.die d
  let ns := di.walks.flatMap (·.users) ++ di.pendWalks.map (·.2)
  let us := (ioUsers ns).map (·.user) ++ (di.waiting.map (·.user)).filter User.onIo
  us.foldl (fun s u => s.setXs u .idle) s

/-- Pages of 64 KiB whose dirty lines are lost (R424). -/
def State.lostPages (s : State) : List Nat := (Config.dirtyPages s.fresh).filter (fun p => inDevice (p * 65536) 65536)

/-- A launch loses its logical cores on the die: it is interrupted (R380, R424). -/
def Launch.lose (l : Launch) (d : Nat) : Launch :=
  let on (st : LcSt) : Bool := match st with | .running c => dieOf c == d | _ => false
  if l.cores.any on then
    { l with abort := true, closed := true, cores := l.cores.map (fun st => if on st then .aborted else st) }
  else l

/-- The other instances of an interrupted launch are pre-empted where they can be saved. -/
def State.saveOthers (s : State) (q d : Nat) : State :=
  let cs := (s.launchCores q).filter (fun c => dieOf c != d && (s.core c).i.save != 0)
  match s.ccOf (s.slotPart q) with
  | some cc => cs.foldl (fun s c => s.sendPreempt c (BitVec.ofNat 64 cc)) (if cs = [] then s else s.clearReport q)
  | none => s

/-- The reset of a die begins. -/
def State.resetDie (s : State) (d : Nat) (answers : Bool) : State :=
  if (s.die d).resetting then s
  else
    let s := if answers then s else State.tickFresh { s with poison := (s.poison ++ s.lostPages).eraseDups }
    let hit := (s.slots.filter (fun e => match e.2.launch with | some l => l.lose d != l | none => false)).map (·.1)
    let s := hit.foldl (fun s q => (s.updSlot q (fun x => { x with launch := x.launch.map (Launch.lose · d) })).saveOthers q d) s
    let s := s.restartIo d
    let onDie (c : Nat) : Bool := !isCtl c && dieOf c == d
    let s : State := { s with
      cores := s.cores.mapVal (fun c k => if onDie c then Core.keepWarm k else k)
      rdma := s.rdma.filter (fun r => !onDie r.core)
      ats := s.ats.map (fun a => if a.die = d then { a with users := ioUsers a.users } else a)
      pri := s.pri.map (fun a => if a.die = d then { a with users := ioUsers a.users } else a)
      rstBusy := true }
    let s := s.updDie d (fun di => { di.keepReset with
      faults := di.faults.map (fun r => { r with users := ioUsers r.users }), resetting := true })
    hit.foldl State.launchOver s

/-- DIERESET (R416, R424). -/
def execDiereset (value : W32) (directoryAnswers : Bool) (s : State) : Out :=
  let v := value.toNat
  .next (if s.barUp && decide (1 ≤ v ∧ v ≤ 4) then s.resetDie (v - 1) directoryAnswers else s)

/-- DIE_RESET_COMPLETE (R416, R424): the cores are brought up again; gang switches that waited for them go on. -/
def execDieResetComplete (die : Nat) (s : State) : Out :=
  .next (
    if !(s.die die).resetting then s
    else
      let s := s.updDie die (fun d => { d with resetting := false, wasReset := true })
      let s := s.bringUp ((List.range 52).map (· + 52 * die))
      let s : State := { s with rstBusy := (List.range 4).any (fun d => (s.die d).resetting) }
      (Map.keys s.parts).foldl State.gangOver s)

/-- RSTSTAT as it reads. -/
def State.rststat (s : State) : Nat :=
  (if s.rstBusy then 2 ^ 31 else 0) + ((List.range 4).map (fun d => if (s.die d).wasReset then 2 ^ d else 0)).sum

/-- RSTSTAT_READ (R416): the read clears the bits. -/
def execRststatRead (s : State) : Out :=
  .next (
    if !s.barUp then s
    else { s with replies := s.replies ++ [{ req := 0x602C, ok := true, data := [s.rststat] }],
                  dies := s.dies.mapVal (fun _ (d : Die) => { d with wasReset := false }) })

/-! ### What the host reads in BAR0 (R365, R392, R400, R401, R405, R411, R416, R422)

A register is its offset, its size in bytes and its value. The read of RSTSTAT that clears its bits has a row of its own. -/

/-- The kick page. -/
def State.kickRegs (s : State) (f : Nat) : List (Nat × Nat × Nat) :=
  (List.range 64).map (fun q => (8 * q, 8, (Map.get 0 s.kwr (f * 64 + q)).toNat))

/-- MIGSTAT. -/
def Mig.stat (m : Mig) : Nat := (if m.busy then 2 ^ 31 else 0) + m.abandons % 256 * 256 + m.result.toNat

/-- The translation control page. -/
def State.xlatRegs (s : State) : List (Nat × Nat × Nat) :=
  (List.range 4).flatMap (fun d =>
    let di := s.die d
    let a := 0x1000 + 0x100 * d
    [(a, 8, di.fqbase.toNat), (a + 8, 4, di.fqsize.toNat), (a + 12, 4, di.fqtail.toNat), (a + 16, 4, di.fqhead.toNat)]) ++
  [(0x1400, 8, s.ptbase.toNat), (0x1410, 8, s.invva.toNat), (0x1418, 8, s.invlen.toNat), (0x1420, 4, if s.inv.isSome then 1 else 0),
   (0x1440, 4, s.mig.pasid.toNat), (0x1448, 8, s.mig.va.toNat), (0x1450, 8, s.mig.dst.toNat), (0x145C, 4, s.mig.stat)]

/-- The fabric control page. -/
def State.fabricRegs (s : State) : List (Nat × Nat × Nat) :=
  [(0x2000, 8, s.pwbase.toNat), (0x2008, 4, s.pwcount.toNat), (0x2010, 8, s.qpbase.toNat), (0x2018, 4, s.qpcount.toNat)]

/-- PTPSTAT. -/
def State.ptpstat (s : State) : Nat := (if s.locked then 2 ^ 31 else 0) + s.offset.toNat

/-- DIETEL of a die. -/
def State.dieRegs (s : State) (d : Nat) : List (Nat × Nat × Nat) :=
  let di := s.die d
  let a := 0x6100 + 32 * d
  [(a, 2, di.temp.toNat), (a + 2, 2, di.vcore.toNat), (a + 4, 2, di.freq.toNat), (a + 6, 2, di.throt.toNat), (a + 8, 4, di.droops.toNat),
   (a + 12, 2, di.refresh.toNat), (a + 14, 2, di.ecc.toNat), (a + 16, 2, di.serdes.toNat)]

/-- The fleet control page; APPLY and ACTIVATE are done within their step, so that their BUSY bits read 0. -/
def State.fleetRegs (s : State) : List (Nat × Nat × Nat) :=
  [(0x6000, 8, s.partbase.toNat), (0x6008, 4, s.partcount.toNat), (0x6010, 8, s.fpbase.toNat), (0x601C, 4, s.applystat.toNat),
   (0x6024, 4, s.actstat.toNat), (0x602C, 4, s.rststat), (0x6040, 8, s.strbase.toNat), (0x6048, 4, s.strcount.toNat), (0x6050, 4, s.ptpstat),
   (0x6180, 2, s.power.toNat), (0x6182, 1, s.pump.toNat), (0x6183, 1, s.inlet.toNat), (0x6184, 1, s.portsUp.toNat)] ++
    (List.range 4).flatMap s.dieRegs

/-- The MSI-X table and the pending-bit array. -/
def Fn.msixRegs (x : Fn) (table pba entries : Nat) : List (Nat × Nat × Nat) :=
  (pba, 16, x.pend.toNat) :: (List.range (4 * entries)).map (fun j =>
    (table + 4 * j, 4, if j % 4 = 3 then (if x.mask.getLsbD (j / 4) then 1 else 0) else (Map.get 0 x.table j).toNat))

/-- The registers of BAR0 of a function; until READY the kick page and the start page alone are served (R410). -/
def State.bar0Regs (s : State) (f : Nat) : List (Nat × Nat × Nat) :=
  s.kickRegs f ++ (if f = 0 then [(0x3000, 4, s.bootstat)] else []) ++
    (if !s.barUp then []
     else if f = 0 then s.xlatRegs ++ s.fabricRegs ++ s.fleetRegs ++ (s.fn 0).msixRegs 0x4000 0x5000 66
     else (s.fn f).msixRegs 0x1000 0x2000 64)

/-- A byte as the host reads it: reserved ones are 0. -/
def State.bar0Byte (s : State) (f a : Nat) : Byte :=
  match (s.bar0Regs f).find? (fun r => decide (r.1 ≤ a ∧ a < r.1 + r.2.1)) with
  | some r => BitVec.ofNat 8 (r.2.2 / 256 ^ (a - r.1))
  | none => 0

/-- What a host read of BAR0 of a function returns; none when the read does not reach the device. -/
def State.bar0Read (s : State) (f off n : Nat) : Option (List Byte) :=
  if s.hostUp && s.fnUp f then some ((List.range n).map (fun i => s.bar0Byte f (off + i))) else none

/-! ### Errors and telemetry (R417, R422, R424) -/

def dayNs : Nat := 86400000000000

/-- Two uncorrectable errors within 24 hours retire a core at the next start (R417). -/
def Core.countError (k : Core) (now : Nat) : Core :=
  let es := now :: k.errs.filter (fun t => decide (now < t + dayNs))
  { k with errs := es, outNext := k.outNext || decide (2 ≤ es.length) }

/-- UNCORRECTABLE_ERROR (R399, R417, R424): AER logs it (log 134); a fatal one makes the firmware reset the die; whether the directory answers is open. -/
def execUncorrectableError (core : Nat) (fatal : Bool) (s : State) : Out :=
  .next (
    if 208 ≤ core then s
    else
      let s := State.updCore { s with aer := s.aer + 1 } core (fun k => k.countError s.ptime)
      if fatal && s.boot.ready then s.tickFresh.resetDie (dieOf core) (Config.freeBool s.fresh) else s)

/-- DROOP_EVENT (R422). -/
def execDroopEvent (die : Nat) (s : State) : Out := .next (s.updDie die (fun d => { d with droops := d.droops + 1 }))

/-- A sample of a die; ECC only grows, up to its top (R422). -/
def Die.sample (d : Die) (n i : Nat) : Die :=
  let t (j : Nat) : BitVec 16 := Config.telemetry n (8 * i + j)
  { d with
    temp := t 0, vcore := t 1, freq := t 2, throt := t 3 &&& 0xF, refresh := t 4, serdes := t 5
    ecc := BitVec.ofNat 16 (min 65535 (d.ecc.toNat + (t 6).toNat)) }

/-- TELEMETRY_REFRESH (R422). -/
def execTelemetryRefresh (s : State) : Out :=
  .next (
    if !(s.mainPower && s.present) then s
    else
      let n := s.fresh
      let s := (List.range 4).foldl (fun s i => s.updDie i (fun d => d.sample n i)) s
      State.tickFresh { s with
        power := Config.telemetry n 32, pump := (Config.telemetry n 33).setWidth 8, inlet := (Config.telemetry n 34).setWidth 8 })

/-- PORT_LINK_CHANGE (R422): the PORTS bit. -/
def execPortLinkChange (port : Nat) (up : Bool) (s : State) : Out :=
  .next (if 2 ≤ port then s
    else { s with portsUp := if up then s.portsUp ||| (1#2 <<< port) else s.portsUp &&& ~~~(1#2 <<< port) })

end Sys2Proof.Machine
end

