-- ==== Sys2Proof/Machine/Frames.lean ====
section
/-! DEFINITION. Frame output: streams, the commit of a frame, its emission, substitution through WARP, and the PTP clock's servo (R408,
R425 to R429). -/

namespace Sys2Proof.Machine
open Sys2Proof

/-! ### Streams (R425, R426) -/

/-- A stream as its table entry gives it. -/
structure StreamRow where
  on : Bool
  subst : Bool
  format : Nat
  width : Nat
  height : Nat
  pitch : Nat
  epoch : Nat
  period : Nat
  port : Nat
  dest : List Byte
  udp : Nat
  warp : List W32
  deriving DecidableEq, Repr

/-- Pixels and bytes of a pixel group (R426). -/
def groupPixels (fmt : Nat) : Nat := match fmt with | 0 => 2 | 1 => 1 | _ => 4
def groupBytes (fmt : Nat) : Nat := match fmt with | 0 => 5 | 1 => 3 | _ => 15
/-- Bytes of a row's groups. -/
def StreamRow.rowBytes (r : StreamRow) : Nat := r.width / groupPixels r.format * groupBytes r.format

/-- The fields of an entry. -/
def streamRow (bs : List Byte) : StreamRow :=
  { on := (natAt bs 0 4).testBit 0, subst := (natAt bs 0 4).testBit 1, format := natAt bs 4 4, width := natAt bs 8 2, height := natAt bs 10 2
    pitch := natAt bs 12 4, epoch := natAt bs 16 8, period := natAt bs 24 4, port := (natAt bs 0 4) / 4 % 2, dest := (bs.drop 32).take 16, udp := natAt bs 48 2, warp := (List.range 9).map (fun i => w32At bs (52 + 4 * i)) }

/-- ENABLE, and nothing that disables the stream (R425, R426). -/
def StreamRow.enabled (r : StreamRow) : Bool :=
  r.on && decide (r.format ≤ 2) && decide (64 ≤ r.width ∧ r.width ≤ 7680) && decide (64 ≤ r.height ∧ r.height ≤ 4320) &&
    r.pitch % 256 == 0 && decide (4000000 ≤ r.period ∧ r.period ≤ 100000000) && r.width % groupPixels r.format == 0 && decide (r.rowBytes ≤ r.pitch)

/-- The entry of stream `n`. -/
def State.streamRow? (s : State) (n : Nat) : Option StreamRow :=
  if n < min 16 s.strcount.toNat then
    let r := streamRow (s.devRead (s.strbase.toNat + 128 * n) 128)
    if r.enabled then some r else none
  else none

def State.stream (s : State) (n : Nat) : Stream := Map.get {} s.streams n
def State.updStream (s : State) (n : Nat) (f : Stream → Stream) : State := { s with streams := Map.put s.streams n (f (s.stream n)) }

/-- An instant of the grid. -/
def StreamRow.onGrid (r : StreamRow) (t : Nat) : Bool := ((t : Int) - r.epoch) % r.period == 0
/-- The first grid instant at or after a time. -/
def StreamRow.gridFrom (r : StreamRow) (t : Nat) : Nat := t + (((r.epoch : Int) - t) % r.period).toNat

/-- How long before its instant a frame must have been committed (R427). -/
def commitNs : Nat := 500000

/-! ### FRAME_PACKET (R427, R429) -/

/-- The addresses at which a frame's rows enter a page of 64 KiB, each page once. -/
def StreamRow.pages (r : StreamRow) (buf : Nat) : List Nat :=
  ((List.range r.height).flatMap (fun y => pageStarts (buf + y * r.pitch) r.rowBytes)).foldl
    (fun l va => if l.any (fun x => x / 65536 == va / 65536) then l else l ++ [va]) []

/-- A frame is committed: its slot waits for the emission, and the translations of its rows are asked for (R393, R398). -/
def State.commitFrame (s : State) (q n : Nat) (r : StreamRow) (buf instant : Nat) : State :=
  let sl := s.slot q
  let fr : Frame := { buf := buf, instant := instant, slot := some q, pasid := sl.pasid, part := sl.part }
  let s := (s.updStream n (fun x => { x with frames := x.frames ++ [fr], last := some fr, next := x.next.or (some instant) })).updSlot q
    (fun x => { x with phase := .frame })
  (s.readyAt (some sl.part) sl.pasid (r.pages buf)).1

/-- FRAME_PACKET (R427). A stream that has not started waits for LOCKED (R429). -/
def execFramePacket (slot : Nat) (s : State) : Out :=
  .next (s.issuePacket slot 8 (fun s _ bs =>
    let n := natAt bs 32 4
    let instant := natAt bs 24 8
    match s.streamRow? n with
    | none => s.complete slot stBADPKT false
    | some r =>
      if !r.onGrid instant then s.complete slot stBADPKT false
      else if (s.stream n).next.isNone && !s.locked then s
      else if s.ptime + commitNs < instant then s.commitFrame slot n r (natAt bs 16 8) instant
      else s.complete slot stLATE false))

/-! ### The bytes of a buffer (R426) -/

/-- A byte list of a buffer from an address on, in pieces of 256; a piece without a translation is open. -/
def State.bufRow (s : State) (part pasid va n : Nat) : List Byte :=
  ((List.range ((n + 255) / 256)).flatMap (fun i => match s.seek (some part) pasid (va + 256 * i) 0 with
    | .have x => s.readLoc (x.at (va + 256 * i)) 256
    | _ => (List.range 256).map (fun j => BitVec.ofNat 8 (Config.freeNat (s.fresh + va + 256 * i + j))))).take n

/-- The rows of a frame. -/
def State.frameRows (s : State) (r : StreamRow) (fr : Frame) : List (List Byte) :=
  (List.range r.height).map (fun y => s.bufRow fr.part fr.pasid (fr.buf + y * r.pitch) r.rowBytes)

/-! ### FRAME_EMIT (R427) -/

/-- The committed frame that is emitted next: of the earliest instant, and of two for one instant the later commit. -/
def Stream.due (x : Stream) : Option Frame :=
  x.frames.foldl (fun (m : Option Frame) f => match m with
    | none => some f
    | some g => if f.instant ≤ g.instant then some f else some g) none

/-- The RTP timestamp of an instant: the PTP-based media clock of 90 kHz without an offset (R425, log 116). -/
def rtpOf (instant : Nat) : Nat := instant * 9 / 100000 % 2 ^ 32

/-- A frame as it is sent (R425). -/
def StreamRow.send (r : StreamRow) (stream instant : Nat) (bytes : List Byte) : Sent :=
  { stream := stream, instant := instant, port := r.port, dest := r.dest, udp := r.udp, rtp := rtpOf instant, bytes := bytes }

/-- The records of the frames of an instant are due. -/
def State.endFrames (s : State) (fs : List Frame) (status : Nat) : State :=
  fs.foldl (fun s f => match f.slot with | some q => s.complete q status false | none => s) s

/-- FRAME_EMIT (R427): from 100 ns before the instant on. A stream disabled since the commit sends nothing. -/
def execFrameEmit (stream : Nat) (s : State) : Out :=
  let x := s.stream stream
  .next (match x.due with
    | none => s
    | some f =>
      if s.ptime + 100 < f.instant then s
      else
        let same := x.frames.filter (fun g => g.instant == f.instant)
        let drop (nx : Nat) (s : State) : State :=
          s.updStream stream (fun x => { x with frames := x.frames.filter (fun g => g.instant != f.instant), next := some nx })
        match s.streamRow? stream with
        | none => (drop (x.next.getD f.instant) s).endFrames same stLATE
        | some r =>
          if (x.next.map r.gridFrom).any (fun g => decide (g < f.instant)) then s
          else
            let m := r.send stream f.instant (s.frameRows r f).flatten
            (drop (f.instant + r.period) (State.tickFresh { s with sent := s.sent ++ [m] })).endFrames same stOK)

/-! ### Samples (R426, R428) -/

/-- `n` bits of a row from bit `i` on, most significant bit first. -/
def bitsAt (bs : List Byte) (i n : Nat) : Nat :=
  (List.range n).foldl (fun a j => 2 * a + (if (bs.getD ((i + j) / 8) 0).getLsbD (7 - (i + j) % 8) then 1 else 0)) 0

/-- Bits of a sample code. -/
def sampleBits (fmt : Nat) : Nat := if fmt = 1 then 8 else 10

/-- The mean of two codes, rounded RNE. -/
def meanRne (a b : Nat) : Nat := let h := (a + b) / 2; if (a + b) % 2 = 1 ∧ h % 2 = 1 then h + 1 else h

/-- Component `k` of pixel `i` of a row: R, G, B, or Y, Cb, Cr with one chroma pair per pixel. -/
def rowSample (fmt width : Nat) (bs : List Byte) (k i : Nat) : Nat :=
  match fmt with
  | 0 =>
    let g := i / 2
    let chroma (g : Nat) : Nat := bitsAt bs (40 * g + (if k = 1 then 0 else 20)) 10
    if k = 0 then bitsAt bs (40 * g + 10 + 20 * (i % 2)) 10
    else if i % 2 = 0 then chroma g
    else meanRne (chroma g) (chroma (min (g + 1) (width / 2 - 1)))
  | 1 => bitsAt bs (24 * i + 8 * k) 8
  | _ => bitsAt bs (30 * i + 10 * k) 10

/-- Black (R428). -/
def black (fmt k : Nat) : Nat := if fmt = 0 then (if k = 0 then 64 else 512) else 0

/-- S(i, j) as a code. -/
def srcSample (r : StreamRow) (rows : List (List Byte)) (k : Nat) (i j : Int) : Nat :=
  if i < 0 ∨ (r.width : Int) ≤ i ∨ j < 0 ∨ (r.height : Int) ≤ j then black r.format k
  else rowSample r.format r.width (rows.getD j.toNat []) k i.toNat

/-! ### The homography (R428) -/

def fAdd (a b : W32) : W32 := (f32.add 0 a b).1
def fSub (a b : W32) : W32 := (f32.sub 0 a b).1
def fMul (a b : W32) : W32 := (f32.mul 0 a b).1
/-- An integer multiple of a half, as f32. -/
def fHalves (n : Int) : W32 := (f32.ofDyadic 0 n (-1)).1

/-- The quotient, rounded RNE. -/
def fDiv (a b : W32) : W32 :=
  match f32.unpack a, f32.unpack b with
  | .nan _, _ => f32.nan
  | _, .nan _ => f32.nan
  | .inf n, y => if y.isInf then f32.nan else f32.inf (n != y.neg)
  | x, .inf n => f32.withSign (x.neg != n) 0
  | .fin n m e, .fin n' m' e' =>
    if m' = 0 then (if m = 0 then f32.nan else f32.inf (n != n'))
    else
      let num := m * 2 ^ 64
      let q := 2 * (num / m') + (if num % m' = 0 then 0 else 1)
      (f32.round 0 (n != n') q (e - e' - 65)).1

def fIsNan (a : W32) : Bool := (f32.unpack a).isNaN
/-- The integer that a finite whole f32 is. -/
def fInt (a : W32) : Int :=
  match f32.unpack a with
  | .fin n m e => let k : Int := (toIntMag 1 n m e).1; if n then -k else k
  | _ => 0
/-- The value is at most 0. -/
def fLeZero (a : W32) : Bool :=
  match f32.unpack a with
  | .fin n m _ => n || m == 0
  | .inf n => n
  | .nan _ => true

/-- A linear form of three entries of WARP, from the left. -/
def warpRow (h : List W32) (i : Nat) (x y : W32) : W32 := fAdd (fAdd (fMul (h.getD i 0) x) (fMul (h.getD (i + 1) 0) y)) (h.getD (i + 2) 0)

/-- The weighted sum of the four samples. -/
def blend (fu fv : W32) (a b c d : W32) : W32 :=
  let one : W32 := 0x3F800000
  let gu := fSub one fu
  let gv := fSub one fv
  fAdd (fAdd (fAdd (fMul (fMul gu gv) a) (fMul (fMul fu gv) b)) (fMul (fMul gu fv) c)) (fMul (fMul fu fv) d)

/-- A result as a code: rounded RNE and clamped. -/
def toCode (fmt : Nat) (a : W32) : Nat :=
  match f32.unpack a with
  | .fin n m e => if n then 0 else min (2 ^ sampleBits fmt - 1) (toIntMag 0 false m e).1
  | .inf n => if n then 0 else 2 ^ sampleBits fmt - 1
  | .nan _ => 0

/-- The three components of an output pixel. -/
def warpPixel (r : StreamRow) (rows : List (List Byte)) (x y : Nat) : List Nat :=
  let blacks := (List.range 3).map (black r.format)
  let px := fHalves (2 * x + 1)
  let py := fHalves (2 * y + 1)
  let z := warpRow r.warp 6 px py
  if fLeZero z then blacks
  else
    let half : W32 := 0x3F000000
    let u := fSub (fDiv (warpRow r.warp 0 px py) z) half
    let v := fSub (fDiv (warpRow r.warp 3 px py) z) half
    let iu := (f32.unary 2 u).1
    let iv := (f32.unary 2 v).1
    let fu := fSub u iu
    let fv := fSub v iv
    let sm (k : Nat) (a b : Int) : W32 := fHalves (2 * (srcSample r rows k (fInt iu + a) (fInt iv + b) : Nat))
    let out := (List.range 3).map (fun k => blend fu fv (sm k 0 0) (sm k 1 0) (sm k 0 1) (sm k 1 1))
    if fIsNan fu || fIsNan fv || out.any fIsNan then blacks else out.map (toCode r.format)

/-- Sample codes as bytes, most significant bit first. -/
def packBits (n : Nat) (codes : List Nat) : List Byte :=
  let v := codes.foldl (fun a c => a * 2 ^ n + c) 0
  (leBytes (codes.length * n / 8) v).reverse

/-- The codes of a pixel group in their order (R426). -/
def groupCodes (fmt : Nat) (px : List (List Nat)) : List Nat :=
  let c (i k : Nat) : Nat := (px.getD i []).getD k 0
  if fmt = 0 then [c 0 1, c 0 0, c 0 2, c 1 0] else px.flatten

/-- A row of the substituted frame. -/
def warpLine (r : StreamRow) (rows : List (List Byte)) (y : Nat) : List Byte :=
  let gp := groupPixels r.format
  (List.range (r.width / gp)).flatMap (fun g =>
    packBits (sampleBits r.format) (groupCodes r.format ((List.range gp).map (fun i => warpPixel r rows (g * gp + i) y))))

/-- The frame that stands in for a missing one. -/
def warpFrame (r : StreamRow) (rows : List (List Byte)) : List Byte := (List.range r.height).flatMap (warpLine r rows)

/-! ### FRAME_SUBSTITUTE (R428) -/

/-- FRAME_SUBSTITUTE (R428): the instant from which on nothing has been sent, once 500 µs are left to it and no frame for it is
committed. -/
def execFrameSubstitute (stream : Nat) (s : State) : Out :=
  let x := s.stream stream
  .next (match s.streamRow? stream, x.next, x.last with
    | some r, some nx, some f =>
      let g := r.gridFrom nx
      if s.ptime + commitNs < g ∨ x.frames.any (fun y => y.instant == g) = true then s
      else
        let s := s.updStream stream (fun x => { x with next := some (g + r.period) })
        if r.subst then
          let a := s.strbase.toNat + 128 * stream + 28
          let m := r.send stream g (warpFrame r (s.frameRows r f))
          (State.tickFresh { s with sent := s.sent ++ [m] }).devPut a 4 (s.devNat a 4 + 1)
        else s
    | _, _, _ => s)

/-! ### PTP (R408, R416, R429) -/

/-- An offset saturated to 24 bits. -/
def sat24 (x : Int) : BitVec 24 := BitVec.ofInt 24 (max (-8388608) (min 8388607 x))

/-- PTP_MESSAGE (R408, R429): the offset of the device from the grandmaster. The servo may step the clock forward, and slews what is
ahead. -/
def execPtpMessage (_port : Nat) (offset : Int) (s : State) : Out :=
  .next (
    if !s.boot.ready then s
    else
      let n := if offset.natAbs ≤ 50 then min 16 (s.inTol + 1) else 0
      let step := if offset < 0 then min offset.natAbs (Config.freeNat s.fresh) else 0
      State.tickFresh (State.advance { s with
        offset := sat24 offset, inTol := n, locked := n == 16, slew := if 0 < offset then offset.natAbs else 0 } step))

end Sys2Proof.Machine
end

