-- ==== Sys2Proof/Machine/Fabric.lean ====
section
/-! DEFINITION. Ethernet and RDMA: inbound requests, the answers to outbound ones, pause frames and congestion marks (R395, R403 to
R407). -/

namespace Sys2Proof.Machine
open Sys2Proof

/-! ### Queue pairs (R405) -/

def State.qpAt (s : State) (qp : Nat) : Nat := s.qpbase.toNat + 64 * qp
def State.seqOf (s : State) (qp : Nat) : QpSeq := Map.get {} s.qps qp
/-- A queue pair that is not ready begins to count again. -/
def State.unready (s : State) (qp : Nat) : State := { s with qps := Map.erase s.qps qp }
/-- Packets of a peer's request have been taken. -/
def State.took (s : State) (qp n : Nat) : State :=
  { s with qps := Map.put s.qps qp { s.seqOf qp with taken := (s.seqOf qp).taken + packetsOf (s.qpMtu qp) n } }
/-- The engine serves a queue pair: the firmware runs, and STATE is 1. -/
def State.qpReady (s : State) (qp : Nat) : Bool := s.boot.ready && !s.boot.recovery && s.qpState qp == 1
def State.rqPasid (s : State) (qp : Nat) : Nat := s.devNat (s.qpAt qp + 56) 4 % 2 ^ 20
def State.ikey (s : State) (qp : Nat) : W32 := BitVec.ofNat 32 (s.devNat (s.qpAt qp + 60) 4)

/-- An answer to the peer: ACK with its data, or a remote-access NAK. -/
def State.reply (s : State) (qp : Nat) (ok : Bool) (data : List Nat) : State :=
  { s with replies := s.replies ++ [{ req := qp, ok := ok, data := data }] }

/-! ### Translation of inbound accesses (R405) -/

/-- The translation of an inbound access: found, to be asked of the host, a recoverable fault with its reason and the size of its page, or
failed for good. -/
inductive InAns where
  | have (x : Xlat) | ask | fault (reason size : Nat) | bad
  deriving DecidableEq, Repr

def InAns.fails : InAns → Bool
  | .fault _ _ => true
  | .bad => true
  | _ => false

/-- The place of an inbound access: a walk for the PASID's own partition, or the host's translation that the I/O die's cache holds. It is
never parked. -/
def State.inXlat (s : State) (pasid va : Nat) (wr : Bool) : InAns :=
  if 2 ^ 52 ≤ va ∨ va / 2 ^ 48 = 15 then .bad
  else match (s.walk [] ((s.pasidEntry pasid).map (·.part)) pasid va wr).1 with
    | .hit x => if s.poisoned (x.at va) then .bad else .have x
    | .ats _ => match (findTlb (s.die ioDie).dtlb pasid va wr).filter (fun x => x.loc.host) with
      | some x => .have x
      | none => .ask
    | .fault reason size => .fault reason size
    | .bad => .bad

/-- The pieces of `n` bytes at an address that lie in one page of 64 KiB each: address, length. -/
def pieces (va n : Nat) : List (Nat × Nat) :=
  if n = 0 then []
  else (List.range ((va + n - 1) / 65536 + 1 - va / 65536)).map (fun i =>
    let a := max va ((va / 65536 + i) * 65536)
    (a, min (va + n) ((va / 65536 + i + 1) * 65536) - a))

/-- The translations of all pieces, the pieces to be asked of the host, or a failure with its recoverable faults: address, reason, size. -/
inductive InAll where
  | have (l : List (Nat × Nat × Xlat)) | ask (vas : List Nat) | bad (faults : List (Nat × Nat × Nat))
  deriving DecidableEq, Repr

def State.inAll (s : State) (pasid va n : Nat) (wr : Bool) : InAll :=
  let l := (pieces va n).map (fun p => (p, s.inXlat pasid p.1 wr))
  if l.any (fun e => e.2.fails) then
    .bad (l.filterMap (fun e => match e.2 with | .fault reason size => some (e.1.1, reason, size) | _ => none))
  else match l.filter (fun e => e.2 == .ask) with
    | [] => .have (l.filterMap (fun e => match e.2 with | .have x => some (e.1.1, e.1.2, x) | _ => none))
    | as => .ask (as.map (fun e => e.1.1))

/-- Asks the host for the translation of the 64 KiB that an inbound access needs (R398): the peer sends again until it has come, or the
answer is a NAK. -/
def State.askInbound (s : State) (qp pasid : Nat) (wr : Bool) (va : Nat) : State :=
  let page := va / 65536 * 65536
  match s.ats.find? (fun a => a.pasid == pasid && a.va == page && a.die == ioDie) with
  | some a => { s with ats := s.ats.map (fun y => if y = a then { y with inbound := (qp, wr) :: y.inbound.filter (· != (qp, wr)) } else y) }
  | none => { s with ats := s.ats ++ [{ pasid := pasid, va := page, die := ioDie, users := [], inbound := [(qp, wr)] }] }

/-- A recoverable fault of an inbound access writes its record and parks nothing (R393, R405, log 133). -/
def State.faultInbound (s : State) (pasid : Nat) (wr : Bool) (f : Nat × Nat × Nat) : State :=
  s.park (ringDie ioDie) { user := .rdma, pasid := pasid, va := f.1, size := f.2.2, acc := if wr then 1 else 0, reason := f.2.1, src := User.rdma.src }

/-- An inbound access of `n` bytes: `run` with its translations, a NAK, or a question to the host. -/
def State.inbound (s : State) (qp va n : Nat) (wr : Bool) (run : List (Nat × Nat × Xlat) → State) : State :=
  match s.inAll (s.rqPasid qp) va n wr with
  | .bad fs => (fs.foldl (fun s f => s.faultInbound (s.rqPasid qp) wr f) s).reply qp false []
  | .ask vas => vas.foldl (fun s a => s.askInbound qp (s.rqPasid qp) wr a) s
  | .have l => run l

/-- Each page once (R395). -/
def pagesOf (l : List (Nat × Nat × Xlat)) : List Xlat := onePerPage (l.map (fun e => e.2.2))

/-- Writes bytes at translated pieces. -/
def State.writePieces (s : State) (va : Nat) (bs : List Byte) (l : List (Nat × Nat × Xlat)) : State :=
  l.foldl (fun s e => s.writeLoc (e.2.2.at e.1) ((bs.drop (e.1 - va)).take e.2.1)) s

/-! ### Inbound requests (R404, R405) -/

/-- RDMA_WRITE (R395, R405): performed before its ACK. A page in migration is waited for (R396). -/
def execRdmaWrite (qp : Nat) (rkey : W32) (va : W64) (bytes : List Byte) (s : State) : Out :=
  .next (
    if !s.qpReady qp then s.unready qp
    else if rkey ≠ s.ikey qp then s.reply qp false []
    else s.inbound qp va.toNat bytes.length true (fun l =>
      if (pagesOf l).any s.migrating then s
      else ((((pagesOf l).foldl State.countWrite s).writePieces va.toNat bytes l).took qp bytes.length).reply qp true []))

/-- RDMA_READ (R405). -/
def execRdmaRead (qp : Nat) (rkey : W32) (va : W64) (len : Nat) (s : State) : Out :=
  .next (
    if !s.qpReady qp then s.unready qp
    else if rkey ≠ s.ikey qp then s.reply qp false []
    else s.inbound qp va.toNat len false (fun l =>
      (s.took qp len).reply qp true (l.flatMap (fun e => (s.readLoc (e.2.2.at e.1) e.2.1).map BitVec.toNat))))

/-- The receive buffer of the next message (R405): none without a ring. -/
def State.recvBuf (s : State) (qp : Nat) : Option Nat :=
  let n := s.devNat (s.qpAt qp + 48) 4
  if ringSizeOk n && decide (n ≤ 4096) then some (s.devNat (s.qpAt qp + 40) 8 + 4096 * (s.devNat (s.qpAt qp + 52) 4 % n)) else none

/-- The words behind a received message: length, PSN, time. -/
def recvTail (len : Nat) (psn : W32) (time : Nat) : List Byte := leBytes 4 len ++ leBytes 4 psn.toNat ++ leBytes 4 (time / 1024)

/-- How many packets ahead of the expected one a number is, modulo 2^24 (R405). -/
def State.psnAhead (s : State) (qp : Nat) (psn : W32) : Nat :=
  (psn.toNat + 2 ^ 24 - (s.qpNat qp 36 4 + (s.seqOf qp).taken) % 2 ^ 24) % 2 ^ 24

/-- SEND (R395, R405): at most 4,080 bytes into the receive buffer, then RQTAIL advances. One with an earlier number has been received and
is acknowledged again, one with a later number is out of sequence (log 114). -/
def execSend (qp : Nat) (psn : W32) (bytes : List Byte) (s : State) : Out :=
  .next (
    if !s.qpReady qp then s.unready qp
    else if s.psnAhead qp psn ≠ 0 then s.reply qp (decide (2 ^ 23 ≤ s.psnAhead qp psn)) []
    else if 4080 < bytes.length then s.reply qp false []
    else match s.recvBuf qp with
      | none => s.reply qp false []
      | some a =>
        s.inbound qp a bytes.length true (fun l => s.inbound qp (a + 4080) 12 true (fun t =>
          if (pagesOf (l ++ t)).any s.migrating then s
          else
            let s' := (pagesOf (l ++ t)).foldl State.countWrite s
            let s' := (s'.writePieces a bytes l).writePieces (a + 4080) (recvTail bytes.length psn s.ptime) t
            ((s'.devPut (s.qpAt qp + 52) 4 (s.devNat (s.qpAt qp + 52) 4 + 1)).took qp bytes.length).reply qp true [])))

/-! ### Outbound requests (R403, R404, R407) -/

/-- The peer has answered, or the timer has run: congestion control lets packets of the queue pair's port out again (R403, log 99). -/
def State.relieve (s : State) (qp : Nat) : State :=
  let port := s.qpNat qp 1 1 % 2
  if Map.get 0 s.marks port = 0 then s else State.letOut { s with marks := Map.set 0 s.marks port 0 } port

/-- The oldest outstanding request of a queue pair, of one kind. -/
def State.oldestReq (s : State) (qp : Nat) (write : Bool) : Option RdmaReq := s.rdma.find? (fun r => r.qp == qp && r.write == write)
def State.dropReq (s : State) (r : RdmaReq) : State := { s with rdma := s.rdma.erase r }
def State.setReq (s : State) (r r' : RdmaReq) : State := { s with rdma := s.rdma.map (fun x => if x = r then r' else x) }

/-- One more piece of a request is over: the request is, after the last one (R407); the retries begin again. -/
def State.stepReq (s : State) (r : RdmaReq) (n k : Nat) (got : List Byte) : State :=
  if n ≤ r.done + k then s.dropReq r
  else s.setReq r { r with done := r.done + k, got := got, since := s.ptime, retries := 0, rnr := 0 }

/-- RDMA_ACK (R406, R407): the next path-MTU piece is at the peer; after the last one the copy may retire. -/
def execRdmaAck (qp : Nat) (s : State) : Out :=
  let s := s.relieve qp
  .next (match s.oldestReq qp true with
    | none => s
    | some r => match (s.core r.core).cmd? r.cmd with
      | none => s.dropReq r
      | some m =>
        let bs := (m.bytesRead.drop r.done).take (s.qpMtu qp)
        State.stepReq { s with remote := Map.setRange Config.blank s.remote (qp * 2 ^ 64 + r.addr + r.done) bs } r m.c.toNat bs.length [])

/-- The chunks of a copy whose bytes have come. -/
def Cmd.chunksOf (m : Cmd) (bs : List Byte) : List (Option (List Byte)) :=
  m.chunks.zipIdx.map (fun e => let b := (bs.drop (16 * e.2)).take e.1.n; if b.length = e.1.n then some b else none)

/-- RDMA_READ_RESPONSE (R406, R407): the next path-MTU piece of the response. -/
def execRdmaReadResponse (qp : Nat) (bytes : List Byte) (s : State) : Out :=
  let s := s.relieve qp
  .next (match s.oldestReq qp false with
    | none => s
    | some r => match (s.core r.core).cmd? r.cmd with
      | none => s.dropReq r
      | some m =>
        if bytes.length ≠ min (s.qpMtu qp) (m.c.toNat - r.done) then s
        else
          let got := r.got ++ bytes
          (s.updCore r.core (fun k => k.updCmd m.id (fun m => { m with data := m.chunksOf got }))).stepReq r m.c.toNat bytes.length got)

/-- The window address of a copy. -/
def Cmd.windowVa (m : Cmd) : Nat := if isPeer m.a.toNat then m.a.toNat else m.b.toNat

/-- A queue pair enters error: STATE is 2, and every command in flight on it fails (R407). -/
def State.qpError (s : State) (qp : Nat) : State :=
  let s := (s.devPut (s.qpAt qp) 1 2).unready qp
  let (mine, rest) := s.rdma.partition (fun r => r.qp == qp)
  mine.foldl (fun s r => match (s.core r.core).cmd? r.cmd with
    | some m => s.failCmd r.core r.cmd m.windowVa
    | none => s) { s with rdma := rest }

/-- A request is sent again from its first piece that is not acknowledged. -/
def State.resend (s : State) (r : RdmaReq) : State :=
  match (s.core r.core).cmd? r.cmd with
  | some m => s.sendReq r m.c.toNat m.bytesRead
  | none => s

/-- The oldest request is sent again, or its seven retries are used up (R404): those after an RNR NAK, or those of the transport. -/
def State.retryReq (s : State) (qp : Nat) (rnr : Bool) : State :=
  match s.rdma.find? (fun r => r.qp == qp) with
  | none => s
  | some r =>
    if 7 ≤ (if rnr then r.rnr else r.retries) then s.qpError qp
    else
      let r' := if rnr then { r with rnr := r.rnr + 1, since := s.ptime } else { r with retries := r.retries + 1, since := s.ptime }
      (s.setReq r r').resend r'

/-- RDMA_NAK (R404, R407): an error of the peer, a receiver that is not ready, or a packet out of sequence; which is the peer's. -/
def execRdmaNak (qp : Nat) (s : State) : Out :=
  .next (
    if !s.rdma.any (fun r => r.qp == qp) then s
    else match Config.freeNat s.fresh % 3 with
      | 0 => s.tickFresh.qpError qp
      | n => s.tickFresh.retryReq qp (n == 1))

/-- RDMA_ACK_TIMEOUT (R404, R407): 1 ms after the oldest request was last sent; what its port keeps back has not been sent. -/
def execRdmaAckTimeout (qp : Nat) (s : State) : Out :=
  .next (match s.rdma.find? (fun r => r.qp == qp) with
    | none => s
    | some r =>
      if s.ptime < r.since + 1000000 then s
      else if s.held.any (fun x => x.port == s.qpNat qp 1 1 % 2) then s.relieve qp
      else (s.relieve qp).retryReq qp false)

/-! ### Ports (R403) -/

/-- PFC_PAUSE_FRAME (R403): sending on a priority pauses or goes on. -/
def execPfcPauseFrame (port priority : Nat) (pause : Bool) (s : State) : Out :=
  let p := Map.get (0 : BitVec 8) s.paused port
  .next (if 2 ≤ port ∨ 8 ≤ priority then s
    else State.letOut { s with
      paused := Map.set 0 s.paused port (if pause then p ||| (1#8 <<< priority) else p &&& ~~~(1#8 <<< priority)) } port)

/-- ECN_MARK (R403): congestion control is told, and keeps the port's next packets back. -/
def execEcnMark (port : Nat) (s : State) : Out :=
  .next (if 2 ≤ port then s else { s with marks := Map.set 0 s.marks port (Map.get 0 s.marks port + 1) })

end Sys2Proof.Machine
end

