-- ==== Sys2Proof/Machine/Services.lean ====
section
/-! DEFINITION. Identity, attestation and the side-band port: DOE discovery, SPDM, PLDM (R399, R409, R411, R413 to R415). The codes and
the capability word are those of the DMTF and PCIe standards that the rules name (log 60). -/

namespace Sys2Proof.Machine
open Sys2Proof

/-- An answer of a service. -/
def State.serveAns (s : State) (req : Nat) (ok : Bool) (data : List Nat) : State :=
  { s with svcs := s.svcs ++ [{ req := req, ok := ok, data := data }] }

/-- DOE_DISCOVERY (R399): the discovery object and the SPDM object: vendor, type, next index. -/
def execDoeDiscovery (index : Nat) (s : State) : Out :=
  .next (
    if !s.hostUp then s
    else match index with
      | 0 => s.serveAns 0 true [1, 0, 1]
      | 1 => s.serveAns 0 true [1, 1, 0]
      | _ => s.serveAns 0 true [0xFFFF, 0, 0])

/-! ### SPDM (R414) -/

/-- A transport reaches the device: the DOE mailbox over the link, MCTP over the side-band port, which has standby power. -/
def State.spdmUp (s : State) (mctp : Bool) : Bool := if mctp then s.present else s.hostUp
def spdmKey (mctp : Bool) : Nat := if mctp then 1 else 0
def State.conn (s : State) (mctp : Bool) : Spdm := Map.get {} s.spdm (spdmKey mctp)

/-- Serves a request of one transport: `run` gives the connection after it and the answer, or none for a refusal. The request and its
answer join the transcript. -/
def State.spdmServe (s : State) (mctp : Bool) (code : Nat) (args : List Nat) (run : Spdm → Option (Spdm × List Nat)) : State :=
  if !s.spdmUp mctp then s
  else
    let req := code + 256 * spdmKey mctp
    match run (s.conn mctp) with
    | none => s.serveAns req false []
    | some (x, data) =>
      let x : Spdm := { x with transcript := x.transcript ++ code :: (args ++ data) }
      State.serveAns { s with spdm := Map.put s.spdm (spdmKey mctp) x } req true data

/-- GET_VERSION (R414): 1.3; the connection begins anew. -/
def execGetVersion (mctp : Bool) (s : State) : Out :=
  .next (s.spdmServe mctp 0x84 [] (fun _ => some ({ version := true }, [0x13])))

/-- GET_CAPABILITIES (R414): certificates, challenges, signed measurements. -/
def execGetCapabilities (mctp : Bool) (s : State) : Out :=
  .next (s.spdmServe mctp 0xE1 [] (fun x => if x.version then some ({ x with caps := true }, [0x16]) else none))

/-- NEGOTIATE_ALGORITHMS (R414): ECDSA P-521 with SHA-512, and nothing else. -/
def execNegotiateAlgorithms (mctp offersP521 offersSha512 : Bool) (s : State) : Out :=
  .next (s.spdmServe mctp 0xE3 [] (fun x =>
    if x.caps && offersP521 && offersSha512 then some ({ x with algs := true }, []) else none))

def byteNats (l : List Byte) : List Nat := l.map BitVec.toNat

/-- GET_DIGESTS (R414): of slot 0. -/
def execGetDigests (mctp : Bool) (s : State) : Out :=
  .next (s.spdmServe mctp 0x81 [] (fun x => if x.algs then some (x, byteNats (sha512 s.flash.certs)) else none))

/-- GET_CERTIFICATE (R413, R414): a part of the chain of slot 0. -/
def execGetCertificate (mctp : Bool) (slot off len : Nat) (s : State) : Out :=
  .next (s.spdmServe mctp 0x82 [slot, off, len] (fun x =>
    if x.algs && slot == 0 && decide (off < s.flash.certs.length) then some (x, byteNats ((s.flash.certs.drop off).take len)) else none))

/-- The bytes that are signed of a transcript: its numbers of 32 bytes (log 113). -/
def transcriptBytes (l : List Nat) : List Byte := l.flatMap (leBytes 32)
/-- A signature over a transcript (R413, R414). -/
def Spdm.signed (x : Spdm) (n code : Nat) (args data : List Nat) : List Nat :=
  byteNats (identitySign n (transcriptBytes (x.transcript ++ code :: (args ++ data))))

/-- CHALLENGE (R414): of slot 0. -/
def execChallenge (mctp : Bool) (slot : Nat) (nonce : Nat) (s : State) : Out :=
  .next (s.tickFresh.spdmServe mctp 0x83 [slot, nonce] (fun x =>
    if x.algs && slot == 0 then some (x, x.signed s.fresh 0x83 [slot, nonce] []) else none))

/-- The measurement of a block (R414). -/
def State.measurement (s : State) (block : Nat) : List Nat :=
  match block with
  | 1 => Config.romInfo
  | 2 => byteNats (sha512 s.flash.image)
  | 3 => (List.range 4).map (fun d => (Config.disabled d).toNat) ++ [s.flash.svnMin.toNat, s.flash.keySlot]
  | 4 => byteNats s.flash.measure
  | _ => [if s.boot.recovery then 1 else 0, s.boot.fails.toNat]

/-- What GET_MEASUREMENTS asks for: 0 the number of blocks, 255 all of them, else one. -/
def State.measured (s : State) (block : Nat) : Option (List Nat) :=
  if block = 0 then some [5]
  else if block = 255 then some ((List.range 5).flatMap (fun i => s.measurement (i + 1)))
  else if block ≤ 5 then some (s.measurement block)
  else none

/-- GET_MEASUREMENTS (R414): with a signature. -/
def execGetMeasurements (mctp : Bool) (block : Nat) (nonce : Nat) (s : State) : Out :=
  .next (s.tickFresh.spdmServe mctp 0xE0 [block, nonce] (fun x =>
    match x.algs, s.measured block with
    | true, some d => some (x, d ++ x.signed s.fresh 0xE0 [block, nonce] d)
    | _, _ => none))

/-! ### PLDM (R415) -/

/-- PLDM_TYPE0_REQUEST (R415): the types served. -/
def execPldmType0Request (s : State) : Out := .next (if s.present then s.serveAns 0x1000 true [0, 2, 5] else s)

/-- PLDM_SENSOR_READ (R415): 0 to 3 the dies' temperatures, 4 the module's power, 5 BOOTSTAT; none without main power. -/
def execPldmSensorRead (sensor : Nat) (s : State) : Out :=
  .next (
    if !s.present then s
    else if !s.mainPower ∨ 5 < sensor then s.serveAns 0x1002 false []
    else s.serveAns 0x1002 true [if sensor < 4 then (s.die sensor).temp.toNat else if sensor = 4 then s.power.toNat else s.bootstat])

/-- The component's place takes the image. -/
def imageFits (component : Nat) (image : List Byte) : Bool :=
  (component == 1 || component == 2) && decide (image.length ≤ (imageArea (component == 2)).2)

/-- The flash takes a valid image: a recovery image its place, a primary image when ACTIVATE comes; the recovery image, which takes no
ACTIVATE, puts it in its place at once (R412, R415, R423, log 115). -/
def Flash.takeImage (fl : Flash) (recovery : Bool) (component : Nat) (image : List Byte) : Flash :=
  if component = 2 ∨ recovery = true then
    { fl with updating := none, bytes := Map.setRange Config.blank fl.bytes (imageArea (component == 2)).1 image }
  else { fl with updating := none, pend := some image }

/-- PLDM_FIRMWARE_UPDATE (R415, R423): an agent's first request puts it in update mode, its second writes a valid image and leaves the
mode. Another agent is refused. -/
def execPldmFirmwareUpdate (pcie : Bool) (component : Nat) (image : List Byte) (s : State) : Out :=
  .next (
    if !(if pcie then s.hostUp && s.boot.ready else s.present) then s
    else match s.flash.updating with
      | none => State.serveAns { s with flash := { s.flash with updating := some pcie } } 0x1005 true []
      | some a =>
        if a ≠ pcie then s.serveAns 0x1005 false []
        else if imageFits component image && s.flash.imageOk image then
          State.serveAns { s with flash := s.flash.takeImage s.boot.recovery component image } 0x1005 true []
        else State.serveAns { s with flash := { s.flash with updating := none } } 0x1005 false [])

end Sys2Proof.Machine
end

