-- ==== Sys2Proof/Machine/Clock.lean ====
section
/-! DEFINITION. The passing of time: core cycles, nanoseconds of PTP time, the interval of %tick (R43, R376, R379, R408). -/

namespace Sys2Proof.Machine

/-- `n` cycles pass on a core (%clock, R43). -/
def State.cycles (s : State) (c n : Nat) : State := s.updCore c (fun k => { k with clock := k.clock + n })

/-- The interval of %tick runs down. -/
def Core.runTick (k : Core) (n : Nat) : Core := { k with tickLeft := k.tickLeft - n }

/-- `n` nanoseconds pass. The PTP clock takes back what it is ahead by at most 500 ppm, and never decreases (R408). -/
def State.passTime (s : State) (n : Nat) : State :=
  if !(s.mainPower && s.present) then s
  else
    let back := min s.slew (n / 2000)
    State.advance { s with
      slew := s.slew - back, cores := s.cores.mapVal (fun c k => if 208 ≤ c then Core.runTick k n else k) } (n - back)

/-- TICK (R302, R379): the interval has elapsed and begins again. -/
def execTick (cc : Nat) (s : State) : Out :=
  let k := s.core (208 + cc)
  .next (
    if 8 ≤ cc ∨ k.tickIv = 0 ∨ 0 < k.tickLeft then s
    else (s.updCore (208 + cc) (fun k => { k with tickLeft := k.tickIv.toNat * 1000 })).raiseEvt cc evTICK)

end Sys2Proof.Machine
end

