-- ==== Sys2Proof/Machine/Conv.lean ====
section
/-! DEFINITION. Conversion and block quantizing: 0x70 to 0x74 (R226 to R230). -/

namespace Sys2Proof.Machine
open Sys2Proof

/-- CVT (R226): the result in 64 bits, the flags, SATC. -/
def convert (dt st mode : Nat) (a : W64) : W64 × BitVec 4 × Bool :=
  match fmtOf st, fmtOf dt with
  | none, none =>
    let x := elemVal (st % 2 == 0) (elemW st) a 0
    let (y, sat) := if mode = 1 then clampInt (dt % 2 == 0) (elemW dt) x else (x, false)
    (packElems dt [y], 0, sat)
  | none, some fd =>
    let r := fd.ofDyadic mode (elemVal (st % 2 == 0) (elemW st) a 0) 0
    (r.1.setWidth 64, r.2, false)
  | some fs, some fd =>
    let r := fd.ofVal mode (fs.unpack (a.setWidth 32))
    (r.1.setWidth 64, r.2, false)
  | some fs, none =>
    let r := floatToInt mode (dt % 2 == 0) (elemW dt) (fs.unpack (a.setWidth 32))
    (packElems dt [r.1], r.2.1, r.2.2)

/-- The mode field of CVT, FN[1:0]. -/
def WForm.mode (f : WForm) : Nat := (f.fn.extractLsb' 0 2).toNat

/-- The operands of CVT: source type FN[5:2], destination type FN[9:6]. -/
def cvtSpec (f : WForm) : OpSpec := specW1 f (nregs f.var) (some f.var) (nregs f.ty)

/-- CVT (R226): destination type FN[9:6], source type FN[5:2]. -/
def execCvt (f : WForm) (s : State) : Out :=
  let dt := f.ty
  let st := f.var
  alu (cvtSpec f) (fun _ e =>
    let r := convert dt st (WForm.mode f) ((e.op 0).ofTy st)
    { Res.ofTy f.d dt r.1 with fpf := r.2.1, satc := r.2.2 }) s

/-- PACK2 (R227): the bits, the flags, SATC. -/
def pack2 (ty rm : Nat) (sat : Bool) (a b : W32) : W32 × BitVec 4 × Bool :=
  match fmtOf ty with
  | some fm =>
    let r := perElem true (fun i => fm.ofVal rm (f32.unpack (if i = 0 then a else b)))
    (r.1, r.2, false)
  | none =>
    let xs := if ty = 6 then [a.toInt, b.toInt]
      else [elemVal true 16 (a.setWidth 64) 0, elemVal true 16 (a.setWidth 64) 1, elemVal true 16 (b.setWidth 64) 0,
        elemVal true 16 (b.setWidth 64) 1]
    let (ys, c) := satElems ty 0 sat xs
    ((packElems ty ys).setWidth 32, 0, c)

/-- PACK2 (R227). -/
def execPack2 (f : WForm) (s : State) : Out :=
  let ty := f.ty
  let st := if isPacked ty then 3 else if ty = 6 then 0 else 6
  alu (specW2 f 1 (some st) 1 (some st) 1) (fun _ e =>
    let r := pack2 ty f.rm f.sat (e.op 0).lo (e.op 1).lo
    { Res.one f.d.toNat r.1 ty with fpf := r.2.1, satc := r.2.2 }) s

/-- UNPACK (R228): element FN[3:2]; FN[5] asks for zero-extension. -/
def execUnpack (f : WForm) (s : State) : Out :=
  let ty := f.ty
  let k := f.rm
  let zx := f.fn.getLsbD 5
  alu (specW1 f 1 (some ty) 1) (fun _ e =>
    let a := (e.op 0).lo
    match fmtOf ty with
    | some fm =>
      let r := f32.ofVal 0 (fm.unpack (half a k))
      { Res.one f.d.toNat r.1 3 with fpf := r.2 }
    | none => Res.one f.d.toNat (BitVec.ofInt 32 (elemVal (!zx) (elemW ty) (a.setWidth 64) k)) (if zx then 1 else 0)) s

/-- The block of a lane: with W = 64 the halves of the segment, else the segment (R229). -/
def blockOf (w t : Nat) : Nat := laneOf t / min w 32

/-- BFPQ (R229): every active thread takes its part of its block, whose values are those of the active threads of this issue. -/
def execBfpq (f : WForm) (s : State) : Out :=
  let w := f.ty
  let g := gather (specW1 f 1 (some 3) 1) s
  let sw := (s.core s.cur.core).segW
  let res (e : Exec) : Res :=
    let mates := g.execs.filter (fun x => blockOf sw x.lead == blockOf sw e.lead)
    let scale := bfpScale (mates.map (fun x => f32.unpack (x.op 0).lo))
    if f.var = 0 then
      let m := bfpMant w scale (f32.unpack (e.op 0).lo)
      { Res.one f.d.toNat (BitVec.ofInt 32 m.1) 0 with fpf := m.2 }
    else Res.one f.d.toNat (BitVec.ofNat 32 scale) 1
  .next (g.execs.foldl (fun s e => s.finishAll e (res e)) (s.settle (specW1 f 1 (some 3) 1) g))

/-- BFPD (R230): width FN[9:6], result type FN[5:4], rounding mode FN[3:2]. -/
def execBfpd (f : WForm) (s : State) : Out :=
  let w := f.ty
  let dt := match f.hi with | 0 => 3 | 1 => 0xA | _ => 0xB
  alu (specW2 f 1 (some 0) 1 (some 1) 1) (fun _ e =>
    let m := asInt true w ((e.op 0).lo.toNat % 2 ^ w)
    let x := bfpVal w m ((e.op 1).lo.toNat % 256)
    let r := ((fmtOf dt).getD f32).ofVal f.rm x
    { Res.one f.d.toNat r.1 dt with fpf := r.2 }) s

end Sys2Proof.Machine
end

