-- ==== Sys2Proof/Machine/Pick.lean ====
section
/-! DEFINITION. The choice of an issue cycle (R16 to R18, R21): which threads are ready, the phrase, the ports; the scoreboard as it stands
before an issue, and the guard events. -/

namespace Sys2Proof.Machine
open Sys2Proof

/-! ### The scoreboard before an issue (R16, R168) -/

/-- The operands of an instruction, as its meaning names them; none where it names no register. -/
def operandsOf : Instr → Option OpSpec
  | .add f | .sub f | .mul f | .div f | .rem f | .min f | .max f | .absd f | .addc f | .subb f => some (specW f f.ty)
  | .mad f | .sad f | .funnel f | .bfi f => some (specV f none none none)
  | .madhiI f => some (specV f (some 0) (some 0) (some 0))
  | .madhiN f => some (specV f (some 1) (some 1) (some 1))
  | .addi f | .muli f | .andi f | .ori f | .xori f | .shi f | .movih f => some (specI f none)
  | .and f | .or f | .xor f | .andn f => some (bitSpec f)
  | .shl f | .shr f | .sar f | .rotl f | .lea f => some (specW2 f (nregs f.ty) (chk f.ty) 1 none (nregs f.ty))
  | .bfx f => some (specW2 f 1 (chk f.ty) 1 none 1)
  | .bitop f => some (bitopSpec f)
  | .permb f => some (specW2 f 1 none 1 none 1)
  | .setp f => some (setpSpec f)
  | .setpi f => some (setpiSpec f)
  | .sel f => some (selSpec f)
  | .pmov f => some (pmovSpec f)
  | .vote f => some (voteSpec f)
  | .matchG f => some (matchSpec f)
  | .reduce f | .scan f => some (reduceSpec f)
  | .movi f => some { h := f.h, dsts := [dstD f.d 1] }
  | .mov f | .tagset f | .tagget f => some (specW1 f 1 none 1)
  | .movx f => some (specW1 f 2 none 2)
  | .fadd f | .fsub f | .fmul f | .fmin f | .fmax f | .hadd2 f | .hmul2 f | .hmin2 f | .hmax2 f => some (specW f f.ty)
  | .funary f | .fclass f | .unpack f => some (specW1 f 1 (some f.ty) 1)
  | .fspecial f | .bfpq f => some (specW1 f 1 (some 3) 1)
  | .ffma f => some (specV f (some 3) (some 3) (some 3))
  | .fmuli f => some (specI f (some 3))
  | .hfma2 f => some (specV f (some 4) (some 4) (some 4))
  | .bfma2 f => some (specV f (some 5) (some 5) (some 5))
  | .hdot2 f => some (specV f (some 4) (some 4) (some 3))
  | .bdot2 f => some (specV f (some 5) (some 5) (some 3))
  | .idot4 f => some (specV f (some 7) (some 7) (some 0))
  | .idot4n f => some (specV f (some 7) (some 7) (some 1))
  | .cvt f => some (cvtSpec f)
  | .pack2 f => some (specW2 f 1 none 1 none 1)
  | .bfpd f => some (specW2 f 1 (some 0) 1 (some 1) 1)
  | .jmpi f | .calli f => some { CForm.spec f true with endsBlock := true }
  | .join f => some (joinSpec f)
  | .leave f => some (leaveSpec f)
  | .bara f | .bars f => some (barSpec f)
  | .recruit f => some (recruitSpec f)
  | .iter f => some (iterSpec f)
  | .contrib f => some (contribSpec f)
  | .rjoin f => some (rjoinSpec f)
  | .dispense f => some (dispSpec f)
  | .ld8 f | .ld8s f | .ld16 f | .ld16s f | .ld32 f => if f.d = 0 then none else some (loadSpec (.words 1) f)
  | .ld64 f => if f.d = 0 then none else some (loadSpec (.words 2) f)
  | .ld128 f => if f.d = 0 then none else some (loadSpec (.words 4) f)
  | .st8 f | .st16 f | .st32 f => some (storeSpec 1 f)
  | .st64 f => some (storeSpec 2 f)
  | .st128 f => some (storeSpec 4 f)
  | .atom f => some (atomSpec f)
  | .cas f => some (casSpec f)
  | .rmap f => some (rmapSpec f)
  | .cpy f => some (cpySpec f)
  | .cpyd f => some (cpydSpec f)
  | .acpy f => some (acpySpec f)
  | .aclr f => some (aclrSpec f)
  | .gatom f => some (gatomSpec f)
  | .semwaitTake f | .semwaitEq f | .sempost f => some (semSpec f)
  | .tbinit f => some (tbinitSpec f)
  | .tbtest f => some (tbtestSpec f)
  | .sjoin f => some (sjoinSpec f)
  | .sleave f => some (sleaveSpec f)
  | .mma f => some (mmaSpec f)
  | .mwait f => some (mwaitSpec f)
  | .mprogProg f => some (mprogSpec f)
  | .mprogCopy f => some (mcopySpec f)
  | .mprogLast f => some (mlastSpec f)
  | .mresumeLoad f => some (mloadSpec f)
  | .mresumeTick f => some (mtickSpec f)
  | .cvclr f => some (cvclrSpec f)
  | .cvpath f | .cvscan f => some (cvSpec f)
  | .cvbox f => some (specW2 f 2 none 2 none 2)
  | .cvsaveImg f | .cvsaveCtl f | .cvsaveQ f | .cvloadImg f | .cvloadCtl f | .cvloadQ f => some (cvimgSpec f)
  | .mfs f => some (mfsSpec f)
  | .mts f | .evtWrite f | .bcntWrite f | .tctxWrite f | .tsaveWrite f | .tloadWrite f | .sphaseWrite f => some (mtsSpec f)
  | .iflush f => some (iflushSpec f)
  | .wfi f | .kpend f => some (clSpec f [])
  | .ipi f => some (clSpec f [{ reg := f.a.toNat, idx := 0 }])
  | .qbind f => some (qbindSpec f)
  | .qunbind f => some (qunbindSpec f)
  | .nop _ | .bra _ | .call _ | .ret _ | .exit _ | .yield _ | .trap _ | .brk _ | .holdx _ | .sleep _ | .plogic _ | .barw _
  | .lend _ | .reclaim _ | .rget _ | .rput _ | .fence _ | .ntdrain _ | .runmap _ | .wback _ | .tbwait _ | .mfence _ | .mstop _
  | .mresume _ | .cvstop _ | .cvresume _ | .eret _ | .dump _ | .dumpd _ | .load _ | .run _ | .free _ | .dumpImageWrite _
  | .preemptDelivery _ | .segmentGuard _ _ | .threadAgeGuard _ _ | .holdTimeout _ _ | .sleepExpire _ _ | .yieldExpire _ _
  | .bartimeout _ _ | .subordinateKill _ _ | .loadDataReturn _ _ | .lineFillComplete _ _ _ | .lineWritebackComplete _ _ _
  | .forwardedWritePerform _ _ _ | .ntWriteback _ _ _ | .promotionRequest _ | .icacheFill _ _ _ | .copyStart _ _
  | .copyRetire _ _ _ | .semwaitSucceed _ _ _ | .sempostPerform _ _ _ | .dispenserClaim _ _ | .shareRevocation _ | .matrixOpStart _
  | .matrixKblock _ | .matrixOpEnd _ | .covCommandStart _ | .covPathRecord _ | .pageWalkComplete _ _ | .fqheadWrite _ _
  | .frespRetry _ _ | .frespFail _ _ | .invcmd _ | .invalidationComplete | .miggo _ | .migrationRound
  | .atsTranslationCompletion _ _ _ _ | .priResponse _ _ | .atsInvalidateRequest _ _ _ | .kwrWrite _ _ _ _ | .queueLookahead _ _
  | .launchPacket _ _ | .callPacket _ | .returnPacket _ | .joinPacket _ | .condPacket _ _ | .signalPacket _ _ | .waitPacket _
  | .waitSatisfied _ _ | .waitTimeout _ | .framePacket _ | .nopPacket _ | .instanceEnd _ | .coreAllocation _ | .launchWatchdog _
  | .tick _ | .gangTick _ | .saveDeadline _ | .prestop _ | .parkThreshold _ | .apply _ | .activate _ | .diereset _ _ | .rststatRead
  | .mmioRegisterWrite _ _ _ _ | .bar2Access _ _ _ | .telemetryRefresh | .frameEmit _ | .frameSubstitute _ | .bootctlWarmStart
  | .bootctlColdStart | .powerOn | .fundamentalReset | .hotReset | .linkDown | .flr _ | .surpriseRemoval | .startTimeout
  | .rdmaWrite _ _ _ _ | .rdmaRead _ _ _ _ | .send _ _ _ | .rdmaAck _ | .rdmaReadResponse _ _ | .rdmaNak _ | .rdmaAckTimeout _
  | .ptpMessage _ _ | .doeDiscovery _ | .getVersion _ | .getCapabilities _ | .negotiateAlgorithms _ _ _ | .getDigests _
  | .getCertificate _ _ _ _ | .challenge _ _ _ | .getMeasurements _ _ _ | .pldmType0Request | .pldmSensorRead _
  | .pldmFirmwareUpdate _ _ _ | .ready | .linkUp | .flrComplete _ | .dieResetComplete _ | .configurationRequest _ _
  | .windowAccessAccepted _ _ | .portLinkChange _ _ | .pfcPauseFrame _ _ _ | .ecnMark _ | .mainPowerLoss | .uncorrectableError _ _
  | .droopEvent _ => none

/-- The word that thread `t` issues next, and whether it is the last of its block; none where its header does not let it issue, or a line
is not in the instruction cache. -/
def Core.nextWord (k : Core) (t : Nat) : Option (W64 × Bool) :=
  let th := k.thread t
  let blk := match th.blk with
    | some b => some b
    | none => if th.pc.toNat % 8 = 0 then (k.fetch th.pc).bind (fun h =>
        if headerOk h == HdrVerdict.ok && (!th.vec || vectorOk h) then some (th.pc, h) else none) else none
  let pc := if th.blk.isSome then th.pc else th.pc + 8
  blk.bind (fun b => (k.fetch pc).map (fun w => (w, pc == b.1 + 8 * BitVec.ofNat 64 (hdrLen b.2))))

/-- Thread `t` waits on the register scoreboard: its next instruction, issued alone, would wait (R16, R119). -/
def Core.scoreboard (k : Core) (c t : Nat) : Bool :=
  match k.nextWord t with
  | none => false
  | some (w, last) => match (decode w).bind operandsOf with
    | none => false
    | some o => !o.refusedAt c last && (match o.front k w t with | .block _ => true | _ => false)

/-! ### The choice (R17, R18) -/

/-- The ready threads of a phrase (R16). -/
def State.readyTids (s : State) (c p : Nat) : List Nat :=
  ((s.core c).phraseTids p).filter (fun t => s.ready c t && !(s.core c).scoreboard c t)

/-- Round-robin: the first ready phrase of the slot from `start` on. -/
def State.pickPhrase (s : State) (c slot start : Nat) : Option Nat :=
  ((List.range 8).map (fun i => (start + i) % 8 * 4 + slot)).find? (fun p => s.readyTids c p != [])

/-- An instruction whose threads of one cycle are served in lane order, whatever port they are on (R116, R121): 1 RECRUIT, 2 ITER. -/
def laneServed : Instr → Nat
  | .recruit _ => 1
  | .iter _ => 2
  | _ => 0

/-- The order in which a port's threads are served. -/
def Core.servedAs (k : Core) (p : Port) : Nat :=
  match (p.set.head?.bind k.nextWord).bind (fun x => decode x.1) with
  | some i => laneServed i
  | none => 0

/-- Insertion by lane. -/
def insertPort (p : Port) : List Port → List Port
  | [] => [p]
  | q :: qs => if p.set.headD 0 < q.set.headD 0 then p :: q :: qs else q :: insertPort p qs

/-- The ports of a cycle in the order in which they take effect: port 0 before port 1, but RECRUITs, and ITERs, of both ports thread by thread
in ascending lane order (R116, R121, R250). -/
def Core.orderPorts (k : Core) (ps : List Port) : List Port :=
  match ps with
  | p :: q :: [] =>
    if k.servedAs p ≠ 0 ∧ k.servedAs p = k.servedAs q then
      (ps.flatMap (fun x => x.set.map (fun t => { x with set := [t] }))).foldl (fun l x => insertPort x l) []
    else ps
  | _ => ps

/-- One issue cycle of a slot (R17, R18, R21): the ports are filled; each is issued by a step of its own. -/
def State.issueCycle (s : State) (c slot : Nat) : State :=
  let s := s.updCore c (fun k => k.beforeIssue slot)
  match s.pickPhrase c slot (Map.get 0 (s.core c).rr slot) with
  | none => s
  | some p =>
    let k := s.core c
    let ready := s.readyTids c p
    let pcs := k.portPcs p ready
    let ports := pcs.flatMap (fun pc => splitByBlk k c p pc (ready.filter (fun t => (k.thread t).pc == pc)))
    let ports := k.orderPorts ports
    let k := k.countCycle p
    let k := { k with rr := Map.set 0 k.rr slot ((ctxOf (p * 64) + 1) % 8) }
    let k := ((k.phraseTids p).filter k.holdDue).foldl (fun k t => k.updThread t Thread.pop) k
    { s.updCore c (fun _ => k) with ports := ports }

/-- The phrase that a slot would choose, and its ready threads. -/
def State.nextPhrase (s : State) (c slot : Nat) : Option (Nat × List Nat) :=
  let s := s.updCore c (fun k => k.beforeIssue slot)
  (s.pickPhrase c slot (Map.get 0 (s.core c).rr slot)).map (fun p => (p, s.readyTids c p))

/-! ### The guard events (R18) -/

/-- SEGMENT_GUARD (R18): an issue cycle in which the guard is in force. -/
def execSegmentGuard (core slot : Nat) (s : State) : Out :=
  match s.nextPhrase core slot with
  | some (p, ready) => .next (if (((s.core core).beforeIssue slot).segGuard p ready).isSome then s.issueCycle core slot else s)
  | none => .next s

/-- THREAD_AGE_GUARD (R18): an issue cycle in which this guard is in force and the segment guard is not. -/
def execThreadAgeGuard (core slot : Nat) (s : State) : Out :=
  match s.nextPhrase core slot with
  | some (p, ready) =>
    let k := (s.core core).beforeIssue slot
    .next (if (k.segGuard p ready).isNone && (k.ageGuard ready).isSome then s.issueCycle core slot else s)
  | none => .next s

end Sys2Proof.Machine
end

