-- ==== Sys2Proof/Machine/Dispatch.lean ====
section
/-! DEFINITION. Dispatch: one arm per constructor. -/

namespace Sys2Proof.Machine

def exec (i : Instr) (s : State) : Host.Outcome State Fault Refusal :=
  match i with
  | .nop f => Sys2Proof.Machine.execNop f s
  | .bra f => Sys2Proof.Machine.execBra f s
  | .call f => Sys2Proof.Machine.execCall f s
  | .jmpi f => Sys2Proof.Machine.execJmpi f s
  | .calli f => Sys2Proof.Machine.execCalli f s
  | .ret f => Sys2Proof.Machine.execRet f s
  | .exit f => Sys2Proof.Machine.execExit f s
  | .yield f => Sys2Proof.Machine.execYield f s
  | .trap f => Sys2Proof.Machine.execTrap f s
  | .brk f => Sys2Proof.Machine.execBrk f s
  | .holdx f => Sys2Proof.Machine.execHoldx f s
  | .sleep f => Sys2Proof.Machine.execSleep f s
  | .add f => Sys2Proof.Machine.execAdd f s
  | .sub f => Sys2Proof.Machine.execSub f s
  | .mul f => Sys2Proof.Machine.execMul f s
  | .mad f => Sys2Proof.Machine.execMad f s
  | .madhiI f => Sys2Proof.Machine.execMadhiI f s
  | .madhiN f => Sys2Proof.Machine.execMadhiN f s
  | .div f => Sys2Proof.Machine.execDiv f s
  | .rem f => Sys2Proof.Machine.execRem f s
  | .min f => Sys2Proof.Machine.execMin f s
  | .max f => Sys2Proof.Machine.execMax f s
  | .absd f => Sys2Proof.Machine.execAbsd f s
  | .addi f => Sys2Proof.Machine.execAddi f s
  | .muli f => Sys2Proof.Machine.execMuli f s
  | .addc f => Sys2Proof.Machine.execAddc f s
  | .subb f => Sys2Proof.Machine.execSubb f s
  | .sad f => Sys2Proof.Machine.execSad f s
  | .and f => Sys2Proof.Machine.execAnd f s
  | .or f => Sys2Proof.Machine.execOr f s
  | .xor f => Sys2Proof.Machine.execXor f s
  | .andn f => Sys2Proof.Machine.execAndn f s
  | .shl f => Sys2Proof.Machine.execShl f s
  | .shr f => Sys2Proof.Machine.execShr f s
  | .sar f => Sys2Proof.Machine.execSar f s
  | .rotl f => Sys2Proof.Machine.execRotl f s
  | .andi f => Sys2Proof.Machine.execAndi f s
  | .ori f => Sys2Proof.Machine.execOri f s
  | .xori f => Sys2Proof.Machine.execXori f s
  | .shi f => Sys2Proof.Machine.execShi f s
  | .funnel f => Sys2Proof.Machine.execFunnel f s
  | .bfx f => Sys2Proof.Machine.execBfx f s
  | .bfi f => Sys2Proof.Machine.execBfi f s
  | .bitop f => Sys2Proof.Machine.execBitop f s
  | .setp f => Sys2Proof.Machine.execSetp f s
  | .setpi f => Sys2Proof.Machine.execSetpi f s
  | .plogic f => Sys2Proof.Machine.execPlogic f s
  | .sel f => Sys2Proof.Machine.execSel f s
  | .pmov f => Sys2Proof.Machine.execPmov f s
  | .vote f => Sys2Proof.Machine.execVote f s
  | .matchG f => Sys2Proof.Machine.execMatchG f s
  | .permb f => Sys2Proof.Machine.execPermb f s
  | .lea f => Sys2Proof.Machine.execLea f s
  | .movi f => Sys2Proof.Machine.execMovi f s
  | .movih f => Sys2Proof.Machine.execMovih f s
  | .mov f => Sys2Proof.Machine.execMov f s
  | .movx f => Sys2Proof.Machine.execMovx f s
  | .fadd f => Sys2Proof.Machine.execFadd f s
  | .fsub f => Sys2Proof.Machine.execFsub f s
  | .fmul f => Sys2Proof.Machine.execFmul f s
  | .ffma f => Sys2Proof.Machine.execFfma f s
  | .fmin f => Sys2Proof.Machine.execFmin f s
  | .fmax f => Sys2Proof.Machine.execFmax f s
  | .funary f => Sys2Proof.Machine.execFunary f s
  | .fspecial f => Sys2Proof.Machine.execFspecial f s
  | .fclass f => Sys2Proof.Machine.execFclass f s
  | .fmuli f => Sys2Proof.Machine.execFmuli f s
  | .hadd2 f => Sys2Proof.Machine.execHadd2 f s
  | .hmul2 f => Sys2Proof.Machine.execHmul2 f s
  | .hfma2 f => Sys2Proof.Machine.execHfma2 f s
  | .bfma2 f => Sys2Proof.Machine.execBfma2 f s
  | .hmin2 f => Sys2Proof.Machine.execHmin2 f s
  | .hmax2 f => Sys2Proof.Machine.execHmax2 f s
  | .hdot2 f => Sys2Proof.Machine.execHdot2 f s
  | .bdot2 f => Sys2Proof.Machine.execBdot2 f s
  | .idot4 f => Sys2Proof.Machine.execIdot4 f s
  | .idot4n f => Sys2Proof.Machine.execIdot4n f s
  | .cvt f => Sys2Proof.Machine.execCvt f s
  | .pack2 f => Sys2Proof.Machine.execPack2 f s
  | .unpack f => Sys2Proof.Machine.execUnpack f s
  | .bfpq f => Sys2Proof.Machine.execBfpq f s
  | .bfpd f => Sys2Proof.Machine.execBfpd f s
  | .tagset f => Sys2Proof.Machine.execTagset f s
  | .tagget f => Sys2Proof.Machine.execTagget f s
  | .reduce f => Sys2Proof.Machine.execReduce f s
  | .scan f => Sys2Proof.Machine.execScan f s
  | .join f => Sys2Proof.Machine.execJoin f s
  | .leave f => Sys2Proof.Machine.execLeave f s
  | .bara f => Sys2Proof.Machine.execBara f s
  | .bars f => Sys2Proof.Machine.execBars f s
  | .barw f => Sys2Proof.Machine.execBarw f s
  | .lend f => Sys2Proof.Machine.execLend f s
  | .recruit f => Sys2Proof.Machine.execRecruit f s
  | .iter f => Sys2Proof.Machine.execIter f s
  | .contrib f => Sys2Proof.Machine.execContrib f s
  | .rjoin f => Sys2Proof.Machine.execRjoin f s
  | .reclaim f => Sys2Proof.Machine.execReclaim f s
  | .rget f => Sys2Proof.Machine.execRget f s
  | .rput f => Sys2Proof.Machine.execRput f s
  | .dispense f => Sys2Proof.Machine.execDispense f s
  | .ld8 f => Sys2Proof.Machine.execLd8 f s
  | .ld8s f => Sys2Proof.Machine.execLd8s f s
  | .ld16 f => Sys2Proof.Machine.execLd16 f s
  | .ld16s f => Sys2Proof.Machine.execLd16s f s
  | .ld32 f => Sys2Proof.Machine.execLd32 f s
  | .ld64 f => Sys2Proof.Machine.execLd64 f s
  | .ld128 f => Sys2Proof.Machine.execLd128 f s
  | .st8 f => Sys2Proof.Machine.execSt8 f s
  | .st16 f => Sys2Proof.Machine.execSt16 f s
  | .st32 f => Sys2Proof.Machine.execSt32 f s
  | .st64 f => Sys2Proof.Machine.execSt64 f s
  | .st128 f => Sys2Proof.Machine.execSt128 f s
  | .atom f => Sys2Proof.Machine.execAtom f s
  | .cas f => Sys2Proof.Machine.execCas f s
  | .fence f => Sys2Proof.Machine.execFence f s
  | .ntdrain f => Sys2Proof.Machine.execNtdrain f s
  | .rmap f => Sys2Proof.Machine.execRmap f s
  | .runmap f => Sys2Proof.Machine.execRunmap f s
  | .wback f => Sys2Proof.Machine.execWback f s
  | .cpy f => Sys2Proof.Machine.execCpy f s
  | .cpyd f => Sys2Proof.Machine.execCpyd f s
  | .acpy f => Sys2Proof.Machine.execAcpy f s
  | .gatom f => Sys2Proof.Machine.execGatom f s
  | .semwaitTake f => Sys2Proof.Machine.execSemwaitTake f s
  | .semwaitEq f => Sys2Proof.Machine.execSemwaitEq f s
  | .sempost f => Sys2Proof.Machine.execSempost f s
  | .tbinit f => Sys2Proof.Machine.execTbinit f s
  | .tbwait f => Sys2Proof.Machine.execTbwait f s
  | .tbtest f => Sys2Proof.Machine.execTbtest f s
  | .sjoin f => Sys2Proof.Machine.execSjoin f s
  | .sleave f => Sys2Proof.Machine.execSleave f s
  | .mfence f => Sys2Proof.Machine.execMfence f s
  | .mma f => Sys2Proof.Machine.execMma f s
  | .mwait f => Sys2Proof.Machine.execMwait f s
  | .mprogProg f => Sys2Proof.Machine.execMprogProg f s
  | .mprogCopy f => Sys2Proof.Machine.execMprogCopy f s
  | .mprogLast f => Sys2Proof.Machine.execMprogLast f s
  | .mstop f => Sys2Proof.Machine.execMstop f s
  | .mresume f => Sys2Proof.Machine.execMresume f s
  | .mresumeLoad f => Sys2Proof.Machine.execMresumeLoad f s
  | .mresumeTick f => Sys2Proof.Machine.execMresumeTick f s
  | .aclr f => Sys2Proof.Machine.execAclr f s
  | .cvclr f => Sys2Proof.Machine.execCvclr f s
  | .cvpath f => Sys2Proof.Machine.execCvpath f s
  | .cvscan f => Sys2Proof.Machine.execCvscan f s
  | .cvbox f => Sys2Proof.Machine.execCvbox f s
  | .cvstop f => Sys2Proof.Machine.execCvstop f s
  | .cvresume f => Sys2Proof.Machine.execCvresume f s
  | .cvsaveImg f => Sys2Proof.Machine.execCvsaveImg f s
  | .cvsaveCtl f => Sys2Proof.Machine.execCvsaveCtl f s
  | .cvsaveQ f => Sys2Proof.Machine.execCvsaveQ f s
  | .cvloadImg f => Sys2Proof.Machine.execCvloadImg f s
  | .cvloadCtl f => Sys2Proof.Machine.execCvloadCtl f s
  | .cvloadQ f => Sys2Proof.Machine.execCvloadQ f s
  | .mfs f => Sys2Proof.Machine.execMfs f s
  | .mts f => Sys2Proof.Machine.execMts f s
  | .eret f => Sys2Proof.Machine.execEret f s
  | .wfi f => Sys2Proof.Machine.execWfi f s
  | .qbind f => Sys2Proof.Machine.execQbind f s
  | .qunbind f => Sys2Proof.Machine.execQunbind f s
  | .kpend f => Sys2Proof.Machine.execKpend f s
  | .ipi f => Sys2Proof.Machine.execIpi f s
  | .iflush f => Sys2Proof.Machine.execIflush f s
  | .evtWrite f => Sys2Proof.Machine.execEvtWrite f s
  | .bcntWrite f => Sys2Proof.Machine.execBcntWrite f s
  | .tctxWrite f => Sys2Proof.Machine.execTctxWrite f s
  | .tsaveWrite f => Sys2Proof.Machine.execTsaveWrite f s
  | .tloadWrite f => Sys2Proof.Machine.execTloadWrite f s
  | .sphaseWrite f => Sys2Proof.Machine.execSphaseWrite f s
  | .dump core => Sys2Proof.Machine.execDump core s
  | .dumpd core => Sys2Proof.Machine.execDumpd core s
  | .load core => Sys2Proof.Machine.execLoad core s
  | .run core => Sys2Proof.Machine.execRun core s
  | .free core => Sys2Proof.Machine.execFree core s
  | .dumpImageWrite core => Sys2Proof.Machine.execDumpImageWrite core s
  | .preemptDelivery core => Sys2Proof.Machine.execPreemptDelivery core s
  | .segmentGuard core slot => Sys2Proof.Machine.execSegmentGuard core slot s
  | .threadAgeGuard core slot => Sys2Proof.Machine.execThreadAgeGuard core slot s
  | .holdTimeout core tid => Sys2Proof.Machine.execHoldTimeout core tid s
  | .sleepExpire core tid => Sys2Proof.Machine.execSleepExpire core tid s
  | .yieldExpire core tid => Sys2Proof.Machine.execYieldExpire core tid s
  | .bartimeout core tid => Sys2Proof.Machine.execBartimeout core tid s
  | .subordinateKill core tid => Sys2Proof.Machine.execSubordinateKill core tid s
  | .loadDataReturn core tid => Sys2Proof.Machine.execLoadDataReturn core tid s
  | .lineFillComplete core line memErr => Sys2Proof.Machine.execLineFillComplete core line memErr s
  | .lineWritebackComplete core line memErr => Sys2Proof.Machine.execLineWritebackComplete core line memErr s
  | .forwardedWritePerform core region memErr => Sys2Proof.Machine.execForwardedWritePerform core region memErr s
  | .ntWriteback core line memErr => Sys2Proof.Machine.execNtWriteback core line memErr s
  | .promotionRequest core => Sys2Proof.Machine.execPromotionRequest core s
  | .icacheFill core line memErr => Sys2Proof.Machine.execIcacheFill core line memErr s
  | .copyStart core id => Sys2Proof.Machine.execCopyStart core id s
  | .copyRetire core id memErr => Sys2Proof.Machine.execCopyRetire core id memErr s
  | .semwaitSucceed core id memErr => Sys2Proof.Machine.execSemwaitSucceed core id memErr s
  | .sempostPerform core id memErr => Sys2Proof.Machine.execSempostPerform core id memErr s
  | .dispenserClaim core disp => Sys2Proof.Machine.execDispenserClaim core disp s
  | .shareRevocation core => Sys2Proof.Machine.execShareRevocation core s
  | .matrixOpStart core => Sys2Proof.Machine.execMatrixOpStart core s
  | .matrixKblock core => Sys2Proof.Machine.execMatrixKblock core s
  | .matrixOpEnd core => Sys2Proof.Machine.execMatrixOpEnd core s
  | .covCommandStart core => Sys2Proof.Machine.execCovCommandStart core s
  | .covPathRecord core => Sys2Proof.Machine.execCovPathRecord core s
  | .pageWalkComplete die idx => Sys2Proof.Machine.execPageWalkComplete die idx s
  | .fqheadWrite die value => Sys2Proof.Machine.execFqheadWrite die value s
  | .frespRetry die token => Sys2Proof.Machine.execFrespRetry die token s
  | .frespFail die token => Sys2Proof.Machine.execFrespFail die token s
  | .invcmd value => Sys2Proof.Machine.execInvcmd value s
  | .invalidationComplete => Sys2Proof.Machine.execInvalidationComplete s
  | .miggo value => Sys2Proof.Machine.execMiggo value s
  | .migrationRound => Sys2Proof.Machine.execMigrationRound s
  | .atsTranslationCompletion idx hostPage readable writable => Sys2Proof.Machine.execAtsTranslationCompletion idx hostPage readable writable s
  | .priResponse idx success => Sys2Proof.Machine.execPriResponse idx success s
  | .atsInvalidateRequest pasid va len => Sys2Proof.Machine.execAtsInvalidateRequest pasid va len s
  | .kwrWrite func off size value => Sys2Proof.Machine.execKwrWrite func off size value s
  | .queueLookahead slot memErr => Sys2Proof.Machine.execQueueLookahead slot memErr s
  | .launchPacket slot memErr => Sys2Proof.Machine.execLaunchPacket slot memErr s
  | .callPacket slot => Sys2Proof.Machine.execCallPacket slot s
  | .returnPacket slot => Sys2Proof.Machine.execReturnPacket slot s
  | .joinPacket slot => Sys2Proof.Machine.execJoinPacket slot s
  | .condPacket slot memErr => Sys2Proof.Machine.execCondPacket slot memErr s
  | .signalPacket slot memErr => Sys2Proof.Machine.execSignalPacket slot memErr s
  | .waitPacket slot => Sys2Proof.Machine.execWaitPacket slot s
  | .waitSatisfied slot memErr => Sys2Proof.Machine.execWaitSatisfied slot memErr s
  | .waitTimeout slot => Sys2Proof.Machine.execWaitTimeout slot s
  | .framePacket slot => Sys2Proof.Machine.execFramePacket slot s
  | .nopPacket slot => Sys2Proof.Machine.execNopPacket slot s
  | .instanceEnd core => Sys2Proof.Machine.execInstanceEnd core s
  | .coreAllocation core => Sys2Proof.Machine.execCoreAllocation core s
  | .launchWatchdog slot => Sys2Proof.Machine.execLaunchWatchdog slot s
  | .tick cc => Sys2Proof.Machine.execTick cc s
  | .gangTick part => Sys2Proof.Machine.execGangTick part s
  | .saveDeadline part => Sys2Proof.Machine.execSaveDeadline part s
  | .prestop part => Sys2Proof.Machine.execPrestop part s
  | .parkThreshold core => Sys2Proof.Machine.execParkThreshold core s
  | .apply value => Sys2Proof.Machine.execApply value s
  | .activate value => Sys2Proof.Machine.execActivate value s
  | .diereset value directoryAnswers => Sys2Proof.Machine.execDiereset value directoryAnswers s
  | .rststatRead => Sys2Proof.Machine.execRststatRead s
  | .mmioRegisterWrite func off size value => Sys2Proof.Machine.execMmioRegisterWrite func off size value s
  | .bar2Access write addr bytes => Sys2Proof.Machine.execBar2Access write addr bytes s
  | .telemetryRefresh => Sys2Proof.Machine.execTelemetryRefresh s
  | .frameEmit stream => Sys2Proof.Machine.execFrameEmit stream s
  | .frameSubstitute stream => Sys2Proof.Machine.execFrameSubstitute stream s
  | .bootctlWarmStart => Sys2Proof.Machine.execBootctlWarmStart s
  | .bootctlColdStart => Sys2Proof.Machine.execBootctlColdStart s
  | .powerOn => Sys2Proof.Machine.execPowerOn s
  | .fundamentalReset => Sys2Proof.Machine.execFundamentalReset s
  | .hotReset => Sys2Proof.Machine.execHotReset s
  | .linkDown => Sys2Proof.Machine.execLinkDown s
  | .flr func => Sys2Proof.Machine.execFlr func s
  | .surpriseRemoval => Sys2Proof.Machine.execSurpriseRemoval s
  | .startTimeout => Sys2Proof.Machine.execStartTimeout s
  | .rdmaWrite qp rkey va bytes => Sys2Proof.Machine.execRdmaWrite qp rkey va bytes s
  | .rdmaRead qp rkey va len => Sys2Proof.Machine.execRdmaRead qp rkey va len s
  | .send qp psn bytes => Sys2Proof.Machine.execSend qp psn bytes s
  | .rdmaAck qp => Sys2Proof.Machine.execRdmaAck qp s
  | .rdmaReadResponse qp bytes => Sys2Proof.Machine.execRdmaReadResponse qp bytes s
  | .rdmaNak qp => Sys2Proof.Machine.execRdmaNak qp s
  | .rdmaAckTimeout qp => Sys2Proof.Machine.execRdmaAckTimeout qp s
  | .ptpMessage port offset => Sys2Proof.Machine.execPtpMessage port offset s
  | .doeDiscovery index => Sys2Proof.Machine.execDoeDiscovery index s
  | .getVersion mctp => Sys2Proof.Machine.execGetVersion mctp s
  | .getCapabilities mctp => Sys2Proof.Machine.execGetCapabilities mctp s
  | .negotiateAlgorithms mctp offersP521 offersSha512 => Sys2Proof.Machine.execNegotiateAlgorithms mctp offersP521 offersSha512 s
  | .getDigests mctp => Sys2Proof.Machine.execGetDigests mctp s
  | .getCertificate mctp slot off len => Sys2Proof.Machine.execGetCertificate mctp slot off len s
  | .challenge mctp slot nonce => Sys2Proof.Machine.execChallenge mctp slot nonce s
  | .getMeasurements mctp block nonce => Sys2Proof.Machine.execGetMeasurements mctp block nonce s
  | .pldmType0Request => Sys2Proof.Machine.execPldmType0Request s
  | .pldmSensorRead sensor => Sys2Proof.Machine.execPldmSensorRead sensor s
  | .pldmFirmwareUpdate pcie component image => Sys2Proof.Machine.execPldmFirmwareUpdate pcie component image s
  | .ready => Sys2Proof.Machine.execReady s
  | .linkUp => Sys2Proof.Machine.execLinkUp s
  | .flrComplete func => Sys2Proof.Machine.execFlrComplete func s
  | .dieResetComplete die => Sys2Proof.Machine.execDieResetComplete die s
  | .configurationRequest func write => Sys2Proof.Machine.execConfigurationRequest func write s
  | .windowAccessAccepted core tid => Sys2Proof.Machine.execWindowAccessAccepted core tid s
  | .portLinkChange port up => Sys2Proof.Machine.execPortLinkChange port up s
  | .pfcPauseFrame port priority pause => Sys2Proof.Machine.execPfcPauseFrame port priority pause s
  | .ecnMark port => Sys2Proof.Machine.execEcnMark port s
  | .mainPowerLoss => Sys2Proof.Machine.execMainPowerLoss s
  | .uncorrectableError core fatal => Sys2Proof.Machine.execUncorrectableError core fatal s
  | .droopEvent die => Sys2Proof.Machine.execDroopEvent die s

end Sys2Proof.Machine
end

