-- ==== Sys2Proof/WellFormed.lean ====
section
/-! DEFINITION. Well-formed syntax: an instruction whose word check 1 of R185 lets pass, and an event whose core, thread, slot or
die exists. -/

namespace Sys2Proof

/-- `i` is well formed (R185, check 1). -/
def WellFormed (i : Instr) : Prop := legal i = true

/-- `i` is an instruction, which has a word, and not an event. -/
def Instr.isWord (i : Instr) : Bool := (encode i).isSome

end Sys2Proof
end

