-- ==== Sys2Proof/Machine/Step.lean ====
section
/-! DEFINITION. The step: a port issue that stands open, else the next act of the agenda, else an act that nothing fixes (log 3). -/

namespace Sys2Proof.Machine

/-- A port issue: fetch, decode, execute. -/
def State.issuePort (s : State) (p : Port) : Host.Outcome State Fault Refusal :=
  match s.front p with
  | (s, some i) => exec i s
  | (s, none) => .next s

/-- An act. An instruction word is no event. -/
def State.act (s : State) (a : Act) : Host.Outcome State Fault Refusal :=
  match a with
  | .issue c slot => .next (s.issueCycle c slot)
  | .cycles c n => .next (s.cycles c n)
  | .ptime n => .next (s.passTime n)
  | .bootStep e => .next (s.bootAct e)
  | .chunk c id i => .next (s.earlyChunk c id i)
  | .reread c id i j => .next (s.rereadUnit c id i j)
  | .accElem c e => .next (s.earlyElem c e)
  | .clearElem c id e => .next (s.clearElem c id e)
  | .lineChunk c id i => .next (s.lineChunk c id i)
  | .spanWord c i => .next (s.earlySpan c i)
  | .event i => if i.isWord then .next s else exec i s

def step (s : State) : Host.Outcome State Fault Refusal :=
  match s.ports with
  | p :: ps => State.issuePort { s with ports := ps } p
  | [] =>
    match s.agenda with
    | a :: as => State.act { s with agenda := as } a
    | [] => State.act s.tickFresh (Config.schedule s.fresh)

/-- The core and the level at which an opcode may run: a control core for the opcodes of CL alone, else core 0 at SL (R184). -/
def fetchCore (op : Nat) : Nat := if 0xD5 ≤ op ∧ op ≤ 0xD9 then 208 else 0

/-- A header of one instruction (R180). -/
def oneHeader : W64 := 0xF01000000000E000

/-- `s` with the instruction `w` as the next one: a thread stands at a block of one instruction whose words are in the instruction
cache, and its issue is next (log 21). -/
def State.withFetchWord (s : State) (_nbits w : Nat) : State :=
  let c := fetchCore (w / 2 ^ 56 % 256)
  let s := s.updThread c 0 (fun th =>
    { th with st := .live, pc := 0, blk := none, block := none, vec := false, hold0 := 0, level := if isCtl c then .cl else .sl })
  let s := s.updCore c (fun k =>
    { k with halted := false, icache := Map.put k.icache (lineKey k.fetchPasid 0) [oneHeader, BitVec.ofNat 64 w] })
  { s with ports := [{ core := c, phrase := 0, pc := 0, set := [0], blk := none }] }

end Sys2Proof.Machine
end

