-- ==== Sys2Proof/Safety.lean ====
section
/-! DEFINITION. What a safe run is, and the terms in which statements about the machine are made: when a thread issues an instruction
alone with its operands at hand, and what it leaves. -/

namespace Sys2Proof

/-- `k` steps from `s` all give a next state. -/
def SafeRun (k : Nat) (s : Machine.State) : Prop := ∃ t, core.run k s = .next t

namespace Machine

/-! ### An issue -/

/-- The core and the thread of the current issue. -/
abbrev State.curCore (s : State) : Core := s.core s.cur.core
abbrev State.curThread (s : State) (t : Nat) : Thread := s.curCore.thread t

/-- An opcode of availability `a` may run on core `c` at level `l` (R184). -/
def Avail.admits (a : Avail) (c : Nat) (l : Level) : Bool :=
  match a with
  | .all => true
  | .core => !isCtl c
  | .sl => !isCtl c && l != .kl
  | .slcl => l != .kl
  | .cl => l == .cl

/-- Every register that the instruction names lies within what the thread may name, and no descriptor is refused (R37, R65, R118). -/
def OpSpec.named (o : OpSpec) (k : Core) (t : Nat) : Bool :=
  o.srcs.all (fun x => x.regs.all (k.canRead t) && !routeBad k.segW x.desc &&
    (match ixReg x.desc with | some j => k.canRead t j | none => true)) &&
  o.dsts.all (fun x => x.n == 0 || (k.canWrite t x.reg && k.canWrite t (x.reg + x.n - 1)))

/-- The operands of thread `t` (R187). -/
def OpSpec.vals (o : OpSpec) (k : Core) (t : Nat) : List Opnd := o.srcs.map (k.readSrc t o.edge)

/-- Thread `t` issues the instruction on `s` with nothing in the way: the opcode may run there (R184), a transfer ends its block (R182),
its guard holds (R177), it is no subordinate where none may be (R120), its registers may be named (R37, R65, R118), none of them has a
result due or failed (R16, R69, R88, R119), their tags are right where tags are checked (R50), the segment width is one of R14, and it
keeps no operands of an issue that stalled (R67, R68). -/
def State.ready1 (s : State) (o : OpSpec) (t : Nat) : Bool :=
  let k := s.curCore
  let th := s.curThread t
  th.kept.isNone && o.avail.admits s.cur.core th.level && (!o.endsBlock || s.cur.last) && th.pred o.h.g.toNat != o.h.n &&
    (!o.noSub || th.sub.isNone) && o.named k t && o.keys k t == [] && !o.stallsPrincipal k t && (o.copyErr k t).isNone &&
    (fmtTrap k.tagchk o.srcs (o.vals k t)).isNone && [1, 2, 4, 8, 16, 32, 64].contains k.segW

/-- Thread `t` issues alone. -/
def State.lone (s : State) (o : OpSpec) (t : Nat) : Bool := s.cur.set == [t] && s.ready1 o t

/-- Operand `i` of thread `t`, where none is listed v0. -/
def OpSpec.opnd (o : OpSpec) (s : State) (t i : Nat) : Opnd := (o.vals s.curCore t).getD i []

/-! ### What an issue leaves -/

/-- `s` where the ages of the segments of threads `ts` begin again: an instruction has issued to them (R18). -/
def State.noted (s : State) (ts : List Nat) : State := s.updCore s.cur.core (fun k => k.noteIssue s.cur.phrase ts)

/-- `s` where thread `t` alone has changed, and the age of its segment (R18): it has issued, `f` is done to it, and it stands at its
next instruction (R182). -/
def State.moves (s : State) (t : Nat) (f : Thread → Thread) : State :=
  (s.noted [t]).updThread s.cur.core t (fun th => (f (th.commit s.cur)).next s.cur.last)

/-- `s` where thread `t` has taken a result and moved on (R188). -/
def State.gives (s : State) (t : Nat) (r : Res) : State := s.moves t (fun th => th.apply r)

/-- What a step of one thread on one core cannot change: the rest of the machine, the ages of the core's segments apart (R18). -/
def State.sameBut (s s' : State) (c t : Nat) : Prop :=
  { s' with cores := [] } = { s with cores := [] } ∧ (∀ d, d ≠ c → s'.core d = s.core d) ∧
    (∀ u, u ≠ t → (s'.core c).thread u = (s.core c).thread u) ∧
    { s'.core c with threads := [], phrases := [] } = { s.core c with threads := [], phrases := [] }

end Machine

end Sys2Proof
end

