-- ==== Sys2Proof/Certificates/Slice0/Obligations.lean ====
section
/-! DEFINITION. The statements about the machine, each from the numbered rules of spec/ that its docstring names. -/

open Sys2Proof Sys2Proof.Machine

/-! ### Terms -/

namespace Sys2Proof.Claims

/-- Instruction `i` is legal and thread `t` issues it alone, its operands `o` at hand. -/
def Runs (i : Instr) (o : OpSpec) (s : State) (t : Nat) : Prop := WellFormed i ∧ s.lone o t = true

/-- Element `e` of a result is `x` mod 2^w. -/
def element (w : Nat) (v : W64) (e : Nat) (x : Int) : Prop := (elemBits w v e : Int) = x % ((2 ^ w : Nat) : Int)

/-- A word of opcode `op` reads as nothing where `bad` holds of it, and else, where it reads as an instruction at all, as one of `mk`. -/
def OpcodeReads {α : Type} (op : BitVec 8) (mk : α → Instr) (bad : W64 → Prop) : Prop :=
  ∀ w : W64, w.extractLsb' 56 8 = op → (bad w → decode w = none) ∧ ∀ i, decode w = some i → ∃ f, i = mk f

/-- What ADD, SUB, MUL, MIN, MAX and ABSD leave (R190): every element is the operation on the elements of A and B, clamped under SAT;
SATC is raised when a clamp changed a value; a narrow scalar is extended (R51); nothing else changes. -/
def ElementResult (i : WForm → Instr) (tag : Nat → Nat) (op : WForm → Int → Int → Int) : Prop :=
  ∀ (f : WForm) (s : State) (t : Nat), Runs (i f) (specW f f.ty) s t →
    let o := specW f f.ty
    let w := elemW f.ty
    let x (e : Nat) : Int := op f (elemVal (elemSigned f.ty f.var) w ((o.opnd s t 0).ofTy f.ty) e)
      (elemVal (elemSigned f.ty f.var) w ((o.opnd s t 1).ofTy f.ty) e)
    let c (e : Nat) : Int × Bool := if f.sat then clampInt (elemSigned f.ty f.var) w (x e) else (x e, false)
    ∃ v : W64,
      exec (i f) s = .next (s.gives t { Res.ofTy f.d (tag f.ty) v with satc := (List.range (elemN f.ty)).any (fun e => (c e).2) }) ∧
        (∀ e, e < elemN f.ty → element w v e (c e).1) ∧
        (w < 32 → elemN f.ty = 1 → v = BitVec.ofInt 64 (asInt (tag f.ty % 2 == 0) w (elemBits w v 0)))

end Sys2Proof.Claims

open Sys2Proof.Claims

/-! ### Integer arithmetic -/

/-- R190, R191, R192, R195: ADD, SUB, MUL, MIN, MAX, ABSD on every type. -/
def Obligations.IntegerElementResults : Prop :=
  ElementResult .add id (fun _ x y => x + y) ∧
  ElementResult .sub id (fun _ x y => x - y) ∧
  ElementResult .mul id (fun f x y => if f.var = 2 ∨ f.var = 3 then x * y / ((2 ^ elemW f.ty : Nat) : Int) else x * y) ∧
  ElementResult .min id (fun _ x y => min x y) ∧
  ElementResult .max id (fun _ x y => max x y) ∧
  ElementResult .absd (fun ty => if ty = 6 ∨ ty = 7 then ty else ty / 2 * 2 + 1) (fun _ x y => ((x - y).natAbs : Int))

/-- R190, R191, R192 on the full-width scalars without SAT: plain arithmetic mod 2^32 and mod 2^64. -/
def Sys2Proof.Claims.ScalarArithmeticWraps : Prop :=
  ∀ (f : WForm) (s : State) (t : Nat),
    let o := specW f f.ty
    let a := o.opnd s t 0
    let b := o.opnd s t 1
    (f.ty = 0 ∨ f.ty = 1 → f.sat = false → f.var = 0 →
      (Runs (.add f) o s t → exec (.add f) s = .next (s.gives t (Res.one f.d.toNat (a.lo + b.lo) f.ty))) ∧
      (Runs (.sub f) o s t → exec (.sub f) s = .next (s.gives t (Res.one f.d.toNat (a.lo - b.lo) f.ty))) ∧
      (Runs (.mul f) o s t → exec (.mul f) s = .next (s.gives t (Res.one f.d.toNat (a.lo * b.lo) f.ty)))) ∧
    (f.ty = 8 ∨ f.ty = 9 → f.sat = false → f.var = 0 →
      (Runs (.add f) o s t → exec (.add f) s = .next (s.gives t (Res.pair f.d.toNat (a.x + b.x) f.ty))) ∧
      (Runs (.sub f) o s t → exec (.sub f) s = .next (s.gives t (Res.pair f.d.toNat (a.x - b.x) f.ty))) ∧
      (Runs (.mul f) o s t → exec (.mul f) s = .next (s.gives t (Res.pair f.d.toNat (a.x * b.x) f.ty))))

/-- R194: DIV and REM. -/
def Sys2Proof.Claims.DivRemResults : Prop :=
  ∀ (f : WForm) (s : State) (t : Nat),
    let o := specW f f.ty
    let w := elemW f.ty
    let signed := f.ty = 0 ∨ f.ty = 8
    let x := elemVal (f.ty % 2 == 0) w ((o.opnd s t 0).ofTy f.ty) 0
    let y := elemVal (f.ty % 2 == 0) w ((o.opnd s t 1).ofTy f.ty) 0
    let least : Int := -((2 ^ (w - 1) : Nat) : Int)
    let q : Int := if y = 0 then -1
      else if signed ∧ x = least ∧ y = -1 then (if f.sat = true then -least - 1 else least)
      else x.tdiv y
    let m : Int := if y = 0 then x else if signed ∧ x = least ∧ y = -1 then 0 else x - x.tdiv y * y
    (Runs (.div f) o s t → ∃ v : W64,
      exec (.div f) s = .next (s.gives t { Res.ofTy f.d f.ty v with
        satc := decide (y ≠ 0 ∧ signed ∧ x = least ∧ y = -1) && f.sat }) ∧ element w v 0 q) ∧
    (Runs (.rem f) o s t → ∃ v : W64, exec (.rem f) s = .next (s.gives t (Res.ofTy f.d f.ty v)) ∧ element w v 0 m)

/-- R193, R196, R197, R198: MAD, MADHI, ADDI, MULI, ADDC, SUBB, SAD. -/
def Sys2Proof.Claims.MultiplyAddCarryResults : Prop :=
  (∀ (f : VForm) (s : State) (t : Nat),
    let v (o : OpSpec) (i : Nat) : W32 := (o.opnd s t i).lo
    (let o := specV f none none none
     Runs (.mad f) o s t → exec (.mad f) s = .next (s.gives t (Res.one f.d.toNat (v o 0 * v o 1 + v o 2) 2))) ∧
    (let o := specV f (some 0) (some 0) (some 0)
     Runs (.madhiI f) o s t → exec (.madhiI f) s =
       .next (s.gives t (Res.one f.d.toNat (((v o 0).signExtend 64 * (v o 1).signExtend 64).extractLsb' 32 32 + v o 2) 0))) ∧
    (let o := specV f (some 1) (some 1) (some 1)
     Runs (.madhiN f) o s t → exec (.madhiN f) s =
       .next (s.gives t (Res.one f.d.toNat (((v o 0).setWidth 64 * (v o 1).setWidth 64).extractLsb' 32 32 + v o 2) 1))) ∧
    (let o := specV f none none none
     let d (k : Nat) : W32 := BitVec.ofNat 32 (((v o 0).extractLsb' (8 * k) 8).toNat - ((v o 1).extractLsb' (8 * k) 8).toNat +
       (((v o 1).extractLsb' (8 * k) 8).toNat - ((v o 0).extractLsb' (8 * k) 8).toNat))
     Runs (.sad f) o s t → exec (.sad f) s = .next (s.gives t (Res.one f.d.toNat (v o 2 + d 0 + d 1 + d 2 + d 3) 1)))) ∧
  (∀ (f : IForm) (s : State) (t : Nat),
    let o := specI f none
    let a := o.opnd s t 0
    let tag := if a.tag = 0 then 0 else if a.tag = 1 then 1 else 2
    (Runs (.addi f) o s t → exec (.addi f) s = .next (s.gives t (Res.one f.d.toNat (a.lo + f.imm.signExtend 32) tag))) ∧
    (Runs (.muli f) o s t → exec (.muli f) s = .next (s.gives t (Res.one f.d.toNat (a.lo * f.imm.signExtend 32) tag)))) ∧
  (∀ (f : WForm) (s : State) (t : Nat),
    let o := specW f f.ty
    let a := (o.opnd s t 0).lo
    let b := (o.opnd s t 1).lo
    let k := (f.fn.extractLsb' 3 3).toNat
    let cin : Nat := if (s.curThread t).pred k then 1 else 0
    (Runs (.addc f) o s t → exec (.addc f) s = .next (s.gives t { Res.one f.d.toNat (a + b + BitVec.ofNat 32 cin) f.ty with
      preds := [(k, decide (2 ^ 32 ≤ a.toNat + b.toNat + cin))] })) ∧
    (Runs (.subb f) o s t → exec (.subb f) s = .next (s.gives t { Res.one f.d.toNat (a - b - BitVec.ofNat 32 cin) f.ty with
      preds := [(k, decide (a.toNat < b.toNat + cin))] })))

/-- R193, R197, R198: the opcodes of MAD, MADHI.i, MADHI.n, ADDC, SUBB and SAD, and the words of ADDC and SUBB that are ILLEGAL; predicate 0
is always true, and a carry into it is lost. -/
def Sys2Proof.Claims.CarryAndMadWords : Prop :=
  OpcodeReads 0x13 .mad (fun _ => False) ∧ OpcodeReads 0x14 .madhiI (fun _ => False) ∧ OpcodeReads 0x15 .madhiN (fun _ => False) ∧
  OpcodeReads 0x1F .sad (fun _ => False) ∧
  (let bad (w : W64) : Prop := (w.extractLsb' 6 4 ≠ 0 ∧ w.extractLsb' 6 4 ≠ 1) ∨ w.getLsbD 2 = true ∨ w.getLsbD 1 = true
   OpcodeReads 0x1D .addc bad ∧ OpcodeReads 0x1E .subb bad) ∧
  ∀ (th : Thread) (b : Bool), th.pred 0 = true ∧ th.setPred 0 b = th

/-- Integer arithmetic on scalars: R190 to R198. -/
def Obligations.ScalarIntegerResults : Prop := ScalarArithmeticWraps ∧ DivRemResults ∧ MultiplyAddCarryResults ∧ CarryAndMadWords

/-! ### Logic, shifts, bit fields -/

/-- R199 to R202: the opcodes of the logic and shift instructions, and the words of each that are ILLEGAL. -/
def Sys2Proof.Claims.LogicAndShiftWords : Prop :=
  let outside (ok : List Nat) (w : W64) : Prop := (w.extractLsb' 6 4).toNat ∉ ok ∨ w.extractLsb' 2 4 ≠ 0 ∨ w.getLsbD 1 = true
  let bitwise := outside [2, 9]
  let shift := outside [0, 1, 2, 6, 7, 8, 9]
  OpcodeReads 0x20 .and bitwise ∧ OpcodeReads 0x21 .or bitwise ∧ OpcodeReads 0x22 .xor bitwise ∧ OpcodeReads 0x23 .andn bitwise ∧
  OpcodeReads 0x24 .shl shift ∧ OpcodeReads 0x25 .shr shift ∧ OpcodeReads 0x26 .sar shift ∧ OpcodeReads 0x27 .rotl shift ∧
  OpcodeReads 0x28 .andi (fun _ => False) ∧ OpcodeReads 0x29 .ori (fun _ => False) ∧ OpcodeReads 0x2A .xori (fun _ => False) ∧
  OpcodeReads 0x2B .shi (fun w => w.extractLsb' 5 21 ≠ 0) ∧ OpcodeReads 0x2C .funnel (fun _ => False)


/-- R199: the bitwise instructions. -/
def Sys2Proof.Claims.BitwiseResults : Prop :=
  (∀ (f : WForm) (s : State) (t : Nat),
    let o : OpSpec := { specW f f.ty with srcs := [f.srcA (nregs f.ty) none, f.srcB (nregs f.ty) none] }
    let a := o.opnd s t 0
    let b := o.opnd s t 1
    let is (i : Instr) (op : ∀ w : Nat, BitVec w → BitVec w → BitVec w) : Prop := Runs i o s t → exec i s =
      .next (s.gives t (if f.ty = 9 then Res.pair f.d.toNat (op 64 a.x b.x) 2 else Res.one f.d.toNat (op 32 a.lo b.lo) 2))
    is (.and f) (fun _ x y => x &&& y) ∧ is (.or f) (fun _ x y => x ||| y) ∧ is (.xor f) (fun _ x y => x ^^^ y) ∧
      is (.andn f) (fun _ x y => x &&& ~~~y)) ∧
  (∀ (f : IForm) (s : State) (t : Nat),
    let o := specI f none
    let a := (o.opnd s t 0).lo
    let is (i : Instr) (v : W32) : Prop := Runs i o s t → exec i s = .next (s.gives t (Res.one f.d.toNat v 2))
    is (.andi f) (a &&& f.imm.signExtend 32) ∧ is (.ori f) (a ||| f.imm.signExtend 32) ∧ is (.xori f) (a ^^^ f.imm.signExtend 32))

/-- R200, R201, R202: SHL, SHR, SAR, ROTL per element with the amount taken mod w, SHI, FUNNEL. -/
def Sys2Proof.Claims.ShiftResults : Prop :=
  (∀ (f : WForm) (s : State) (t : Nat),
    let o := specW2 f (nregs f.ty) (chk f.ty) 1 none (nregs f.ty)
    let w := elemW f.ty
    let k := (o.opnd s t 1).lo.toNat % w
    let x (e : Nat) : Nat := elemBits w ((o.opnd s t 0).ofTy f.ty) e
    let is (i : Instr) (op : BitVec w → BitVec w) : Prop := Runs i o s t → ∃ v : W64,
      exec i s = .next (s.gives t (Res.ofTy f.d f.ty v)) ∧
        ∀ e, e < elemN f.ty → elemBits w v e = (op (BitVec.ofNat w (x e))).toNat
    is (.shl f) (fun x => x <<< k) ∧ is (.shr f) (fun x => x >>> k) ∧ is (.sar f) (fun x => x.sshiftRight k) ∧
      is (.rotl f) (fun x => x.rotateLeft k)) ∧
  (∀ (f : IForm) (s : State) (t : Nat),
    let o := specI f none
    let a := o.opnd s t 0
    let k := (f.imm.extractLsb' 0 5).toNat
    let tag := if a.tag = 0 then 0 else if a.tag = 1 then 1 else 2
    Runs (.shi f) o s t → exec (.shi f) s = .next (s.gives t (Res.one f.d.toNat
      (match (f.imm.extractLsb' 26 2).toNat with
       | 0 => a.lo <<< k | 1 => a.lo >>> k | 2 => a.lo.sshiftRight k | _ => a.lo.rotateLeft k) tag))) ∧
  (∀ (f : VForm) (s : State) (t : Nat),
    let o := specV f none none none
    Runs (.funnel f) o s t → exec (.funnel f) s = .next (s.gives t (Res.one f.d.toNat
      ((((o.opnd s t 0).lo ++ (o.opnd s t 1).lo : W64) >>> ((o.opnd s t 2).lo.toNat % 32)).setWidth 32) 2)))

/-- Logic and shifts: R199 to R202. -/
def Obligations.LogicAndShiftResults : Prop := BitwiseResults ∧ ShiftResults ∧ LogicAndShiftWords

/-- R203, R204, R205: BFX, BFI, BITOP, PERMB, said bit by bit and byte by byte. -/
def Sys2Proof.Claims.BitFields : Prop :=
  (∀ (f : WForm) (s : State) (t : Nat),
    let o := specW2 f 1 (chk f.ty) 1 none 1
    let a := (o.opnd s t 0).lo
    let b := (o.opnd s t 1).lo
    let pos := (b.extractLsb' 0 5).toNat
    let len := min 32 (b.extractLsb' 8 6).toNat
    let src (i : Nat) : Bool := if f.ty = 0 then (if i < 32 then a.getLsbD i else a.msb) else a.getLsbD i
    Runs (.bfx f) o s t → ∃ v : W32, exec (.bfx f) s = .next (s.gives t (Res.one f.d.toNat v f.ty)) ∧
      ∀ i, i < 32 → v.getLsbD i = if len = 0 then false else if i < len then src (pos + i) else (f.ty = 0 && src (pos + len - 1))) ∧
  (∀ (f : VForm) (s : State) (t : Nat),
    let o := specV f none none none
    let a := (o.opnd s t 0).lo
    let b := (o.opnd s t 1).lo
    let c := (o.opnd s t 2).lo
    let pos := (c.extractLsb' 0 5).toNat
    let len := min 32 (c.extractLsb' 8 6).toNat
    Runs (.bfi f) o s t → ∃ v : W32, exec (.bfi f) s = .next (s.gives t (Res.one f.d.toNat v 2)) ∧
      ∀ i, i < 32 → v.getLsbD i = if pos ≤ i ∧ i < pos + len then b.getLsbD (i - pos) else a.getLsbD i) ∧
  (∀ (f : WForm) (s : State) (t : Nat),
    let o := specW1 f (nregs f.ty) none (if f.var = 3 then nregs f.ty else 1)
    let w := if f.ty = 9 then 64 else 32
    let x := (o.opnd s t 0).ofTy f.ty
    Runs (.bitop f) o s t → ∃ v : W64,
      exec (.bitop f) s = .next (s.gives t (if f.var = 3 ∧ f.ty = 9 then Res.pair f.d.toNat v 2
        else Res.one f.d.toNat (v.setWidth 32) (if f.var = 3 then 2 else 1))) ∧
      (match f.var with
       | 0 => v.toNat = ((List.range w).filter (fun i => x.getLsbD i)).length
       | 1 => v.toNat ≤ w ∧ (∀ i, w - v.toNat ≤ i → i < w → x.getLsbD i = false) ∧ (v.toNat < w → x.getLsbD (w - 1 - v.toNat) = true)
       | 2 => v.toNat ≤ w ∧ (∀ i, i < v.toNat → x.getLsbD i = false) ∧ (v.toNat < w → x.getLsbD v.toNat = true)
       | _ => ∀ i, i < w → v.getLsbD i = x.getLsbD (w - 1 - i))) ∧
  (∀ (f : WForm) (s : State) (t : Nat),
    let o := specW2 f 1 none 1 none 1
    let a := (o.opnd s t 0).lo
    let sel (k : Nat) : BitVec 4 := (o.opnd s t 1).lo.extractLsb' (4 * k) 4
    let byte (k : Nat) : BitVec 8 := a.extractLsb' (8 * ((sel k).extractLsb' 0 2).toNat) 8
    Runs (.permb f) o s t → ∃ v : W32, exec (.permb f) s = .next (s.gives t (Res.one f.d.toNat v 2)) ∧
      ∀ k, k < 4 → v.extractLsb' (8 * k) 8 = if (sel k).getLsbD 2 then 0 else if (sel k).getLsbD 3 then
        (if (byte k).msb then 0xFF else 0) else byte k)

/-- R203, R204, R205: the opcodes of BFX, BFI, BITOP and PERMB, and the words of each that are ILLEGAL. -/
def Sys2Proof.Claims.BitFieldWords : Prop :=
  OpcodeReads 0x2D .bfx (fun w => 1 < (w.extractLsb' 6 4).toNat ∨ w.extractLsb' 2 4 ≠ 0 ∨ w.getLsbD 1 = true) ∧
  OpcodeReads 0x2E .bfi (fun _ => False) ∧
  OpcodeReads 0x2F .bitop (fun w => (w.extractLsb' 6 4 ≠ 2 ∧ w.extractLsb' 6 4 ≠ 9) ∨ 3 < (w.extractLsb' 2 4).toNat ∨ w.getLsbD 1 = true ∨
    w.extractLsb' 30 7 ≠ 0) ∧
  OpcodeReads 0x37 .permb (fun w => w.extractLsb' 0 10 ≠ 0)

/-- Bit fields and byte permutation: R203 to R205. -/
def Obligations.BitFieldResults : Prop := BitFields ∧ BitFieldWords

/-! ### Predicates, constants and moves -/

/-- R206, R207: SETP on integers and bits, SETPI. -/
def Sys2Proof.Claims.ComparePredicates : Prop :=
  let holds (cc : Nat) (x y : Int) : Bool := match cc with
    | 0 => x == y | 1 => x != y | 2 => decide (x < y) | 3 => decide (x ≤ y) | 4 => decide (x > y) | _ => decide (x ≥ y)
  (∀ (f : WForm) (s : State) (t : Nat),
    let o : OpSpec := { specW f f.ty with dsts := [] }
    let val (i : Nat) : Int := elemVal (f.ty % 2 == 0) (elemW f.ty) ((o.opnd s t i).ofTy f.ty) 0
    Runs (.setp f) o s t →
      (f.ty ≠ 3 → f.ty ≠ 0xA → f.ty ≠ 0xB →
        exec (.setp f) s = .next (s.gives t { preds := [(f.d.toNat, holds f.var (val 0) (val 1))] })) ∧
      (f.ty = 3 ∨ f.ty = 0xA ∨ f.ty = 0xB →
        let m : Fmt := if f.ty = 3 then f32 else if f.ty = 0xA then f16 else bf16
        let x := m.unpack (o.opnd s t 0).lo
        let y := m.unpack (o.opnd s t 1).lo
        let unord := x.isNaN || y.isNaN
        exec (.setp f) s = .next (s.gives t {
          preds := [(f.d.toNat, if f.var = 6 then !unord else if f.var = 7 then unord
            else if unord then f.var == 1 else holds f.var (x.cmp y) 0)]
          fpf := if x.isSNaN || y.isSNaN || (unord && decide (2 ≤ f.var ∧ f.var ≤ 5)) then fINV else 0 }))) ∧
  (∀ (f : IForm) (s : State) (t : Nat),
    let uns := f.imm.getLsbD 20
    let o : OpSpec := { h := f.h, srcs := [f.srcA (some (if uns then 1 else 0))] }
    let a := (o.opnd s t 0).lo
    let b : W32 := (f.imm.extractLsb' 0 20).signExtend 32
    Runs (.setpi f) o s t → exec (.setpi f) s = .next (s.gives t { preds := [((f.imm.extractLsb' 21 3).toNat,
      holds (f.imm.extractLsb' 24 4).toNat (if uns then a.toNat else a.toInt) (if uns then b.toNat else b.toInt))] }))

/-- R208, R209, R210: PLOGIC, SEL, PMOV. -/
def Sys2Proof.Claims.PredicateMoves : Prop :=
  (∀ (f : WForm) (s : State) (t : Nat),
    let p (i : Nat) : Bool := (s.curThread t).pred i
    Runs (.plogic f) { h := f.h } s t → exec (.plogic f) s = .next (s.gives t { preds := [(f.d.toNat,
      (f.fn.extractLsb' 2 4).getLsbD ((if p f.a.toNat then 2 else 0) + (if p f.b.toNat then 1 else 0)))] })) ∧
  (∀ (f : VForm) (s : State) (t : Nat),
    let o : OpSpec := { h := f.h, edge := f.edge.toNat, srcs := [f.srcA 1 none, f.srcB 1 none], dsts := [dstD f.d 1] }
    let x := if (s.curThread t).pred f.c.toNat then o.opnd s t 0 else o.opnd s t 1
    Runs (.sel f) o s t → exec (.sel f) s = .next (s.gives t { regs := [(f.d.toNat, x.lo, x.tag)] })) ∧
  (∀ (f : WForm) (s : State) (t : Nat),
    let rd := f.var = 1 ∨ f.var = 3
    let o : OpSpec := { h := f.h, edge := f.edge.toNat, srcs := if rd then [f.srcA 1 none] else [],
                        dsts := if rd then [] else [dstD f.d 1] }
    let a := (o.opnd s t 0).lo
    let th := s.curThread t
    Runs (.pmov f) o s t → exec (.pmov f) s = .next (s.gives t (match f.var with
      | 0 => Res.one f.d.toNat (if th.pred f.a.toNat then 1 else 0) 1
      | 1 => { preds := [(f.d.toNat, a != 0)] }
      | 2 => Res.one f.d.toNat ((th.p ||| 1).setWidth 32) 1
      | _ => { preds := [1, 2, 3, 4, 5, 6, 7].map (fun i => (i, a.getLsbD i)) })))

/-- R189, R214, R215, R216, R231: NOP, LEA, MOVI, MOVIH, MOV, MOVX, TAGSET, TAGGET. -/
def Sys2Proof.Claims.MovesAndConstants : Prop :=
  (∀ (f : VForm) (s : State) (t : Nat), Runs (.nop f) { h := f.h } s t → exec (.nop f) s = .next (s.gives t {})) ∧
  (∀ (f : IForm) (s : State) (t : Nat),
    (Runs (.movi f) { h := f.h, dsts := [dstD f.d 1] } s t →
      exec (.movi f) s = .next (s.gives t (Res.one f.d.toNat (f.imm.signExtend 32) 2))) ∧
    (let o := specI f none
     Runs (.movih f) o s t → exec (.movih f) s = .next (s.gives t (Res.one f.d.toNat
       (f.imm.extractLsb' 0 4 ++ (o.opnd s t 0).lo.extractLsb' 0 28) 2)))) ∧
  (∀ (f : WForm) (s : State) (t : Nat),
    (let o := specW2 f (nregs f.ty) (chk f.ty) 1 none (nregs f.ty)
     let a := o.opnd s t 0
     let b := (o.opnd s t 1).lo
     Runs (.lea f) o s t → exec (.lea f) s = .next (s.gives t (if f.ty = 9
       then Res.pair f.d.toNat (a.x + b.signExtend 64 * BitVec.ofNat 64 (2 ^ f.var)) f.ty
       else Res.one f.d.toNat (a.lo + b * BitVec.ofNat 32 (2 ^ f.var)) f.ty))) ∧
    (let o := specW1 f 1 none 1
     let a := o.opnd s t 0
     (Runs (.mov f) o s t → exec (.mov f) s = .next (s.gives t { regs := [(f.d.toNat, a.lo, if f.var = 0 then a.tag else 2)] })) ∧
     (Runs (.tagset f) o s t → exec (.tagset f) s = .next (s.gives t { regs := [(f.d.toNat, a.lo, f.fn.extractLsb' 6 4)] })) ∧
     (Runs (.tagget f) o s t → exec (.tagget f) s = .next (s.gives t (Res.one f.d.toNat (a.tag.setWidth 32) 1)))) ∧
    (let o := specW1 f 2 none 2
     let a := o.opnd s t 0
     Runs (.movx f) o s t → exec (.movx f) s = .next (s.gives t (if f.d = 0 then {} else { regs :=
       [(f.d.toNat, a.lo, if f.var = 0 then a.tag else 2), (f.d.toNat + 1, a.hi, if f.var = 0 then a.tagHi else 2)] }))))

/-- Predicates, constants and moves: R189, R206 to R210, R214 to R216, R231. -/
def Obligations.PredicateAndMoveResults : Prop := ComparePredicates ∧ PredicateMoves ∧ MovesAndConstants

/-! ### Floating point -/

namespace Sys2Proof.Claims

/-- A scalar floating-point result with its flags. -/
def FloatResult (i : Instr) (o : OpSpec) (s : State) (t : Nat) (d : BitVec 7) (ty : Nat) (r : FRes) : Prop :=
  Runs i o s t → exec i s = .next (s.gives t { Res.one d.toNat r.1 ty with fpf := r.2 })

/-- Two elements of a packed result, each rounded on its own, and the flags of both. -/
def twoHalves (op : Nat → FRes) : FRes :=
  (((op 1).1.setWidth 16 ++ (op 0).1.setWidth 16 : W32), (op 0).2 ||| (op 1).2)

end Sys2Proof.Claims

/-- R217, R218, R219, R220, R221, R222: the scalar floating-point instructions give the operation of the format on the low bits of their
sources, with its flags. -/
def Sys2Proof.Claims.ScalarFloatResults : Prop :=
  (∀ (f : WForm) (s : State) (t : Nat),
    let m : Fmt := if f.ty = 0xA then f16 else if f.ty = 0xB then bf16 else f32
    let o := specW f f.ty
    let a := (o.opnd s t 0).lo
    let b := (o.opnd s t 1).lo
    let rm := (f.fn.extractLsb' 2 2).toNat
    FloatResult (.fadd f) o s t f.d f.ty (m.add rm a b) ∧ FloatResult (.fsub f) o s t f.d f.ty (m.sub rm a b) ∧
    FloatResult (.fmul f) o s t f.d f.ty (m.mul rm a b) ∧ FloatResult (.fmin f) o s t f.d f.ty (m.minmax false a b) ∧
    FloatResult (.fmax f) o s t f.d f.ty (m.minmax true a b)) ∧
  (∀ (f : VForm) (s : State) (t : Nat),
    let o := specV f (some 3) (some 3) (some 3)
    FloatResult (.ffma f) o s t f.d 3 (f32.fma 0 (o.opnd s t 0).lo (o.opnd s t 1).lo (o.opnd s t 2).lo)) ∧
  (∀ (f : IForm) (s : State) (t : Nat),
    let o := specI f (some 3)
    FloatResult (.fmuli f) o s t f.d 3 (f32.mul 0 (o.opnd s t 0).lo (f.imm ++ 0#4))) ∧
  (∀ (f : WForm) (s : State) (t : Nat),
    let m : Fmt := if f.ty = 0xA ∨ f.ty = 4 then f16 else if f.ty = 0xB ∨ f.ty = 5 then bf16 else f32
    let o := specW1 f 1 (some f.ty) 1
    let a := (o.opnd s t 0).lo
    FloatResult (.funary f) o s t f.d f.ty (if f.ty = 4 ∨ f.ty = 5
      then twoHalves (fun i => m.unary f.var ((a.extractLsb' (16 * i) 16).setWidth 32)) else m.unary f.var a) ∧
    (let o := specW1 f 1 (some 3) 1
     FloatResult (.fspecial f) o s t f.d 3 (specialFn f.var (o.opnd s t 0).lo)) ∧
    FloatResult (.fclass f) o s t f.d 1 (1#32 <<< m.classOf a, 0))

/-- R223, R224, R225: the packed 16-bit instructions and the dot products. -/
def Sys2Proof.Claims.PackedFloatResults : Prop :=
  (∀ (f : WForm) (s : State) (t : Nat),
    let m : Fmt := if f.ty = 5 then bf16 else f16
    let o := specW f f.ty
    let a (i : Nat) : W32 := ((o.opnd s t 0).lo.extractLsb' (16 * i) 16).setWidth 32
    let b (i : Nat) : W32 := ((o.opnd s t 1).lo.extractLsb' (16 * i) 16).setWidth 32
    let rm := (f.fn.extractLsb' 2 2).toNat
    FloatResult (.hadd2 f) o s t f.d f.ty (twoHalves (fun i => m.add rm (a i) (b i))) ∧
    FloatResult (.hmul2 f) o s t f.d f.ty (twoHalves (fun i => m.mul rm (a i) (b i))) ∧
    FloatResult (.hmin2 f) o s t f.d f.ty (twoHalves (fun i => m.minmax false (a i) (b i))) ∧
    FloatResult (.hmax2 f) o s t f.d f.ty (twoHalves (fun i => m.minmax true (a i) (b i)))) ∧
  (∀ (f : VForm) (s : State) (t : Nat),
    let v (o : OpSpec) (i : Nat) : W32 := (o.opnd s t i).lo
    let h (x : W32) (i : Nat) : W32 := (x.extractLsb' (16 * i) 16).setWidth 32
    (let o := specV f (some 4) (some 4) (some 4)
     FloatResult (.hfma2 f) o s t f.d 4 (twoHalves (fun i => f16.fma 0 (h (v o 0) i) (h (v o 1) i) (h (v o 2) i)))) ∧
    (let o := specV f (some 5) (some 5) (some 5)
     FloatResult (.bfma2 f) o s t f.d 5 (twoHalves (fun i => bf16.fma 0 (h (v o 0) i) (h (v o 1) i) (h (v o 2) i)))) ∧
    (let o := specV f (some 4) (some 4) (some 3)
     FloatResult (.hdot2 f) o s t f.d 3 (dot2 f16 (v o 0) (v o 1) (v o 2))) ∧
    (let o := specV f (some 5) (some 5) (some 3)
     FloatResult (.bdot2 f) o s t f.d 3 (dot2 bf16 (v o 0) (v o 1) (v o 2))) ∧
    (let o := specV f (some 7) (some 7) (some 0)
     let p (k : Nat) : W32 := ((v o 0).extractLsb' (8 * k) 8).signExtend 32 * ((v o 1).extractLsb' (8 * k) 8).signExtend 32
     FloatResult (.idot4 f) o s t f.d 0 (v o 2 + p 0 + p 1 + p 2 + p 3, 0)) ∧
    (let o := specV f (some 7) (some 7) (some 1)
     let p (k : Nat) : W32 := ((v o 0).extractLsb' (8 * k) 8).setWidth 32 * ((v o 1).extractLsb' (8 * k) 8).setWidth 32
     FloatResult (.idot4n f) o s t f.d 1 (v o 2 + p 0 + p 1 + p 2 + p 3, 0)))

/-- The bits of a format's sign, exponent and fraction fields (R51). -/
def Sys2Proof.Claims.fields (m : Fmt) (a : W32) : Bool × Nat × Nat :=
  (decide (m.signBit ≤ m.low a), m.low a % m.signBit / 2 ^ m.mb, m.low a % 2 ^ m.mb)

/-- R220: the table of FUNARY. ABS and NEG act on the sign bit; FLOOR, CEIL, TRUNC and RINT give the integral value, with the sign of the
operand and no flag; a NaN gives the canonical NaN, and a signalling one raises INV. -/
def Sys2Proof.Claims.UnaryTable : Prop :=
  ∀ m : Fmt, m = f32 ∨ m = f16 ∨ m = bf16 → ∀ (op : Nat) (a : W32),
    (∀ sig, m.unpack a = .nan sig → m.unary op a = (m.nan, if sig then fINV else 0)) ∧
    ((m.unpack a).isNaN = false → m.unary 0 a = (BitVec.ofNat 32 (m.low a % m.signBit), 0) ∧
      m.unary 1 a = (BitVec.ofNat 32 (if (fields m a).1 then m.low a - m.signBit else m.low a + m.signBit), 0)) ∧
    (∀ n, m.unpack a = .inf n → 2 ≤ op → op ≤ 5 → m.unary op a = (m.inf n, 0)) ∧
    (∀ n x e, m.unpack a = .fin n x e → 2 ≤ op → op ≤ 5 → ∃ r y z,
      m.unary op a = (r, 0) ∧ m.unpack r = .fin n y z ∧
      (0 ≤ e → r = BitVec.ofNat 32 (m.low a)) ∧
      (e < 0 → let d := 2 ^ (-e).toNat
        let down := if op = 2 then !n else if op = 3 then n else true
        ∃ k : Nat, (if 0 ≤ z then y * 2 ^ z.toNat = k else y = k * 2 ^ (-z).toNat) ∧
          (op ≠ 5 → if down then k = x / d else k = (x + d - 1) / d) ∧
          (op = 5 → 2 * x ≤ (2 * k + 1) * d ∧ 2 * k * d ≤ 2 * x + d ∧ (2 * x = (2 * k + 1) * d ∨ 2 * k * d = 2 * x + d → k % 2 = 0))))

/-- R222: the classes of FCLASS by the fields of the operand. -/
def Sys2Proof.Claims.ClassTable : Prop :=
  ∀ m : Fmt, m = f32 ∨ m = f16 ∨ m = bf16 → ∀ a : W32,
    let neg := (fields m a).1
    let ex := (fields m a).2.1
    let fr := (fields m a).2.2
    m.classOf a =
      if ex = 2 ^ m.eb - 1 then (if fr = 0 then (if neg then 0 else 7) else if fr < 2 ^ (m.mb - 1) then 8 else 9)
      else if ex = 0 then (if fr = 0 then (if neg then 3 else 4) else if neg then 2 else 5)
      else if neg then 1 else 6

/-- R55, R221: the exact results and the special operands of RCP, RSQ, SQRT, EXP2, LOG2, SIN and COS; the infinity of a finite operand raises
OVF and INX. -/
def Sys2Proof.Claims.SpecialTable : Prop :=
  let nan := f32.nan
  let inf (n : Bool) : W32 := if n then 0xFF800000 else 0x7F800000
  let zero (n : Bool) : W32 := if n then 0x80000000 else 0
  let two (n : Int) : W32 := BitVec.ofNat 32 ((n + 127).toNat * 2 ^ 23)
  let int (n : Int) : W32 := (f32.ofDyadic 0 n 0).1
  let pole : BitVec 4 := fOVF ||| fINX
  (∀ op sig (a : W32), op ≤ 6 → f32.unpack a = .nan sig → specialFn op a = (nan, if sig then fINV else 0)) ∧
  (∀ n, specialFn 0 (inf n) = (zero n, 0) ∧ specialFn 0 (zero n) = (inf n, pole) ∧ specialFn 1 (zero n) = (inf n, pole) ∧
    specialFn 2 (zero n) = (zero n, 0) ∧ specialFn 3 (zero n) = (two 0, 0) ∧ specialFn 4 (zero n) = (inf true, pole) ∧
    specialFn 5 (zero n) = (zero n, 0) ∧ specialFn 6 (zero n) = (two 0, 0) ∧ specialFn 5 (inf n) = (nan, fINV) ∧ specialFn 6 (inf n) = (nan, fINV)) ∧
  specialFn 1 (inf false) = (zero false, 0) ∧ specialFn 2 (inf false) = (inf false, 0) ∧ specialFn 3 (inf false) = (inf false, 0) ∧
  specialFn 3 (inf true) = (zero false, 0) ∧ specialFn 4 (inf false) = (inf false, 0) ∧
  (∀ (op : Nat) (a : W32), op = 1 ∨ op = 2 ∨ op = 4 → (f32.unpack a).isNaN = false → (f32.unpack a).isZero = false → a.msb = true →
    specialFn op a = (nan, fINV)) ∧
  (∀ n : Int, -126 ≤ n → n ≤ 126 → specialFn 0 (two n) = (two (-n), 0) ∧ specialFn 0 (0x80000000#32 ||| two n) = (0x80000000#32 ||| two (-n), 0)) ∧
  (∀ n : Int, -63 ≤ n → n ≤ 63 → specialFn 1 (two (2 * n)) = (two (-n), 0) ∧ specialFn 2 (two (2 * n)) = (two n, 0)) ∧
  (∀ n : Int, -126 ≤ n → n ≤ 127 → specialFn 3 (int n) = (two n, 0) ∧ specialFn 4 (two n) = (int n, 0)) ∧
  (∀ n : Int, -149 ≤ n → n ≤ -127 → specialFn 3 (int n) = (BitVec.ofNat 32 (2 ^ (n + 149).toNat), 0)) ∧
  specialFn 2 0x41100000 = (0x40400000, 0)

/-- R225: opposite infinities among the addends of a dot product raise INV and give the canonical NaN, beside a NaN or not; so does 0 × ∞. -/
def Sys2Proof.Claims.DotProductInvalid : Prop :=
  ∀ m : Fmt, m = f16 ∨ m = bf16 → ∀ a b c : W32,
    let hi (x : W32) : W32 := x >>> 16
    let p0 := (m.unpack a).mul (m.unpack b)
    let p1 := (m.unpack (hi a)).mul (m.unpack (hi b))
    let xs := [p0.1, p1.1, f32.unpack c]
    (p0.2 = true ∨ p1.2 = true ∨ (FVal.inf true ∈ xs ∧ FVal.inf false ∈ xs) →
      (dot2 m a b c).1 = f32.nan ∧ (dot2 m a b c).2 &&& fINV = fINV) ∧
    (xs.any FVal.isNaN = true → (dot2 m a b c).1 = f32.nan)

/-- Floating point, scalar and packed: R217 to R225, and the tables of R55, R220, R221 and R222. -/
def Obligations.FloatingPointResults : Prop :=
  ScalarFloatResults ∧ PackedFloatResults ∧ UnaryTable ∧ ClassTable ∧ SpecialTable ∧ DotProductInvalid

/-- R54, R55, R217, R218: NaN operands give the canonical NaN and a signalling one raises INV; opposite infinities and 0 × ∞, in either
order, give it and raise INV; FMIN and FMAX return the other operand of one NaN. -/
def Obligations.FloatSpecialOperands : Prop :=
  ∀ m : Fmt, m = f32 ∨ m = f16 ∨ m = bf16 → ∀ (rm : RMode) (a b c : W32),
    let x := m.unpack a
    let y := m.unpack b
    let z := m.unpack c
    (x.isNaN = true ∨ y.isNaN = true → (m.add rm a b).1 = m.nan ∧ (m.sub rm a b).1 = m.nan ∧ (m.mul rm a b).1 = m.nan ∧
      (m.fma rm a b c).1 = m.nan) ∧
    (z.isNaN = true → (m.fma rm a b c).1 = m.nan) ∧
    (x.isSNaN = true ∨ y.isSNaN = true ∨ z.isSNaN = true → (m.fma rm a b c).2 &&& fINV = fINV) ∧
    (x.isSNaN = true ∨ y.isSNaN = true → (m.add rm a b).2 &&& fINV = fINV ∧ (m.sub rm a b).2 &&& fINV = fINV ∧
      (m.mul rm a b).2 &&& fINV = fINV ∧ (m.minmax false a b).2 &&& fINV = fINV ∧ (m.minmax true a b).2 &&& fINV = fINV) ∧
    (∀ n, x = .inf n → y = .inf (!n) → m.add rm a b = (m.nan, fINV)) ∧
    (∀ n, x = .inf n → y = .inf n → m.sub rm a b = (m.nan, fINV)) ∧
    (∀ n, (x.mul y).1 = .inf n → z = .inf (!n) → m.fma rm a b c = (m.nan, fINV)) ∧
    (x.isInf = true ∧ y.isZero = true ∨ x.isZero = true ∧ y.isInf = true → m.mul rm a b = (m.nan, fINV) ∧ (m.fma rm a b c).1 = m.nan ∧
      (m.fma rm a b c).2 &&& fINV = fINV ∧ (z.isNaN = true → (m.fma rm a b c).1 = m.nan)) ∧
    (x.isNaN = true → y.isNaN = false → (m.minmax false a b).1 = BitVec.ofNat 32 (m.low b) ∧
      (m.minmax true a b).1 = BitVec.ofNat 32 (m.low b)) ∧
    (x.isNaN = false → y.isNaN = true → (m.minmax false a b).1 = BitVec.ofNat 32 (m.low a) ∧
      (m.minmax true a b).1 = BitVec.ofNat 32 (m.low a)) ∧
    (x.isNaN = true → y.isNaN = true → (m.minmax false a b).1 = m.nan ∧ (m.minmax true a b).1 = m.nan)

/-- R54: a value that the format holds is rounded to itself under every mode, and no flag is raised; a signed zero and an infinity keep
their sign. -/
def Obligations.RepresentableValuesRoundToThemselves : Prop :=
  ∀ m : Fmt, m = f32 ∨ m = f16 ∨ m = bf16 → ∀ (rm : RMode) (a : W32), (m.unpack a).isNaN = false →
    m.ofVal rm (m.unpack a) = (BitVec.ofNat 32 (m.low a), 0)

/-- R226, R227, R228, R230: CVT, PACK2, UNPACK, BFPD. -/
def Sys2Proof.Claims.ValueConversions : Prop :=
  (∀ (f : WForm) (s : State) (t : Nat),
    let o := specW1 f (nregs f.var) (some f.var) (nregs f.ty)
    let a := (o.opnd s t 0).ofTy f.var
    let mode := (f.fn.extractLsb' 0 2).toNat
    let isFloat (ty : Nat) : Bool := ty == 3 || ty == 0xA || ty == 0xB
    let fm (ty : Nat) : Fmt := if ty = 0xA then f16 else if ty = 0xB then bf16 else f32
    let x := elemVal (f.var % 2 == 0) (elemW f.var) a 0
    Runs (.cvt f) o s t → ∃ (v : W64) (fl : BitVec 4) (sat : Bool),
      exec (.cvt f) s = .next (s.gives t { Res.ofTy f.d f.ty v with fpf := fl, satc := sat }) ∧
      (isFloat f.var = false → isFloat f.ty = false → fl = 0 ∧
        (let y := if mode = 1 then clampInt (f.ty % 2 == 0) (elemW f.ty) x else (x, false)
         element (elemW f.ty) v 0 y.1 ∧ sat = y.2)) ∧
      (isFloat f.var = false → isFloat f.ty = true →
        (v.setWidth 32, fl) = (fm f.ty).round mode (decide (x < 0)) x.natAbs 0 ∧ sat = false) ∧
      (isFloat f.var = true → isFloat f.ty = true →
        (v.setWidth 32, fl) = (fm f.ty).ofVal mode ((fm f.var).unpack (a.setWidth 32)) ∧ sat = false) ∧
      (isFloat f.var = true → isFloat f.ty = false →
        (let y := floatToInt mode (f.ty % 2 == 0) (elemW f.ty) ((fm f.var).unpack (a.setWidth 32))
         element (elemW f.ty) v 0 y.1 ∧ fl = y.2.1 ∧ sat = y.2.2))) ∧
  (∀ (f : WForm) (s : State) (t : Nat),
    let o := specW2 f 1 (some (if f.ty = 4 ∨ f.ty = 5 then 3 else if f.ty = 6 then 0 else 6)) 1
      (some (if f.ty = 4 ∨ f.ty = 5 then 3 else if f.ty = 6 then 0 else 6)) 1
    let v (i : Nat) : W32 := (o.opnd s t i).lo
    let rm := (f.fn.extractLsb' 2 2).toNat
    Runs (.pack2 f) o s t → ∃ (r : W32) (fl : BitVec 4) (sat : Bool),
      exec (.pack2 f) s = .next (s.gives t { Res.one f.d.toNat r f.ty with fpf := fl, satc := sat }) ∧
      (f.ty = 4 ∨ f.ty = 5 → (r, fl) = twoHalves (fun i => (if f.ty = 4 then f16 else bf16).ofVal rm (f32.unpack (v i))) ∧ sat = false) ∧
      (f.ty = 6 → f.sat = false → fl = 0 ∧ sat = false ∧ r = (v 1).setWidth 16 ++ (v 0).setWidth 16) ∧
      (f.ty = 7 → f.sat = false → fl = 0 ∧ sat = false ∧
        r = (v 1).extractLsb' 16 8 ++ (v 1).setWidth 8 ++ (v 0).extractLsb' 16 8 ++ (v 0).setWidth 8) ∧
      (f.ty = 6 → f.sat = true → fl = 0 ∧
        (sat = true ↔ ∃ i, i < 2 ∧ ((v i).toInt < -32768 ∨ 32767 < (v i).toInt)) ∧ ∀ i, i < 2 →
        (r.extractLsb' (16 * i) 16).toInt = max (-32768) (min 32767 (v i).toInt)) ∧
      (f.ty = 7 → f.sat = true → fl = 0 ∧
        (let x (i : Nat) : Int := ((v (i / 2)).extractLsb' (16 * (i % 2)) 16).toInt
         (sat = true ↔ ∃ i, i < 4 ∧ (x i < -128 ∨ 127 < x i)) ∧
           ∀ i, i < 4 → (r.extractLsb' (8 * i) 8).toInt = max (-128) (min 127 (x i))))) ∧
  (∀ (f : WForm) (s : State) (t : Nat),
    let o := specW1 f 1 (some f.ty) 1
    let a := (o.opnd s t 0).lo
    let k := (f.fn.extractLsb' 2 2).toNat
    let zx := f.fn.getLsbD 5
    let m : Fmt := if f.ty = 4 then f16 else bf16
    Runs (.unpack f) o s t → exec (.unpack f) s = .next (s.gives t
      (if f.ty = 4 ∨ f.ty = 5 then
        (let r := f32.ofVal 0 (m.unpack ((a.extractLsb' (16 * k) 16).setWidth 32))
         { Res.one f.d.toNat r.1 3 with fpf := r.2 })
       else if f.ty = 6 then
        Res.one f.d.toNat (if zx then (a.extractLsb' (16 * k) 16).setWidth 32 else (a.extractLsb' (16 * k) 16).signExtend 32) (if zx then 1 else 0)
       else
        Res.one f.d.toNat (if zx then (a.extractLsb' (8 * k) 8).setWidth 32 else (a.extractLsb' (8 * k) 8).signExtend 32) (if zx then 1 else 0)))) ∧
  (∀ (f : WForm) (s : State) (t : Nat),
    let w := f.ty
    let dt := if f.hi = 0 then 3 else if f.hi = 1 then 0xA else 0xB
    let m : Fmt := if f.hi = 0 then f32 else if f.hi = 1 then f16 else bf16
    let o := specW2 f 1 (some 0) 1 (some 1) 1
    let q := asInt true w ((o.opnd s t 0).lo.toNat % 2 ^ w)
    let e := (o.opnd s t 1).lo.toNat % 256
    let r := m.ofVal f.rm (if e = 255 then .nan false else .fin (decide (q < 0)) q.natAbs ((e : Int) - 127 - ((w : Int) - 2)))
    FloatResult (.bfpd f) o s t f.d dt r)

/-- R229, R61: BFPQ of the active threads of an issue: a block is the threads of one segment, or of one half of a segment of 64 lanes; every
thread takes its own mantissa under variant 0 and the scale of its block under variant 1. -/
def Sys2Proof.Claims.BlockQuantize : Prop :=
  ∀ (f : WForm) (s : State),
    let o := specW1 f 1 (some 3) 1
    let x (t : Nat) : FVal := f32.unpack (o.opnd s t 0).lo
    let mates (t : Nat) : List Nat := s.cur.set.filter (fun u => laneOf u / min s.curCore.segW 32 == laneOf t / min s.curCore.segW 32)
    let e (t : Nat) : Nat := bfpScale ((mates t).map x)
    let m (t : Nat) : Int × BitVec 4 := bfpMant f.ty (e t) (x t)
    WellFormed (.bfpq f) → s.cur.set.Nodup → (∀ t ∈ s.cur.set, s.ready1 o t = true) →
    exec (.bfpq f) s = .next (s.cur.set.foldl (fun s' t => s'.gives t
      (if f.var = 0 then { Res.one f.d.toNat (BitVec.ofInt 32 (m t).1) 0 with fpf := (m t).2 } else Res.one f.d.toNat (BitVec.ofNat 32 (e t)) 1)) s)

/-- R61: the shared scale of a block, and the mantissa of an element that is a NaN, an infinity or finite. -/
def Sys2Proof.Claims.BlockScale : Prop :=
  (∀ xs : List FVal,
    (xs.any FVal.isNaN = true → bfpScale xs = 255) ∧
    (xs.any FVal.isNaN = false → xs.all FVal.isZero = true → bfpScale xs = 0) ∧
    (xs.any FVal.isNaN = false → xs.any FVal.isInf = true → bfpScale xs = 254) ∧
    (∀ (x : FVal) (n : Bool) (a : Nat) (b : Int), x ∈ xs → xs.any FVal.isNaN = false → xs.any FVal.isInf = false → x = .fin n a b → a ≠ 0 →
      (∀ n' a' b', FVal.fin n' a' b' ∈ xs → a' ≠ 0 → b' + (Nat.log2 a' : Int) ≤ b + (Nat.log2 a : Int)) →
      -1000 ≤ b + (Nat.log2 a : Int) → (bfpScale xs : Int) = max 0 (min 254 (b + (Nat.log2 a : Int) + 127)))) ∧
  (∀ (w e : Nat) (x : FVal), 2 ≤ w → w ≤ 8 →
    (e = 255 → bfpMant w e x = (0, if x.isNaN then fINV else 0)) ∧
    (e ≠ 255 → ∀ n, x = .inf n → bfpMant w e x = (if n then -(2 ^ (w - 1) : Int) else 2 ^ (w - 1) - 1, fOVF ||| fINX)) ∧
    (e ≠ 255 → ∀ n a b, x = .fin n a b → -(2 ^ (w - 1) : Int) ≤ (bfpMant w e x).1 ∧ (bfpMant w e x).1 ≤ 2 ^ (w - 1) - 1 ∧
      (a = 0 → bfpMant w e x = (0, 0))))

/-- Conversions and block floating point: R226 to R230, R61. -/
def Obligations.ConversionResults : Prop := ValueConversions ∧ BlockQuantize ∧ BlockScale

/-! ### An issue as a whole -/

/-- R64 to R66, R187: a routed source names the thread of the lane that its descriptor selects, in the reader's own segment; the edge rules
give zero, the nearest lane, the lane mod W, or the reader's own register outside the segment. -/
def Sys2Proof.Claims.RoutingSelectsLanes : Prop :=
  ∀ (k : Core) (t edge r : Nat) (d : BitVec 9),
    let w := k.segW
    let l := laneOf t % w
    let base := t - laneOf t + laneOf t / w * w
    let arg := d.extractLsb' 0 6
    let kind := (d.extractLsb' 6 3).toNat
    let reads (q : Nat) : Prop := k.readSrc t edge { reg := r, desc := d } = [k.readReg q r]
    let outside (s : Int) : Prop := (edge = 0 → k.readSrc t edge { reg := r, desc := d } = [(0, 2)]) ∧
      (edge = 1 → reads (base + (if s < 0 then 0 else w - 1))) ∧ (edge = 2 → reads (base + (s % (w : Int)).toNat)) ∧ (edge = 3 → reads t)
    w ≠ 0 →
    (d = 0 → reads t) ∧
    (kind = 1 → reads (base + (((l : Int) + arg.toInt) % (w : Int)).toNat)) ∧
    (kind = 2 → (0 ≤ (l : Int) + arg.toInt → (l : Int) + arg.toInt < w → reads (base + ((l : Int) + arg.toInt).toNat)) ∧
      ((l : Int) + arg.toInt < 0 ∨ (w : Int) ≤ (l : Int) + arg.toInt → outside ((l : Int) + arg.toInt))) ∧
    (kind = 3 → (arg.toNat < w → reads (base + arg.toNat)) ∧ (w ≤ arg.toNat → outside arg.toNat)) ∧
    (kind = 4 → reads (base + (l ^^^ arg.toNat))) ∧
    (kind = 5 → (let x := (k.readReg t arg.toNat).1.toNat
      (x < w → reads (base + x)) ∧ (w ≤ x → outside x))) ∧
    (kind = 6 → reads (base + (l ^^^ (2 ^ arg.toNat - 1))))

/-- R67, R39, R118: a read of v0, and of a thread that is not live, gives 0 with tag b32; a subordinate reads v1 to v31 of its
principal. -/
def Sys2Proof.Claims.RegisterReads : Prop :=
  ∀ (k : Core) (t r : Nat),
    k.readReg t 0 = (0, 2) ∧
    (k.live t = false → k.readReg t r = (0, 2)) ∧
    (k.live t = true → (k.thread t).sub = none → r ≠ 0 → r < 32 + 32 * (k.phrase (phraseOf t)).xlev.toNat →
      k.readReg t r = (Map.get 0 (k.thread t).v r, Map.get 2 (k.thread t).tags r)) ∧
    (∀ sb, k.live t = true → (k.thread t).sub = some sb → 1 ≤ r → r ≤ 31 →
      k.readReg t r = (Map.get 0 (k.thread (k.rcd sb.rid).tid).v r, Map.get 2 (k.thread (k.rcd sb.rid).tid).tags r)) ∧
    (∀ sb, k.live t = true → (k.thread t).sub = some sb → 32 ≤ r → r < 48 →
      k.readReg t r = (Map.get 0 (k.thread t).v r, Map.get 2 (k.thread t).tags r))

/-- Lane routing and register reads: R39, R64 to R67, R118, R187. -/
def Obligations.OperandsAndRouting : Prop := RoutingSelectsLanes ∧ RegisterReads

namespace Sys2Proof.Claims

/-- `i`, with operands `o`, computes registers from its operands: `r k ops` is what a thread takes of the operands `ops`. Whatever set of
threads issues it without U, each takes the result of its own operands as they stood before the issue (R187, R188). -/
def ComputesPerThread (i : Instr) (o : OpSpec) (r : List Opnd → Res) : Prop :=
  ∀ s : State, o.h.u = false → WellFormed i → s.cur.set.Nodup → (∀ t ∈ s.cur.set, s.ready1 o t = true) →
    exec i s = .next (s.cur.set.foldl (fun s' t => s'.gives t (r (o.vals s.curCore t))) s)

/-- With U, the threads of one segment take the result of the lowest lane's operands (R178). Operands that differ, the first in the order
of the fields and of the lanes, trap UNIFORM in every thread under UNICHK, and set UNIF in every thread without it (R179). -/
def ComputesUniformly (i : Instr) (o : OpSpec) (r : List Opnd → Res) : Prop :=
  ∀ (s : State) (t : Nat) (ts : List Nat),
    let k := s.curCore
    let v (u j : Nat) : List W32 := ((o.vals k u).getD j []).map (·.1)
    let n := o.srcs.length
    o.h.u = true → WellFormed i → s.cur.set = t :: ts → (t :: ts).Nodup → (∀ u ∈ t :: ts, s.ready1 o u = true) →
    (∀ u ∈ ts, laneOf u / k.segW = laneOf t / k.segW) →
    ((∀ u ∈ ts, ∀ j, j < n → v u j = v t j) → exec i s = .next ((t :: ts).foldl (fun s' u => s'.gives u (r (o.vals k t))) s)) ∧
    (∀ u ∈ ts, ∀ j, j < n → v u j ≠ v t j → k.unichk = false →
      exec i s = .next ((t :: ts).foldl (fun s' u => s'.moves u (fun th => (th.setUnif).apply (r (o.vals k t)))) s)) ∧
    (∀ u us vs j, j < n → (∀ j', j' < j → ∀ x ∈ ts, v x j' = v t j') → ts = us ++ u :: vs → (∀ x ∈ us, v x j = v t j) →
      v u j ≠ v t j → k.unichk = true →
      exec i s = .next ((t :: ts).foldl (fun s' x => s'.trap s.cur.core x .uniform s.cur.pc
        (BitVec.ofNat 64 ((o.srcs.getD j { reg := 0 }).idx + laneOf u % k.segW * 256)))
          ((t :: ts).foldl (fun s' x => s'.updThread s.cur.core x (Thread.commit s.cur)) (s.noted (t :: ts)))))

/-- The forms that the next two statements are about: single registers of form W, x-pairs of form W, form V, form I, and a routed move; any
descriptor that a field admits may stand in them. -/
def EveryForm (P : Instr → OpSpec → (List Opnd → Res) → Prop) : Prop :=
  let x (ops : List Opnd) (j : Nat) : Opnd := ops.getD j []
  (∀ f : WForm, f.sat = false → f.var = 0 → (f.ty = 0 ∨ f.ty = 1 →
    P (.add f) (specW f f.ty) (fun ops => Res.one f.d.toNat ((x ops 0).lo + (x ops 1).lo) f.ty)) ∧
    (f.ty = 8 ∨ f.ty = 9 → P (.sub f) (specW f f.ty) (fun ops => Res.pair f.d.toNat ((x ops 0).x - (x ops 1).x) f.ty))) ∧
  (∀ f : VForm, P (.mad f) (specV f none none none) (fun ops => Res.one f.d.toNat ((x ops 0).lo * (x ops 1).lo + (x ops 2).lo) 2)) ∧
  (∀ f : IForm, P (.addi f) (specI f none) (fun ops => Res.one f.d.toNat ((x ops 0).lo + f.imm.signExtend 32)
    (if (x ops 0).tag = 0 then 0 else if (x ops 0).tag = 1 then 1 else 2))) ∧
  (∀ f : WForm, P (.mov f) (specW1 f 1 none 1) (fun ops => { regs := [(f.d.toNat, (x ops 0).lo, if f.var = 0 then (x ops 0).tag else 2)] }))

end Sys2Proof.Claims

/-- Issues of many threads: an exchange between lanes loses nothing; the uniform bit: R178, R179, R187, R188. -/
def Obligations.LanesAndUniformIssue : Prop := EveryForm ComputesPerThread ∧ EveryForm ComputesUniformly

namespace Sys2Proof.Claims

/-- The registers that a source names, its own and its index register, may be named by thread `t` (R37, R65, R118). -/
def NameableSrc (k : Core) (t : Nat) (x : Src) : Prop :=
  x.regs.all (k.canRead t) = true ∧ ∀ j, ixReg x.desc = some j → k.canRead t j = true
/-- The registers that a destination names may be written by thread `t`. -/
def NameableDst (k : Core) (t : Nat) (x : Dst) : Prop := x.n = 0 ∨ (k.canWrite t x.reg = true ∧ k.canWrite t (x.reg + x.n - 1) = true)

/-- R185, R177: a lone thread meets the checks of its issue in order: the guard, REGX by the fields A, B, C and D, each with its index register,
then ROUTE by the fields; a false guard changes nothing but the PC. -/
def ChecksComeInOrder (i : Instr) (o : OpSpec) : Prop :=
  ∀ (s : State) (t : Nat),
    let k := s.curCore
    let th := s.curThread t
    let refused (cz : Cause) (v : Nat) : Prop := exec i s =
      .next (((s.noted [t]).updThread s.cur.core t (Thread.commit s.cur)).trap s.cur.core t cz s.cur.pc (BitVec.ofNat 64 v))
    s.cur.set = [t] → WellFormed i → th.kept = none → [1, 2, 4, 8, 16, 32, 64].contains k.segW →
    (th.pred o.h.g.toNat = o.h.n → exec i s = .next (s.moves t id)) ∧
    (th.pred o.h.g.toNat ≠ o.h.n →
      (∀ us x vs, o.srcs = us ++ x :: vs → (∀ y ∈ us, NameableSrc k t y) →
        (x.regs.all (k.canRead t) = false → refused .regx (x.reg + x.idx * 256)) ∧
        (x.regs.all (k.canRead t) = true → ∀ j, ixReg x.desc = some j → k.canRead t j = false → refused .regx (j + x.idx * 256))) ∧
      ((∀ y ∈ o.srcs, NameableSrc k t y) → ∀ x ∈ o.dsts, o.dsts.length = 1 →
        (¬NameableDst k t x → refused .regx (x.reg + x.idx * 256)) ∧
        (NameableDst k t x → ∀ us y vs, o.srcs = us ++ y :: vs → (∀ z ∈ us, routeBad k.segW z.desc = false) →
          routeBad k.segW y.desc = true → refused .route (y.idx + y.desc.toNat * 256))))

end Sys2Proof.Claims

/-- R50: under TAGCHK a scalar source whose tag is neither the instruction's type nor b32 traps FMT, A before B. -/
def Sys2Proof.Claims.TagCheckTrapsFmt : Prop :=
  ∀ (f : WForm) (s : State) (t : Nat),
    let k := s.curCore
    let c := s.cur.core
    let o := specW f f.ty
    let ta := (o.opnd s t 0).tag.toNat
    let tb := (o.opnd s t 1).tag.toNat
    let refused (v : Nat) : Prop :=
      exec (.add f) s = .next (((s.noted [t]).updThread c t (Thread.commit s.cur)).trap c t .fmt s.cur.pc (BitVec.ofNat 64 v))
    s.cur.set = [t] → WellFormed (.add f) → is64 f.ty = false → k.tagchk = true →
    s.ready1 { o with srcs := o.srcs.map (fun x => { x with ty := none }) } t = true →
    (ta ≠ f.ty → ta ≠ 2 → refused (ta * 16)) ∧
    (ta = f.ty ∨ ta = 2 → tb ≠ f.ty → tb ≠ 2 → refused (1 + tb * 16))

/-- The checks before an issue, of every form: R50, R177, R185. -/
def Obligations.IssueChecksInOrder : Prop := EveryForm (fun i o _ => ChecksComeInOrder i o) ∧ TagCheckTrapsFmt

/-! ### Control -/

namespace Sys2Proof.Claims

/-- The instruction answers a next state that satisfies `P`. -/
def Leaves (i : Instr) (s : State) (P : State → Prop) : Prop := ∃ s', exec i s = .next s' ∧ P s'

/-- The word at `pc` is cached and is a right header, with tag `tag` where one is asked for (R182, R183). -/
def Target (s : State) (pc : W64) (tag : Option Nat) : Prop :=
  pc.toNat % 8 = 0 ∧ ∃ h, s.curCore.fetch pc = some h ∧ headerOk h = .ok ∧ ∀ x, tag = some x → hdrTag h = x

/-- Thread `t` alone goes to the header at `pc`, with link `lk`; nothing else changes but the age of its segment (R18). -/
def LandsAt (i : Instr) (s : State) (t : Nat) (pc lk : W64) : Prop :=
  exec i s = .next ((s.noted [t]).updThread s.cur.core t (fun th => ({ th.commit s.cur with lk := lk }).goto pc))

/-- Thread `t` alone takes a trap whose %tpc is the instruction and whose %tval is `v`. -/
def Traps (i : Instr) (s : State) (t : Nat) (cz : Cause) (v : W64) : Prop :=
  exec i s = .next (((s.noted [t]).updThread s.cur.core t (Thread.commit s.cur)).trap s.cur.core t cz s.cur.pc v)

/-- The operands of a transfer: a C form that ends its block. -/
def transferSpec (f : CForm) (useA : Bool) : OpSpec := { CForm.spec f useA with endsBlock := true, keepIdle := true }

/-- `s'` differs from `s` in nothing but the threads `ts` of core `c` and the ages of its segments (R18). -/
def onlyThreads (s s' : State) (c : Nat) (ts : List Nat) : Prop :=
  { s' with cores := [] } = { s with cores := [] } ∧ (∀ d, d ≠ c → s'.core d = s.core d) ∧
    (∀ u, u ∉ ts → (s'.core c).thread u = (s.core c).thread u) ∧
    { s'.core c with threads := [], phrases := [] } = { s.core c with threads := [], phrases := [] }

end Sys2Proof.Claims

/-- R180, R181, R182: a header is right when bits 63:60 are ones, bits 7:0 are the XOR of the seven upper bytes, LEN is not 0, KIND is
at most 4, TAG lies below 0xF0 or is 0xFC with KIND 4, 0xFE with KIND 3, or 0xFD with KIND at most 2, and TAG 0xFC, 0xFE and KIND 4, 3
come only together; a wrong form or check is BADHDR, everything else ILLEGAL. -/
def Sys2Proof.Claims.HeaderVerdicts : Prop :=
  ∀ h : W64,
    let byte (k : Nat) : BitVec 8 := h.extractLsb' (8 * k) 8
    let len := (h.extractLsb' 52 8).toNat
    let tag := (h.extractLsb' 44 8).toNat
    let kind := (h.extractLsb' 8 5).toNat
    let form := h.extractLsb' 60 4 = 15#4 ∧ byte 0 = byte 1 ^^^ byte 2 ^^^ byte 3 ^^^ byte 4 ^^^ byte 5 ^^^ byte 6 ^^^ byte 7
    let fields := len ≠ 0 ∧ kind ≤ 4 ∧ (tag = 0xFC ↔ kind = 4) ∧ (tag = 0xFE ↔ kind = 3) ∧ (tag = 0xFD → kind ≤ 2) ∧
      (tag < 0xF0 ∨ tag = 0xFC ∨ tag = 0xFD ∨ tag = 0xFE)
    (headerOk h = .bad ↔ ¬form) ∧ (headerOk h = .ok ↔ form ∧ fields) ∧ (headerOk h = .reserved ↔ form ∧ ¬fields)

/-- R236 to R239 for a thread alone: BRA and CALL go to this instruction + 8 × OFF, JMPI and CALLI to the address in x-pair A whose
header must show the TAG field, RET to %lk whose header must show 0xFE; CALL and CALLI leave the address of the word after. -/
def Sys2Proof.Claims.TransfersLand : Prop :=
  ∀ (f : CForm) (s : State) (t : Nat),
    let d := transferSpec f false
    let a := transferSpec f true
    let here := s.cur.pc + BitVec.ofInt 64 (8 * f.off.toInt)
    let at_ := (a.opnd s t 0).x
    let lk := (s.curThread t).lk
    (Runs (.bra f) d s t → Target s here none → LandsAt (.bra f) s t here lk) ∧
    (Runs (.call f) d s t → Target s here none → LandsAt (.call f) s t here (s.cur.pc + 8)) ∧
    (Runs (.jmpi f) a s t → Target s at_ (some f.tag.toNat) → LandsAt (.jmpi f) s t at_ lk) ∧
    (Runs (.calli f) a s t → Target s at_ (some f.tag.toNat) → LandsAt (.calli f) s t at_ (s.cur.pc + 8)) ∧
    (Runs (.ret f) d s t → lk ≠ 0 → Target s lk (some 0xFE) → LandsAt (.ret f) s t lk lk)

/-- R182, R183, R239: a transfer to a word that is no right header traps BADHDR or ILLEGAL with the target in %tval, a wrong tag traps
LANDTAG, RET with %lk = 0 traps RETNULL. That a reserved field of a target's header is ILLEGAL, as R182 says, and not BADHDR, as R238, R239 and R339 can be
read, is the model's reading (log 130). -/
def Sys2Proof.Claims.TransfersThatTrap : Prop :=
  ∀ (f : CForm) (s : State) (t : Nat),
    let judged (i : Instr) (o : OpSpec) (pc : W64) (tag : Option Nat) : Prop := Runs i o s t →
      (pc.toNat % 8 ≠ 0 → Traps i s t .badhdr pc) ∧
      (pc.toNat % 8 = 0 → ∀ h, s.curCore.fetch pc = some h →
        (headerOk h = .bad → Traps i s t .badhdr pc) ∧ (headerOk h = .reserved → Traps i s t .illegal pc) ∧
        (∀ x, tag = some x → headerOk h = .ok → hdrTag h ≠ x → Traps i s t .landtag pc))
    let here := s.cur.pc + BitVec.ofInt 64 (8 * f.off.toInt)
    let o := transferSpec f true
    judged (.bra f) (transferSpec f false) here none ∧ judged (.call f) (transferSpec f false) here none ∧
    judged (.jmpi f) o (o.opnd s t 0).x (some f.tag.toNat) ∧ judged (.calli f) o (o.opnd s t 0).x (some f.tag.toNat) ∧
    ((s.curThread t).lk ≠ 0 → judged (.ret f) (transferSpec f false) (s.curThread t).lk (some 0xFE)) ∧
    (Runs (.ret f) (transferSpec f false) s t → (s.curThread t).lk = 0 → Traps (.ret f) s t .retnull 0)

/-- Headers and transfers: R180 to R183, R236 to R239. -/
def Obligations.ControlTransfers : Prop := HeaderVerdicts ∧ TransfersLand ∧ TransfersThatTrap

/-- R20, R235, R177: a branch of any set of threads: those whose guard holds go to the target, the others fall through; a thread pushes the
block's reconvergence address exactly when its group goes both ways and RECONV is not 0. -/
def Obligations.DivergingBranchPushes : Prop :=
  ∀ (f : CForm) (s : State),
    let c := s.cur.core
    let k := s.curCore
    let here := s.cur.pc + BitVec.ofInt 64 (8 * f.off.toInt)
    let taken (t : Nat) : Bool := (k.thread t).pred f.h.g.toNat != f.h.n
    let apart (t : Nat) : Bool := (k.thread t).sub.isNone && (k.thread t).grp.isSome &&
      s.cur.set.any (fun u => s.cur.set.any (fun v => (k.thread u).sub.isNone && (k.thread u).grp == (k.thread t).grp &&
        (k.thread v).sub.isNone && (k.thread v).grp == (k.thread t).grp && taken u && !taken v))
    WellFormed (.bra f) → f.h.u = false → s.cur.last = true → s.cur.set.Nodup → here ≠ s.cur.pc + 8 →
    Target s here none →
    Leaves (.bra f) s (fun s' => onlyThreads s s' c s.cur.set ∧ ∀ t ∈ s.cur.set,
      (s'.core c).thread t = (let th := (k.thread t).commit s.cur
        (match s.cur.reconv with
         | some r => if apart t then { th with hold0 := r, hold1 := th.hold0, hold2 := th.hold1, hold3 := th.hold2, heldFor := 0 } else th
         | none => th).goto (if taken t then here else s.cur.pc + 8)))

/-- What the group of a thread that has left it does: barrier 0 completes when every member left has arrived, and its arrivals begin again
(R240, R261); else nothing of it changes. -/
def Sys2Proof.Claims.Barrier0After (k k' : Core) (g t : Nat) : Prop :=
  let ms := (k.group g).members.filter (fun m => m != t)
  (k'.group g).members = ms ∧
  (ms ≠ [] → (∀ u ∈ ms, (k.thread u).arr0 = true) → k'.barGen g 0 = !k.barGen g 0 ∧ (∀ u ∈ ms, (k'.thread u).arr0 = false) ∧
    ∀ u w b n, k.live u = true → (k.thread u).wrec = some w → w.grp = g → w.bar = 0 → w.gen = k.barGen g 0 → w.past = false →
      (k.thread u).block = some (.bar b n) → u ≠ t → (k'.thread u).block = none) ∧
  (ms ≠ [] → (∃ u ∈ ms, (k.thread u).arr0 = false) → k'.barGen g 0 = k.barGen g 0 ∧ ∀ u ∈ ms, (k'.thread u).arr0 = (k.thread u).arr0)

/-- R38, R124 to R126, R240, R261: EXIT of a thread that is no principal ends it and leaves its group; that of a principal marks its subordinates
and waits, a member as before, while any lives, and then frees its record and ends it; that of a subordinate ends it, its flags and, where it holds
an iteration, one completed iteration going to the record (the model's choice, log 108). A thread that has ended keeps its registers (log 19). -/
def Sys2Proof.Claims.ExitEnds : Prop :=
  ∀ (f : CForm) (s : State) (t : Nat),
    let c := s.cur.core
    let k := s.curCore
    let th := s.curThread t
    let kept (x : Thread) : Prop := x.v = th.v ∧ x.tags = th.tags ∧ x.p = th.p ∧ x.fpf = th.fpf ∧ x.status = th.status ∧ x.lk = th.lk
    let rest (s' : State) : Prop := { s' with cores := [] } = { s with cores := [] } ∧ ∀ d, d ≠ c → s'.core d = s.core d
    let gone (s' : State) : Prop := rest s' ∧ ((s'.core c).thread t).st = .exited ∧ ((s'.core c).thread t).grp = none ∧ kept ((s'.core c).thread t) ∧
      (∀ r, (s'.core c).readReg t r = (0, 2)) ∧ (∀ g, th.grp = some g → Barrier0After k (s'.core c) g t) ∧
      ((k.threads.map (·.1)).Pairwise (· < ·) → (∀ u, u ≠ t → phraseOf u = phraseOf t → k.live u = false ∨ (k.thread u).sub.isSome) →
        ((s'.core c).phrase (phraseOf t)).xlev = 0)
    Runs (.exit f) { CForm.spec f false with endsBlock := true } s t →
    (th.sub = none → k.principalRec t = none → Leaves (.exit f) s gone) ∧
    (∀ r, th.sub = none → k.principalRec t = some r → k.hasSubs t = false →
      Leaves (.exit f) s (fun s' => gone s' ∧ ((s'.core c).rcd r).live = false)) ∧
    (∀ r, th.sub = none → k.principalRec t = some r → k.hasSubs t = true → Leaves (.exit f) s (fun s' => rest s' ∧
      (let x := (s'.core c).thread t
       x.st = th.st ∧ x.block = some .exitSubs ∧ x.pc = s.cur.pc ∧ x.grp = th.grp ∧ x.arr0 = th.arr0 ∧ x.arrC = th.arrC ∧ kept x) ∧
      (s'.core c).groups = k.groups ∧ ((s'.core c).rcd r).live = (k.rcd r).live ∧
      ∀ u sb, (k.thread u).sub = some sb → sb.rid = r → ∃ sb', ((s'.core c).thread u).sub = some sb' ∧ sb'.mark.isSome = true)) ∧
    (∀ sb, th.sub = some sb → Leaves (.exit f) s (fun s' => rest s' ∧
      (let x := (s'.core c).thread t
       x.st = sb.prev ∧ x.sub = none ∧ kept x) ∧
      (∀ u, u ≠ t → (s'.core c).thread u = k.thread u) ∧ (s'.core c).groups = k.groups ∧
      (th.iter = none → ((s'.core c).rcd sb.rid).fflags = (k.rcd sb.rid).fflags ||| th.fpf ∧ ((s'.core c).rcd sb.rid).done = (k.rcd sb.rid).done) ∧
      (∀ e, th.iter = some e → (k.win e).rid = sb.rid → ((s'.core c).rcd sb.rid).done = (k.rcd sb.rid).done + 1)))

/-- R182, R241 to R244 for a thread alone: YIELD moves it on and keeps it from issuing for 32 core cycles, HOLDX pops its top
hold entry, SLEEP keeps it for IMM cycles, TRAP and BRK trap with IMM in %tval. -/
def Sys2Proof.Claims.ThreadsPause : Prop :=
  (∀ (f : CForm) (s : State) (t : Nat),
    let c := s.cur.core
    let k := s.curCore
    let o : OpSpec := { CForm.spec f false with endsBlock := true }
    (Runs (.yield f) o s t → Leaves (.yield f) s (fun s' =>
      s' = (s.noted [t]).updThread c t (fun th => { (th.commit s.cur).next true with block := some (.yield (k.clock + 32)) }) ∧
      ∀ n, n < 32 → (s'.updCore c (fun k => { k with clock := k.clock + n })).ready c t = false)) ∧
    (Runs (.holdx f) o s t → exec (.holdx f) s = .next ((s.noted [t]).updThread c t (fun th =>
      let th := (th.commit s.cur).next true
      if th.hold0 = 0 then th else { th with hold0 := th.hold1, hold1 := th.hold2, hold2 := th.hold3, hold3 := 0, heldFor := 0 })))) ∧
  (∀ (f : IForm) (s : State) (t : Nat),
    let c := s.cur.core
    let o : OpSpec := { h := f.h }
    (Runs (.sleep f) o s t →
      (f.imm = 0 → exec (.sleep f) s = .next (s.moves t id)) ∧
      (f.imm ≠ 0 → exec (.sleep f) s = .next ((s.noted [t]).updThread c t (fun th =>
        { th.commit s.cur with block := some (.sleep (s.curCore.clock + f.imm.toNat)) })))) ∧
    (Runs (.trap f) o s t → Traps (.trap f) s t .soft (f.imm.setWidth 64)) ∧
    (Runs (.brk f) o s t → Traps (.brk f) s t .brk (f.imm.setWidth 64)))

/-- R18, R21, R241, R243: SLEEP and YIELD end when their time has come, a hold entry pops after 256 cycles without an arrival, and under a
segment or age guard every ready thread at the PC that the guard forces is issued. -/
def Sys2Proof.Claims.WaitsAndGuardsEnd : Prop :=
  (∀ (s : State) (c t till : Nat),
    let k := s.core c
    let th := k.thread t
    let only (i : Instr) (f : Thread → Thread) : Prop := Leaves i s (fun s' => onlyThreads s s' c [t] ∧ (s'.core c).thread t = f th)
    (th.block = some (.sleep till) → till ≤ k.clock → only (.sleepExpire c t) (fun th => th.next th.lastWord)) ∧
    (th.block = some (.sleep till) → k.clock < till → only (.sleepExpire c t) id) ∧
    (th.block = some (.yield till) → till ≤ k.clock → only (.yieldExpire c t) (fun th => { th with block := none })) ∧
    (th.block = some (.yield till) → k.clock < till → only (.yieldExpire c t) id) ∧
    (∀ h, th.st = .live → th.hold0 ≠ 0 → th.pc = th.hold0 → th.blk = none → th.pc.toNat % 8 = 0 → k.fetch th.pc = some h →
      headerOk h ≠ .bad → 256 < th.heldFor → only (.holdTimeout c t) (fun th =>
      { th with hold0 := th.hold1, hold1 := th.hold2, hold2 := th.hold3, hold3 := 0, heldFor := 0 }))) ∧
  (∀ (s : State) (c slot p : Nat) (ready : List Nat) (a : W64),
    let k := (s.core c).beforeIssue slot
    let issued (i : Instr) : Prop := Leaves i s (fun s' => ∀ t ∈ ready, (k.thread t).pc = a →
      ∃ q ∈ s'.ports, q.core = c ∧ q.pc = a ∧ t ∈ q.set)
    s.nextPhrase c slot = some (p, ready) →
    (k.segGuard p ready = some a → issued (.segmentGuard c slot)) ∧
    (k.segGuard p ready = none → k.ageGuard ready = some a → issued (.threadAgeGuard c slot)))

/-- Thread control, waits and guards: R18, R21, R182, R240 to R244. -/
def Obligations.ThreadControl : Prop := ExitEnds ∧ ThreadsPause ∧ WaitsAndGuardsEnd

/-! ### Traps and the return -/

/-- R335, R336, R339: a trap of a thread of a physical core that is no subordinate writes the trap registers and goes, at SL, to the firmware
entry or to CODEBASE + %tvec; its waits end, and the order of an acquire that it has issued is set aside (R94, R113); no v register, tag,
predicate, hold entry, membership, link or flag of any thread changes. -/
def Sys2Proof.Claims.TrapWritesItsRegisters : Prop :=
  ∀ (s : State) (c t : Nat) (cz : Cause) (tpc tval : W64),
    let k := s.core c
    let th := k.thread t
    let base : W64 := match k.inst with | some i => i.codebase | none => 0
    c < 208 → th.sub = none →
    let k' := (s.trap c t cz tpc tval).core c
    let th' := k'.thread t
    th'.tcause = BitVec.ofNat 32 cz.code ∧ th'.tpc = tpc ∧ th'.tval = tval ∧
    th'.tlev = (match th.level with | .kl => 0 | .sl => 1 | .cl => 2) ∧ th'.level = .sl ∧ th'.blk = none ∧
    th'.block = none ∧ (∀ id, th.block = some (.order id) → th'.order = some id) ∧
    th'.pc = (if cz = .preempt ∨ cz = .watchdog ∨ th.level = .sl ∨ k.tvec = 0xFFFFFFF8 then k.fwEntry else base + k.tvec.setWidth 64) ∧
    (∀ u, let x := k.thread u; let y := k'.thread u
      y.v = x.v ∧ y.tags = x.tags ∧ y.p = x.p ∧ y.hold0 = x.hold0 ∧ y.hold1 = x.hold1 ∧ y.hold2 = x.hold2 ∧ y.hold3 = x.hold3 ∧
        y.grp = x.grp ∧ y.lk = x.lk ∧ y.fpf = x.fpf ∧ y.status = x.status ∧ y.arr0 = x.arr0 ∧ y.arrC = x.arrC ∧ y.save = x.save) ∧
    (∀ u, u ≠ t → (k'.thread u).pc = (k.thread u).pc ∧ (k'.thread u).level = (k.thread u).level ∧ (k'.thread u).st = (k.thread u).st) ∧
    k'.groups = k.groups ∧ k'.tvec = k.tvec ∧ k'.phrases = k.phrases

/-- R335, R182: a vector whose header is not right, or not TAG 0xFC and KIND 4, sends a thread that trapped there to the firmware entry
with BADHDR, the vector in %tval and %tpc as it was; that %tlev stays is the model's choice (log 10). -/
def Sys2Proof.Claims.BadVectorTrapsAgain : Prop :=
  ∀ (s : State) (p : Port) (t : Nat) (h : W64),
    let k := s.core p.core
    let th := k.thread t
    p.set = [t] → p.blk = none → p.pc = th.pc → th.blk = none → th.vec = true → s.ready p.core t = true → p.pc.toNat % 8 = 0 →
    k.fetch p.pc = some h → ¬(headerOk h = .ok ∧ hdrTag h = 0xFC ∧ hdrKind h = 4) →
    let th' := ((s.front p).1.core p.core).thread t
    (s.front p).2 = none ∧ th'.pc = k.fwEntry ∧ th'.tcause = 2 ∧ th'.tval = p.pc ∧ th'.tpc = th.tpc ∧ th'.tlev = th.tlev ∧ th'.v = th.v

/-- R334: a trap on a control core stops it and raises IPI on control core 0; on control core 0 it is a warm start. -/
def Sys2Proof.Claims.ControlCoreTrapStops : Prop :=
  ∀ (s : State) (c t : Nat) (cz : Cause) (tpc tval : W64), 208 < c →
    let s' := s.trap c t cz tpc tval
    (s'.core c).halted = true ∧ (s'.core 208).evt = (s.core 208).evt ||| 16 ∧ (∀ u, s'.ready c u = false) ∧
    s.trap 208 t cz tpc tval = (s.updCore 208 (fun k => k.dropSem t)).warmStart

/-- Taking a trap: R334 to R336, R339, R182. -/
def Obligations.TrapEntry : Prop := TrapWritesItsRegisters ∧ BadVectorTrapsAgain ∧ ControlCoreTrapStops

/-- R303: ERET to a header goes on at %tpc at the level of %tlev, and to an instruction word in the block whose header is the nearest header word
before it, which must be right and hold %tpc, else BADHDR; a %tlev above 1 is ILLEGAL; a %tpc that is no multiple of 8 is BADHDR.
R337: a PREEMPT held at SL is taken there, with %tpc naming the address that ERET named. -/
def Sys2Proof.Claims.EretReturns : Prop :=
  ∀ (f : SForm) (s : State) (t : Nat),
    let c := s.cur.core
    let k := s.curCore
    let th := s.curThread t
    Runs (.eret f) { h := f.h, avail := .sl, endsBlock := true } s t →
    (1 < th.tlev.toNat → Traps (.eret f) s t .illegal s.cur.word) ∧
    (th.tlev.toNat ≤ 1 → th.tpc.toNat % 8 ≠ 0 → Traps (.eret f) s t .badhdr th.tpc) ∧
    (∀ w, th.tlev.toNat ≤ 1 → th.tpc.toNat % 8 = 0 → k.fetch th.tpc = some w → w.extractLsb' 60 4 = 15#4 →
      (th.tlev = 1 ∨ th.preempt = none ∧ th.wdog = none → exec (.eret f) s = .next ((s.noted [t]).updThread c t (fun th =>
        (th.commit s.cur).doEret none))) ∧
      (th.tlev = 0 → c < 208 → th.sub = none → ∀ v, th.preempt = some v → Leaves (.eret f) s (fun s' =>
        let th' := (s'.core c).thread t
        th'.tcause = 0x15 ∧ th'.tpc = th.tpc ∧ th'.tval = v ∧ th'.tlev = 0 ∧ th'.level = .sl ∧ th'.pc = k.fwEntry ∧ th'.preempt = none))) ∧
    (∀ w h n, th.tlev.toNat ≤ 1 → th.tpc.toNat % 8 = 0 → k.fetch th.tpc = some w → w.extractLsb' 60 4 ≠ 15#4 →
      1 ≤ n → n ≤ 255 → 8 * n ≤ th.tpc.toNat →
      (∀ m, 1 ≤ m → m < n → ∃ x, k.fetch (th.tpc - 8 * BitVec.ofNat 64 m) = some x ∧ x.extractLsb' 60 4 ≠ 15#4) →
      k.fetch (th.tpc - 8 * BitVec.ofNat 64 n) = some h → h.extractLsb' 60 4 = 15#4 →
      (headerOk h = .ok → n ≤ (h.extractLsb' 52 8).toNat → th.tlev = 1 ∨ th.preempt = none ∧ th.wdog = none →
        exec (.eret f) s = .next ((s.noted [t]).updThread c t (fun th =>
          (th.commit s.cur).doEret (some (th.tpc - 8 * BitVec.ofNat 64 n, h))))) ∧
      (headerOk h ≠ .ok ∨ (h.extractLsb' 52 8).toNat < n → Traps (.eret f) s t .badhdr th.tpc))

/-- R124: a trap of a subordinate outside any iteration ends it without a vector: its context is free, its registers as they stood (log 19), no
other thread changes, and the record, unless it holds a failure, records index 0xFFFFFFFF with the cause and the word offset; that of an
instruction before the entry header is 0xFFFF (the model's choice, log 106). -/
def Sys2Proof.Claims.SubordinateTrapEnds : Prop :=
  ∀ (s : State) (c t : Nat) (cz : Cause) (tpc tval : W64) (sb : Sub),
    let k := s.core c
    let rc := k.rcd sb.rid
    c < 208 → (k.thread t).sub = some sb → (k.thread t).iter = none → (∀ id, (k.thread t).block ≠ some (.sem id)) →
    let k' := (s.trap c t cz tpc tval).core c
    (k'.thread t).st = sb.prev ∧ (k'.thread t).sub = none ∧ (k'.thread t).v = (k.thread t).v ∧ (∀ u, u ≠ t → k'.thread u = k.thread u) ∧
    (rc.failed = false → (k'.rcd sb.rid).failed = true ∧ (k'.rcd sb.rid).failk = 0xFFFFFFFF ∧ (k'.rcd sb.rid).fcause = cz.code ∧
      (k'.rcd sb.rid).failoff = if tpc.toNat < sb.entry.toNat then 0xFFFF else min ((tpc.toNat - sb.entry.toNat) / 8) 0xFFFF) ∧
    (rc.failed = true → (k'.rcd sb.rid).failk = rc.failk ∧ (k'.rcd sb.rid).fcause = rc.fcause)

/-- The return from a trap, and the trap of a subordinate: R303, R337, R124. -/
def Obligations.TrapReturn : Prop := EretReturns ∧ SubordinateTrapEnds

/-! ### Groups, barriers, collectives -/

namespace Sys2Proof.Claims

/-- Thread `x` is `y` after an instruction that gave it the result `r`. -/
def tookResult (x y : Thread) (r : Res) : Prop :=
  let z := y.apply r
  x.v = z.v ∧ x.tags = z.tags ∧ x.p = z.p ∧ x.fpf = z.fpf ∧ x.status = z.status ∧ x.pc = y.pc + 8 ∧ x.block = none ∧ x.lk = y.lk

/-- Thread `t`, the last member of its group to come, arrives at the collective `op`, `fn`: the others wait there. -/
def LastArrives (s : State) (t g : Nat) (ms : List Nat) (op : Nat) (fn : BitVec 10) : Prop :=
  let k := s.curCore
  s.cur.core < 208 ∧ (k.thread t).sub = none ∧ (k.thread t).grp = some g ∧ (k.thread t).arrC = false ∧ (k.thread t).collRes = none ∧
  (k.group g).members = ms ∧ ms.length ≤ 2048 ∧ ms.Nodup ∧ t ∈ ms ∧
  ((k.group g).coll = some { op := op, fn := fn } ∨ (k.group g).coll = none ∧ ms = [t]) ∧
  ∀ u ∈ ms, u ≠ t → (k.thread u).arrC = true ∧ (k.thread u).arrN = false ∧ ∃ d, (k.thread u).block = some (.coll d)

/-- The value of a member, `v` that of the arriving thread. -/
def collVal (s : State) (t : Nat) (v : W64) (u : Nat) : W64 := if u = t then v else (s.curCore.thread u).tcval
/-- The destination of a member. -/
def collDst (s : State) (t d u : Nat) : Nat :=
  if u = t then d else match (s.curCore.thread u).block with | some (.coll x) => x | _ => 0

/-- Every member `u` takes the result `r u` and goes on; no other thread changes. -/
def AllTake (i : Instr) (s : State) (t : Nat) (ms : List Nat) (r : Nat → Res) : Prop :=
  Leaves i s (fun s' => ∀ u, let x := (s'.core s.cur.core).thread u; let y := s.curCore.thread u
    if u ∈ ms then tookResult x (if u = t then y.commit s.cur else y) (r u) else x = y)

/-- A result of type `ty`: one register or an x-pair. -/
def typed (ty d : Nat) (v : W64) : Res := if is64 ty then Res.pair d v ty else Res.one d (v.setWidth 32) ty

end Sys2Proof.Claims

/-- R211, R212, R213, R266: the last arrival completes VOTE and MATCH for every member: any, all, the ballot of the member's window of
64 ranks, the count; the mask, the count and the lowest rank of those with the member's value. -/
def Sys2Proof.Claims.VoteAndMatchComplete : Prop :=
  ∀ (f : WForm) (s : State) (t g : Nat) (ms : List Nat),
    let rank (u : Nat) : Nat := ms.idxOf u
    let ballot (m : W64) (u : Nat) (p : Nat → Prop) : Prop := ∀ i, i < 64 →
      (m.getLsbD i = true ↔ ∃ x ∈ ms, p x ∧ rank x = rank u / 64 * 64 + i)
    (let val (u : Nat) : W64 := collVal s t (if (s.curThread t).pred (f.a.toNat % 8) then 1 else 0) u
     let yes := ms.filter (fun u => val u != 0)
     let o : OpSpec := { h := f.h, dsts := if f.var = 2 then [dstD f.d 2] else if f.var = 3 then [dstD f.d 1] else [] }
     let d := collDst s t f.d.toNat
     LastArrives s t g ms 0x35 f.fn → Runs (.vote f) o s t →
      (f.var = 0 → AllTake (.vote f) s t ms (fun u => { preds := [(d u % 8, decide (yes ≠ []))] })) ∧
      (f.var = 1 → AllTake (.vote f) s t ms (fun u => { preds := [(d u % 8, decide (yes = ms))] })) ∧
      (f.var = 2 → ∃ m : Nat → W64, AllTake (.vote f) s t ms (fun u => Res.pair (d u) (m u) 2) ∧ ∀ u ∈ ms, ballot (m u) u (· ∈ yes)) ∧
      (f.var = 3 → AllTake (.vote f) s t ms (fun u => Res.one (d u) (BitVec.ofNat 32 yes.length) 1))) ∧
    (let o := specW1 f (nregs f.ty) (chk f.ty) (if f.var = 0 then 2 else 1)
     let val (u : Nat) : W64 := collVal s t ((o.opnd s t 0).ofTy f.ty) u
     let same (u : Nat) : List Nat := ms.filter (fun x => val x == val u)
     let d := collDst s t f.d.toNat
     LastArrives s t g ms 0x36 f.fn → Runs (.matchG f) o s t →
      (f.var = 0 → ∃ m : Nat → W64, AllTake (.matchG f) s t ms (fun u => Res.pair (d u) (m u) 2) ∧
        ∀ u ∈ ms, ballot (m u) u (fun x => val x = val u)) ∧
      (f.var = 1 → AllTake (.matchG f) s t ms (fun u => Res.one (d u) (BitVec.ofNat 32 (same u).length) 1)) ∧
      (f.var = 2 → ∃ l : Nat → Nat, AllTake (.matchG f) s t ms (fun u => Res.one (d u) (BitVec.ofNat 32 (l u)) 1) ∧
        ∀ u ∈ ms, (∃ x ∈ same u, rank x = l u) ∧ ∀ x ∈ same u, l u ≤ rank x))

/-- R73, R74, R267, R268 on integers without SAT: REDUCE gives every member the sum mod 2^w, the least, the greatest, the AND, OR or XOR of
all values; SCAN that of the ranks up to its own, or below it, where nothing is below the identity. -/
def Sys2Proof.Claims.ReduceAndScanFold : Prop :=
  ∀ (f : WForm) (s : State) (t g : Nat) (ms : List Nat),
    let o := specW1 f (nregs f.ty) (chk f.ty) (nregs f.ty)
    let w := elemW f.ty
    let sg := f.ty % 2 == 0
    let val (u : Nat) : W64 := collVal s t ((o.opnd s t 0).ofTy f.ty) u
    let num (v : W64) : Int := elemVal sg w v 0
    let op := (f.fn.extractLsb' 2 3).toNat
    let d := collDst s t f.d.toNat
    let folded (xs : List Nat) (v : W64) : Prop :=
      (op = 0 → element w v 0 ((xs.map (fun u => num (val u))).foldl (· + ·) 0)) ∧
      (op = 1 → (xs = [] → num v = if sg then 2 ^ (w - 1) - 1 else 2 ^ w - 1) ∧ (xs ≠ [] → ∃ u ∈ xs, v = val u) ∧ ∀ u ∈ xs, num v ≤ num (val u)) ∧
      (op = 2 → (xs = [] → num v = if sg then -2 ^ (w - 1) else 0) ∧ (xs ≠ [] → ∃ u ∈ xs, v = val u) ∧ ∀ u ∈ xs, num (val u) ≤ num v) ∧
      (op = 3 → ∀ i, i < w → (v.getLsbD i = true ↔ ∀ u ∈ xs, (val u).getLsbD i = true)) ∧
      (op = 4 → ∀ i, i < w → (v.getLsbD i = true ↔ ∃ u ∈ xs, (val u).getLsbD i = true)) ∧
      (op = 5 → ∀ i, i < w → (v.getLsbD i = true ↔ (xs.filter (fun u => (val u).getLsbD i)).length % 2 = 1))
    f.ty ≠ 3 → f.sat = false →
    (LastArrives s t g ms 0x80 f.fn → Runs (.reduce f) o s t → ∃ v : W64,
      AllTake (.reduce f) s t ms (fun u => typed f.ty (d u) v) ∧ folded ms v) ∧
    (LastArrives s t g ms 0x81 f.fn → Runs (.scan f) o s t → ∃ v : Nat → W64,
      AllTake (.scan f) s t ms (fun u => typed f.ty (d u) (v u)) ∧
        ∀ u ∈ ms, folded (ms.take (ms.idxOf u + if f.fn.getLsbD 5 then 0 else 1)) (v u))

/-- Collectives of a group: R73, R74, R211 to R213, R266 to R268. -/
def Obligations.CollectivesComplete : Prop := VoteAndMatchComplete ∧ ReduceAndScanFold

/-- R22, R23, R257, R258: JOIN puts the thread into the group A + IMM, creating it when it has no members, and LEAVE into none; both give
the old id, take it out of its old group and empty its hold stack; an id above 255 traps BARCOUNT. -/
def Sys2Proof.Claims.JoinAndLeave : Prop :=
  ∀ (f : IForm) (s : State) (t : Nat),
    let c := s.cur.core
    let k := s.curCore
    let th := s.curThread t
    let old : W32 := match th.grp with | some g => BitVec.ofNat 32 g | none => 0xFFFFFFFF
    let gone (s' : State) : Prop := ∀ g, th.grp = some g → ((s'.core c).group g).members = (k.group g).members.filter (· != t)
    let same (s' : State) (g : Nat) : Prop := ∀ x, x ≠ g → th.grp ≠ some x → (s'.core c).group x = k.group x
    let moved (s' : State) : Prop := let x := (s'.core c).thread t
      tookResult x (th.commit s.cur) (Res.one f.d.toNat old 1) ∧ x.hold0 = 0 ∧ x.hold1 = 0 ∧ x.hold2 = 0 ∧ x.hold3 = 0
    (∀ g, th.grp = some g → t ∈ (k.group g).members) →
    (let o : OpSpec := { specI f none with avail := .core, noSub := true }
     let id := (o.opnd s t 0).lo.toNat + f.imm.toNat % 256
     Runs (.join f) o s t →
      (255 < id → Traps (.join f) s t .barcount (BitVec.ofNat 64 id)) ∧
      (id ≤ 255 → Leaves (.join f) s (fun s' => moved s' ∧ ((s'.core c).thread t).grp = some id ∧
        (∀ u, u ∈ ((s'.core c).group id).members ↔ u = t ∨ u ∈ (k.group id).members) ∧
        (th.grp ≠ some id → gone s') ∧ same s' id))) ∧
    (Runs (.leave f) { h := f.h, avail := .core, noSub := true, dsts := [dstD f.d 1] } s t →
      Leaves (.leave f) s (fun s' => moved s' ∧ ((s'.core c).thread t).grp = none ∧ gone s' ∧
        ∀ x, th.grp ≠ some x → (s'.core c).group x = k.group x))

/-- R260, R262, R265: BARA arrives, BARS arrives and waits, BARW waits, at barriers 1 to 15: the first arrival fixes the count, one more arrives,
the last toggles the generation and lets every thread that waits for it go on, which is an acquire; one that waits for a barrier from inside a
trap handler finds its wait over later; the wait record that an instruction of a handler finds there stays the interrupted instruction's; an
arrival follows the thread's own global atomics (R94); a wrong count, no group, or a subordinate traps BARCOUNT, with the count that A offers in
%tval. That a handler's own wait at a barrier takes the record over is the model's choice (log 131). -/
def Sys2Proof.Claims.CountedBarriers : Prop :=
  ∀ (f : IForm) (s : State) (t g : Nat),
    let c := s.cur.core
    let k := s.curCore
    let th := s.curThread t
    let b := f.imm.toNat % 16
    let o := barSpec f
    let w := k.bcnt g b
    let gen (x : W32) : Bool := x.getLsbD 31
    let exp (x : W32) : Nat := (x.extractLsb' 16 15).toNat
    let arr (x : W32) : Nat := (x.extractLsb' 0 16).toNat
    let n := if f.a = 0 then (k.group g).members.length else (o.opnd s t 0).lo.toNat
    let e := if arr w = 0 then n else exp w
    let full := arr w + 1 = e
    let arrived (s' : State) : Prop := let x := (s'.core c).bcnt g b
      gen x = (if full then !gen w else gen w) ∧ exp x = e ∧ arr x = if full then 0 else arr w + 1
    let past (full : Prop) [Decidable full] (x : WaitRec) : WaitRec :=
      { x with past := x.past || decide (full ∧ x.grp = g ∧ x.bar = b ∧ x.gen = gen w) }
    let passed (s' : State) (full : Prop) [Decidable full] (acq : Bool) : Prop :=
      let x : Thread := { (th.commit s.cur).next s.cur.last with
        wrec := if th.level = .sl then (th.wrec.filter (fun x => x.pc != s.cur.pc)).map (past full) else none }
      (s'.core c).thread t = if acq then x.acquired k.seq else x
    let waits (s' : State) : Prop := let x := (s'.core c).thread t
      x.block = some (.bar b k.clock) ∧ x.wrec = some { bar := b, grp := g, gen := gen w, pc := s.cur.pc } ∧ x.pc = s.cur.pc ∧
        ∀ y : State, ((y.core c).thread t).wrec = x.wrec → (y.core c).barGen g b = gen w → y.waitOver c t (.bar b k.clock) = false
    let good := 1 ≤ n ∧ n ≤ 32767 ∧ (f.a ≠ 0 → arr w ≠ 0 → n = exp w) ∧ arr w < e
    let others (s' : State) : Prop := ∀ u, u ≠ t → (s'.core c).thread u = k.thread u
    let mine (u : Nat) (past : Bool) : Prop := k.live u = true ∧ ∃ x, (k.thread u).wrec = some x ∧ x.grp = g ∧ x.bar = b ∧ x.gen = gen w ∧ x.past = past
    let waiting (u : Nat) : Prop := ∃ a n, (k.thread u).block = some (.bar a n)
    let woken (s' : State) : Prop := ∀ u, u ≠ t → let x := k.thread u; let y := (s'.core c).thread u
      (mine u false → waiting u → y = { (x.next x.lastWord).acquired k.seq with wrec := none }) ∧
      (mine u false → ¬waiting u → y = { x with wrec := x.wrec.map (fun r => { r with past := true }) }) ∧
      (¬mine u false → y = x)
    let arrives (s' : State) : Prop := arrived s' ∧ if full then woken s' else others s'
    let held (s' : State) : Prop := ((s'.core c).thread t).block = some .release ∧ (s'.core c).groups = k.groups ∧ others s'
    let fresh : Prop := ∀ x, th.wrec = some x → ¬(x.bar = b ∧ x.grp = g ∧ x.pc = s.cur.pc)
    let offered := if f.a = 0 then 0 else (o.opnd s t 0).lo.toNat
    let barred (why : Nat) : Prop :=
      (Runs (.bara f) o s t → Traps (.bara f) s t .barcount (BitVec.ofNat 64 (2 ^ 63 + offered % 65536 * 2 ^ 32 + b * 256 + why))) ∧
      (Runs (.bars f) o s t → Traps (.bars f) s t .barcount (BitVec.ofNat 64 (2 ^ 63 + offered % 65536 * 2 ^ 32 + b * 256 + why))) ∧
      (Runs (.barw f) { h := f.h, avail := .core } s t → Traps (.barw f) s t .barcount (BitVec.ofNat 64 (2 ^ 63 + b * 256 + why)))
    (b ≠ 0 → th.sub = none → th.grp = some g →
      (Runs (.bara f) o s t → k.ownAtoms t = [] → good → Leaves (.bara f) s (fun s' => arrives s' ∧ passed s' full false)) ∧
      (Runs (.bars f) o s t → k.ownAtoms t = [] → fresh → good →
        Leaves (.bars f) s (fun s' => arrives s' ∧ (if full then passed s' full true else waits s'))) ∧
      (k.ownAtoms t ≠ [] → th.relSet = none →
        (Runs (.bara f) o s t → Leaves (.bara f) s held) ∧ (Runs (.bars f) o s t → fresh → Leaves (.bars f) s held)) ∧
      (Runs (.barw f) { h := f.h, avail := .core } s t →
        (fresh → Leaves (.barw f) s (fun s' => (s'.core c).groups = k.groups ∧ waits s' ∧ others s')) ∧
        (∀ x v, th.wrec = some { bar := b, grp := g, gen := x, pc := s.cur.pc, past := v } → x ≠ gen w ∨ v = true →
          Leaves (.barw f) s (fun s' => (s'.core c).groups = k.groups ∧ passed s' False true ∧ others s'))) ∧
      (Runs (.bara f) o s t → k.ownAtoms t = [] → f.a ≠ 0 → n = 0 ∨ 32767 < n ∨ (arr w ≠ 0 ∧ n ≠ exp w) →
        Traps (.bara f) s t .barcount (BitVec.ofNat 64 (2 ^ 63 + n % 65536 * 2 ^ 32 + b * 256 + 2)))) ∧
    (th.sub = none → th.grp = none → barred 1) ∧ (th.sub.isSome = true → barred 4)

/-- R261, R264: barrier 0 counts members: the arrival of the last member clears every flag and toggles the generation, an earlier one sets
the thread's flag; under BARTO a wait of 2^24 core cycles without an arrival traps BARTIMEOUT. -/
def Sys2Proof.Claims.BarrierZeroAndTimeout : Prop :=
  (∀ (f : IForm) (s : State) (t g : Nat),
    let c := s.cur.core
    let k := s.curCore
    let ms := (k.group g).members
    let all := ∀ u ∈ ms, u ≠ t → (k.thread u).arr0 = true
    f.imm.toNat % 16 = 0 → Runs (.bara f) (barSpec f) s t → k.ownAtoms t = [] → (s.curThread t).sub = none → (s.curThread t).grp = some g → t ∈ ms →
    (s.curThread t).arr0 = false → Leaves (.bara f) s (fun s' =>
      ((s'.core c).thread t).pc = s.cur.pc + 8 ∧
      (all → (∀ u ∈ ms, ((s'.core c).thread u).arr0 = false) ∧ ((s'.core c).group g).b0gen = !(k.group g).b0gen) ∧
      (¬all → ((s'.core c).thread t).arr0 = true ∧ (∀ u, u ≠ t → (s'.core c).thread u = k.thread u) ∧
        ((s'.core c).group g).b0gen = (k.group g).b0gen))) ∧
  (∀ (s : State) (c t g b since : Nat) (i : Inst) (w : WaitRec),
    let k := s.core c
    let th := k.thread t
    b < 16 → k.inst = some i → i.barto = true → th.st = .live → th.grp = some g → th.block = some (.bar b since) → th.wrec = some w →
    w.grp = g → w.bar = b → w.past = false → w.gen = (k.bcnt g b).getLsbD 31 → since + 2 ^ 24 ≤ k.clock → Map.get 0 (k.group g).last b + 2 ^ 24 ≤ k.clock →
    exec (.bartimeout c t) s = .next (s.trap c t .bartimeout th.pc ((k.bcnt g b) ++ BitVec.ofNat 32 b)))

/-- Barriers: R260 to R262, R264, R265. -/
def Obligations.BarrierArrivals : Prop := CountedBarriers ∧ BarrierZeroAndTimeout

/-! ### Recruitment -/

/-- R115 to R117, R296: RECRUIT by a thread that is neither principal nor subordinate, with a free record, grants the first eligible contexts of its
slot up to min(A, 63, N - 1), or all of them where they are fewer; each starts at the entry header with its low state cleared. -/
def Sys2Proof.Claims.RecruitGrantsContexts : Prop :=
  ∀ (f : EForm) (s : State) (t r : Nat),
    let c := s.cur.core
    let k := s.curCore
    let th := s.curThread t
    let o : OpSpec := { h := f.h, srcs := [{ reg := f.a.toNat, idx := 0 }, { reg := f.b.toNat, idx := 1 }, { reg := f.c.toNat, idx := 2 }],
                        dsts := [{ reg := f.a.toNat, idx := 0 }] }
    let entry := s.cur.pc + BitVec.ofInt 64 (8 * f.x.toInt)
    let n := (o.opnd s t 1).lo
    let want := min (min (o.opnd s t 0).lo.toNat 63) (n.toNat - 1)
    let el := k.eligibles false t
    let g := min want el.length
    Runs (.recruit f) o s t → k.ownAtoms t = [] → c < 208 → Target s entry (some 0xFD) → th.sub = none → k.principalRec t = none → k.lowDue t = [] →
    r < 8 → (k.rcd r).live = false → (∀ q, q < r → (k.rcd q).live = true) → (∀ e ∈ el, e.1 ≠ t) →
    let off := match k.inst with | some i => i.norec | none => false
    Leaves (.recruit f) s (fun s' =>
      let k' := s'.core c
      let rc := k'.rcd r
      let given := if off then 0 else g
      tookResult (k'.thread t) (th.commit s.cur) (Res.one f.a.toNat (BitVec.ofNat 32 given) 1) ∧
      (k'.thread t).rgrant = BitVec.ofNat 32 given ∧
      (k'.thread t).rcause = (if off then 2 else if el.length < want then 1 else 0) ∧
      rc.live = true ∧ rc.tid = t ∧ rc.count = n ∧ rc.next = 0 ∧ rc.oldest = 0 ∧ rc.done = 0 ∧ rc.op = f.fn.toNat % 8 ∧
      rc.creg = f.c.toNat ∧ rc.acc = (o.opnd s t 2).lo ∧ rc.reissue = f.sig ∧ rc.failed = false ∧
      (∀ i e, (el.take given)[i]? = some e → let x := k'.thread e.1
        x.st = .live ∧ x.pc = entry ∧ x.v = [] ∧ x.tags = [] ∧ x.p = 1 ∧ x.lk = 0 ∧ x.hold0 = 0 ∧ x.fpf = 0 ∧ x.grp = none ∧
          ∃ sb, x.sub = some sb ∧ sb.rid = r ∧ sb.num = i + 1))

/-- R121 to R123, R126, R297 to R299: ITER hands out the next index, or -1; to a marked subordinate -1, which is a release and keeps it from being
killed; CONTRIB deposits a value for it; RJOIN waits while anything runs, whatever D is, then writes the fold and the count and frees the record, or
traps HELPER where an iteration failed (R124). Where D names C too, the count stands in it (the model's choice, log 105). -/
def Sys2Proof.Claims.IterationsAreHandedOut : Prop :=
  (∀ (f : WForm) (s : State) (t r : Nat),
    let c := s.cur.core
    let k := s.curCore
    let th := s.curThread t
    let rc := k.rcd r
    let p := f.a.toNat % 8
    (∀ sb, Runs (.iter f) { h := f.h, dsts := [dstD f.d 1] } s t → th.sub = some sb → sb.mark.isSome = true → th.iter = none → k.ownAtoms t = [] →
      Leaves (.iter f) s (fun s' =>
        tookResult ((s'.core c).thread t) (th.commit s.cur) { Res.one f.d.toNat 0xFFFFFFFF 0 with preds := [(p, false)] } ∧
        ((s'.core c).thread t).sub = some { sb with iterated := true } ∧ (s'.core c).recs = k.recs ∧ (s'.core c).window = k.window ∧
        ∀ l, ((s'.core c).line l).st = if (k.line l).st = 2 then 3 else (k.line l).st)) ∧
    (Runs (.iter f) { h := f.h, dsts := [dstD f.d 1] } s t → th.sub = none → k.principalRec t = some r → th.iter = none → k.reissueEntry r = none →
      (rc.count.toNat ≤ rc.next.toNat → Leaves (.iter f) s (fun s' =>
        tookResult ((s'.core c).thread t) (th.commit s.cur) { Res.one f.d.toNat 0xFFFFFFFF 0 with preds := [(p, false)] } ∧
          (s'.core c).recs = k.recs ∧ (s'.core c).window = k.window)) ∧
      (rc.next.toNat < rc.count.toNat → rc.oldest.toNat ≤ rc.next.toNat → rc.next.toNat < rc.oldest.toNat + 64 →
        ∀ e, k.freeEntry = some e → Leaves (.iter f) s (fun s' =>
          tookResult ((s'.core c).thread t) (th.commit s.cur) { Res.one f.d.toNat rc.next 0 with preds := [(p, true)] } ∧
            ((s'.core c).rcd r).next = rc.next + 1 ∧ ((s'.core c).thread t).iter = some e ∧ ((s'.core c).win e).st = 1 ∧
            ((s'.core c).win e).rid = r ∧ ((s'.core c).win e).val = false))) ∧
    (∀ e, let o : OpSpec := { h := f.h, edge := f.edge.toNat, srcs := [f.srcA 1 none] }
      Runs (.contrib f) o s t → (th.sub = none ∧ k.principalRec t = some r ∨ ∃ sb, th.sub = some sb ∧ sb.rid = r) → th.iter = some e → rc.op ≠ 0 → k.tagchk = false →
        Leaves (.contrib f) s (fun s' => tookResult ((s'.core c).thread t) (th.commit s.cur) {} ∧
          (s'.core c).win e = { k.win e with val := true, value := (o.opnd s t 0).lo }))) ∧
  (∀ (f : IForm) (s : State) (t r : Nat),
    let c := s.cur.core
    let k := s.curCore
    let th := s.curThread t
    let rc := k.rcd r
    let o : OpSpec := { h := f.h, noSub := true, dsts := [dstD f.d 1], lateDst := true }
    (Runs (.rjoin f) o s t → k.principalRec t = some r → th.iter = none → k.hasSubs t = true ∨ (∃ e ∈ k.window, e.2.st = 1 ∧ e.2.rid = r) →
      Leaves (.rjoin f) s (fun s' => ((s'.core c).thread t).block = some .rjoin ∧ (s'.core c).recs = k.recs ∧ (s'.core c).window = k.window)) ∧
    (Runs (.rjoin f) o s t → k.principalRec t = some r → th.iter = none → k.hasSubs t = false → (∀ e ∈ k.window, ¬(e.2.st = 1 ∧ e.2.rid = r)) →
      (rc.failed = true → Leaves (.rjoin f) s (fun s' => c < 208 → th.sub = none →
        let x := (s'.core c).thread t
        x.tcause = 0x0F ∧ x.tpc = s.cur.pc ∧ x.v = th.v ∧
          x.tval = BitVec.ofNat 64 (rc.failk.toNat * 2 ^ 32 + rc.failoff * 2 ^ 16 + rc.fcause) ∧
          (s'.core c).rcd r = { rc with failed := false, fcause := 0, failoff := 0, failk := 0 })) ∧
      (rc.failed = false → k.doneEntries r = [] → k.pending t rc.creg = false → k.canWrite t rc.creg = true → Leaves (.rjoin f) s (fun s' =>
        tookResult ((s'.core c).thread t) (th.commit s.cur) { regs := (if rc.op = 0 then [] else
          [(rc.creg, rc.acc, if rc.op = 1 ∨ rc.op = 3 ∨ rc.op = 4 then 3 else 0)]) ++ [(f.d.toNat, rc.done, 1)], fpf := rc.fflags } ∧
        ((s'.core c).rcd r).live = false))))

/-- R122: the fold at OLDEST takes the values in ascending index order, each by its own operation, and stops at the first entry not done. -/
def Sys2Proof.Claims.FoldStepsInOrder : Prop :=
  ∀ (k : Core) (r e : Nat),
    let rc := k.rcd r
    let w := k.win e
    let step : W32 × BitVec 4 := match rc.op with
      | 1 => f32.add 0 rc.acc w.value
      | 2 => (rc.acc + w.value, 0)
      | 3 => f32.minmax false rc.acc w.value
      | 4 => f32.minmax true rc.acc w.value
      | 5 => (if rc.acc.toInt ≤ w.value.toInt then rc.acc else w.value, 0)
      | 6 => (if w.value.toInt ≤ rc.acc.toInt then rc.acc else w.value, 0)
      | _ => (rc.acc, 0)
    e < 64 → w.rid = r → w.off = 0 → w.st = 2 → w.val = true →
    (∀ x, x < 64 → x ≠ e → (k.win x).rid = r → (k.win x).st ≠ 0 → 1 ≤ (k.win x).off ∧ ((k.win x).off = 1 → (k.win x).st ≠ 2)) →
    let k' := k.foldDone r 64
    (k'.rcd r).acc = step.1 ∧ (k'.rcd r).fflags = rc.fflags ||| step.2 ∧ (k'.rcd r).oldest = rc.oldest + 1 ∧ (k'.win e).st = 0

/-- Iterations and their fold: R121 to R124, R297 to R299. -/
def Obligations.IterationsFold : Prop := IterationsAreHandedOut ∧ FoldStepsInOrder

/-- R115, R125, R126, R300: LEND and RECLAIM set and clear the group's flag, RECLAIM marks the subordinates that only this flag gave; a
marked subordinate under REISSUE that has not executed ITER is ended after 4,096 cycles and its index waits for reissue. -/
def Sys2Proof.Claims.LendReclaimKill : Prop :=
  (∀ (f : IForm) (s : State) (t g : Nat),
    let c := s.cur.core
    let k := s.curCore
    let th := s.curThread t
    let o : OpSpec := { h := f.h, avail := .core, noSub := true }
    th.grp = some g → th.sub = none →
    (Runs (.lend f) o s t → Leaves (.lend f) s (fun s' => (s'.core c).thread t = (th.commit s.cur).next s.cur.last ∧
      (∀ u, u ≠ t → (s'.core c).thread u = k.thread u) ∧ (s'.core c).group g = { k.group g with lend := true })) ∧
    (Runs (.reclaim f) o s t → Leaves (.reclaim f) s (fun s' => (s'.core c).thread t = (th.commit s.cur).next s.cur.last ∧
      (s'.core c).group g = { k.group g with lend := false } ∧
      ∀ u sb, u ≠ t → (k.thread u).sub = some sb → sb.rid < 8 → sb.mark = none →
        ((s'.core c).thread u).sub = some { sb with mark := if sb.lend = some (k.group g).inc then some k.clock else none }))) ∧
  (∀ (s : State) (c t m e : Nat) (sb : Sub),
    let k := s.core c
    (k.thread t).sub = some sb → sb.mark = some m → (k.thread t).iter = some e → (∀ id, (k.thread t).block ≠ some (.sem id)) →
    (m + 4096 ≤ k.clock → (k.rcd sb.rid).reissue = true → Leaves (.subordinateKill c t) s (fun s' =>
      sb.iterated = false → ((s'.core c).thread t).sub = none ∧ ((s'.core c).thread t).st = sb.prev ∧ ((s'.core c).win e).st = 3 ∧ ((s'.core c).win e).val = false ∧
        ((s'.core c).win e).off = (k.win e).off ∧ ∀ u, u ≠ t → (s'.core c).thread u = k.thread u)) ∧
    ((k.rcd sb.rid).reissue = false ∨ sb.iterated = true → Leaves (.subordinateKill c t) s (fun s' => (s'.core c).thread t = k.thread t)))

/-- Recruitment: R115 to R117, R125, R126, R296, R300. -/
def Obligations.RecruitGrants : Prop := RecruitGrantsContexts ∧ LendReclaimKill

/-- R31 to R33, R269, R270: DISPENSE hands out the next index of its chunk as x = i mod X and y = i / X, under DET the core's own share, and all ones
when nothing is left; a DISPENSE that finds no index, or others waiting, waits behind them; a claim takes the next chunk of the launch's counter
for the waiting ones, the first of them first. The end of a chunk is kept modulo 2^32 (the model's, log 101). -/
def Obligations.DispensersHandOut : Prop :=
  (∀ (f : WForm) (s : State) (t : Nat) (i : Inst),
    let c := s.cur.core
    let d := Map.get ({} : Disp) i.disp f.var
    let total := d.x.toNat * d.y.toNat
    let own := i.lcore.toNat + d.k.toNat * i.ncore.toNat
    let p := f.a.toNat % 8
    let gives (n : Nat) (d' : Disp) : Prop := Leaves (.dispense f) s (fun s' =>
      tookResult ((s'.core c).thread t) ((s.curThread t).commit s.cur) { (Res.pair f.d.toNat
        (BitVec.ofNat 32 (n / d.x.toNat) ++ BitVec.ofNat 32 (n % d.x.toNat)) 1) with preds := [(p, true)] } ∧
        ∃ i', (s'.core c).inst = some i' ∧ Map.get ({} : Disp) i'.disp f.var = d')
    let nothing : Prop := Leaves (.dispense f) s (fun s' => tookResult ((s'.core c).thread t) ((s.curThread t).commit s.cur)
      { Res.pair f.d.toNat (BitVec.allOnes 64) 1 with preds := [(p, false)] } ∧ (s'.core c).inst = some i)
    let waits : Prop := Leaves (.dispense f) s (fun s' => ((s'.core c).thread t).block = some (.disp f.var) ∧
      ∃ i', (s'.core c).inst = some i' ∧ (Map.get ({} : Disp) i'.disp f.var).queue = d.queue ++ [{ targets := [t], d := f.d.toNat, p := p }] ∧
        (d.queue = [] → (Map.get ({} : Disp) i'.disp f.var).claiming = true))
    Runs (.dispense f) { h := f.h, avail := .core, noSub := true, dsts := [dstD f.d 2] } s t → s.curCore.inst = some i →
      (d.queue = [] → (i.det = true → own < total → d.dry = false → gives own { d with k := d.k + 1, dry := decide (d.k = BitVec.allOnes 32) }) ∧
        (i.det = true → total ≤ own ∨ d.dry = true → nothing) ∧
        (i.det = false → d.next ≠ d.fin → gives d.next.toNat { d with next := d.next + 1 }) ∧
        (i.det = false → d.next = d.fin → d.dry = true ∨ total = 0 → nothing) ∧
        (i.det = false → d.next = d.fin → d.dry = false → total ≠ 0 → waits)) ∧
      (d.queue ≠ [] → waits)) ∧
  (∀ (s : State) (c n : Nat) (i : Inst) (l : Launch),
    let d := Map.get ({} : Disp) i.disp n
    let total := d.x.toNat * d.y.toNat
    let ctr := l.disp.getD n 0
    let stop := min total (ctr + d.chunk.toNat)
    (s.core c).inst = some i → (s.core c).saving = false → d.claiming = true → (s.slot i.slot).launch = some l → n < l.disp.length → ctr < total → total ≤ 2 ^ 32 →
      (Leaves (.dispenserClaim c n) s (fun s' => ∃ l', (s'.slot i.slot).launch = some l' ∧ l'.disp.getD n 0 = ctr + d.chunk.toNat)) ∧
      (d.queue = [] → Leaves (.dispenserClaim c n) s (fun s' => ∃ i', (s'.core c).inst = some i' ∧
        (Map.get ({} : Disp) i'.disp n).next.toNat = ctr ∧ (Map.get ({} : Disp) i'.disp n).fin.toNat = stop % 2 ^ 32)) ∧
      (∀ r rs u, d.queue = r :: rs → r.targets = [u] → (∀ x ∈ rs, u ∉ x.targets) → i.det = false → 0 < d.chunk.toNat → d.chunk.toNat < 2 ^ 16 →
        Leaves (.dispenserClaim c n) s (fun s' => (s'.core c).thread u = ((((s.core c).thread u).apply { (Res.pair r.d
          (BitVec.ofNat 32 (ctr / d.x.toNat) ++ BitVec.ofNat 32 (ctr % d.x.toNat)) 1) with preds := [(r.p, true)] }).next
            ((s.core c).thread u).lastWord))))

/-- R34 to R36, R271, R272: RGET raises the phrase's level while its slot has granules, RPUT lowers it; a register that either adds or
takes away reads 0 with tag b32 afterwards. -/
def Sys2Proof.Claims.RegisterGranules : Prop :=
  ∀ (f : IForm) (s : State) (t : Nat),
    let c := s.cur.core
    let k := s.curCore
    let p := s.cur.phrase
    let l := f.imm.toNat % 4
    let now := (k.phrase p).xlev.toNat
    let o := granSpec f
    let level (s' : State) (n : Nat) : Prop := ((s'.core c).phrase p).xlev.toNat = n ∧ ((s'.core c).thread t).pc = s.cur.pc + 8 ∧
      ((s'.core c).thread t).block = none
    phraseOf t = p → (s.curThread t).sub = none → Map.get [] k.rgetQ (p % 4) = [] →
    (Runs (.rget f) o s t →
      (l ≤ now → Leaves (.rget f) s (fun s' => level s' now)) ∧
      (now < l → k.granules (p % 4) + (l - now) ≤ 16 → Leaves (.rget f) s (fun s' => level s' l ∧ ∀ r, 32 * (now + 1) ≤ r →
        ((s'.core c).thread t).reg r = 0 ∧ ((s'.core c).thread t).tag r = 2)) ∧
      (now < l → 16 < k.granules (p % 4) + (l - now) → Leaves (.rget f) s (fun s' =>
        ((s'.core c).thread t).block = some (.rget l) ∧ Map.get [] (s'.core c).rgetQ (p % 4) = [{ phrase := p, k := l }]))) ∧
    (Runs (.rput f) o s t →
      (now ≤ l → Leaves (.rput f) s (fun s' => level s' now)) ∧
      (l < now → k.dueAbove p l = [] → Leaves (.rput f) s (fun s' => level s' l ∧ ∀ r, 32 * (l + 1) ≤ r →
        ((s'.core c).thread t).reg r = 0 ∧ ((s'.core c).thread t).tag r = 2)))

/-- Membership and register granules: R22, R23, R257, R258, R34 to R36, R271, R272. -/
def Obligations.JoinLeaveAndGranules : Prop := JoinAndLeave ∧ RegisterGranules

/-! ### Scratchpad memory -/

namespace Sys2Proof.Claims

/-- The line of a local byte lies in a live region that fills with zeros, and is invalid (R80). -/
def zeroLine (k : Core) (a : Nat) : Prop := ∃ r, k.regionAt (a / 256 * 256) = some r ∧ (k.line (a / 256)).st = 0 ∧ (k.region r).fill = 1
/-- Byte `a` of the local scratchpad of a core, as a load reads it (R80). -/
def ByteIs (k : Core) (a : Nat) (b : Byte) : Prop := (zeroLine k a → b = 0) ∧ (¬zeroLine k a → b = Map.get Config.blank k.scratch a)

/-- Line `l` lies in a live region that fills on first touch (R80). -/
def onTouch (k : Core) (l : Nat) : Prop := ∃ r, k.regionAt (l * 256) = some r ∧ (k.region r).fill = 0

/-- Thread `t` is in the handler of PREEMPT, whose entry is an acquire (R308), and its access meets a clean line that was filled before: it
waits for the line to be filled again (log 110). -/
def Refills (k : Core) (t l : Nat) : Prop :=
  (k.thread t).level = .sl ∧ (k.thread t).tcause = 0x15 ∧ (k.thread t).acq = false ∧ onTouch k l ∧ (k.line l).st = 1

/-- `n` bytes at `ea` lie, aligned, in the local scratchpad of the issuing core, and nothing stalls thread `t` there (R75, R84, R249, R276). -/
def AtHand (s : State) (t : Nat) (ea : W32) (n : Nat) : Prop :=
  ea.toNat % n = 0 ∧ ea.toNat + n ≤ (if 208 ≤ s.cur.core then 0x40000 else 0xC0000) ∧ s.curCore.stalls ea.toNat n = false ∧
    ¬Refills s.curCore t (ea.toNat / 256)

/-- The bytes of a local scratchpad from `a` on are those of `v`, and all other bytes read as they did. -/
def Stored (k k' : Core) (a n : Nat) (v : BitVec 128) : Prop :=
  (∀ i, i < n → ByteIs k' (a + i) (v.extractLsb' (8 * i) 8)) ∧ (∀ j b, j < a ∨ a + n ≤ j → (ByteIs k' j b ↔ ByteIs k j b)) ∧
  k'.staging = k.staging ∧ k'.regions = k.regions

/-- Line `x` after a thread has touched line `l`: an invalid line of a region that fills with zeros is valid (R80). -/
def touched (k : Core) (l x : Nat) : Line :=
  if x = l then (match k.regionAt (l * 256) with
    | some r => if (k.line l).st = 0 ∧ (k.region r).fill = 1 then { k.line l with st := 1 } else k.line l
    | none => k.line l) else k.line x

/-- The rest of the machine: every core but `c`, every thread of `c` but `t`, global memory. -/
def Elsewhere (s s' : State) (c t : Nat) : Prop :=
  (∀ d, d ≠ c → s'.core d = s.core d) ∧ (∀ u, u ≠ t → (s'.core c).thread u = (s.core c).thread u) ∧ { s' with cores := [] } = { s with cores := [] }

/-- Thread `t` alone issues `i` with the operands `ops`: as they are read now, or as it kept them when it stalled (R67, R68). -/
def Issues (i : Instr) (o : OpSpec) (s : State) (t : Nat) (ops : List Opnd) : Prop :=
  Runs i o s t ∧ ops = o.vals s.curCore t ∨
  WellFormed i ∧ s.cur.set = [t] ∧ (s.curThread t).kept = some ops ∧ o.refused s = false ∧ fmtTrap s.curCore.tagchk o.srcs ops = none ∧
    [1, 2, 4, 8, 16, 32, 64].contains s.curCore.segW = true

/-- Operand `i` of a list, where none is listed v0. -/
def opAt (ops : List Opnd) (i : Nat) : Opnd := ops.getD i []

/-- Nothing holds back a release of thread `t` below device scope, or a release it has begun is over (R94, R99). -/
def RelFree (s : State) (t : Nat) : Prop :=
  (s.curThread t).relSet = none ∧ s.curCore.ownAtoms t = [] ∨
    ∃ r, (s.curThread t).relSet = some r ∧ r.lines = [] ∧ r.fwds = [] ∧ r.cmds = []

/-- `r` is the newest store to word `w` of the scratchpad of core `c`, made after the count `n` and by none of the threads `ts`, and the word stands as
it left it (R95, R96). -/
def Missable (k : Core) (c : Nat) (ts : List Nat) (n w : Nat) (r : Recent) : Prop :=
  Map.find k.recent w = some r ∧ (∀ t ∈ ts, c * 2048 + t ∉ r.writers) ∧ n < r.stamp ∧
    ∀ i, i < 4 → Map.get Config.blank k.scratch (4 * w + i) = r.new.extractLsb' (8 * i) 8

/-- Thread `t` of a physical core may still miss the store `r` to word `w`: it has neither made it, nor read it, nor made an acquire since (R96); an
access that is not the program's misses none (R113). -/
def MayMiss (k : Core) (c t w : Nat) (r : Recent) : Prop :=
  c < 208 ∧ k.aside t = false ∧ ¬zeroLine k (4 * w) ∧ Missable k c [t] (max (k.thread t).acqAt (Map.get 0 (k.thread t).seen w)) w r

/-- The bytes of a load return (R16, R249): the registers of `f` hold what `val` says of the bytes that the core had there, and no byte of any
scratchpad reads otherwise. Of a store of another thread that no acquire has ordered before the load it reads the old word or the new one (R96),
of one store's two words in one 64-bit half both old or both new (R97). The other threads of its issue take their data with it (R249). -/
def Returns (s s' : State) (t : Nat) (f : MForm) (a n m : Nat) (val : (Nat → Byte) → Nat → W32 × Nat) : Prop :=
  let c := s.cur.core
  let k := s.curCore
  ∃ (s'' : State) (bytes : Nat → Byte) (old : Nat → Bool), exec (.loadDataReturn c t) s' = .next s'' ∧
    (∀ j, j < n → let w := (a + j) / 4
      (old w = false → ByteIs k (a + j) (bytes j)) ∧
      (old w = true → ∃ r, MayMiss k c t w r ∧ bytes j = r.old.extractLsb' (8 * ((a + j) % 4)) 8)) ∧
    (∀ w x r q, MayMiss k c t w r → MayMiss k c t x q → w / 2 = x / 2 → r.stamp = q.stamp → old w = old x) ∧
    (∀ d, d ≠ c → s''.core d = s.core d) ∧ { s'' with cores := [] } = { s with cores := [] } ∧
    (∀ u, u ≠ t → (∀ p ∈ (k.thread u).pend, p.issue = none) → (s''.core c).thread u = k.thread u) ∧
    (∀ d j b, ByteIs (s''.core d) j b ↔ ByteIs (s.core d) j b) ∧
    (let x := (s''.core c).thread t
     x.pc = s.cur.pc + 8 ∧ x.block = none ∧ x.p = (s.curThread t).p ∧
     (∀ j, j < m → x.reg (f.d.toNat + j) = (val bytes j).1 ∧ (x.tag (f.d.toNat + j)).toNat = (val bytes j).2) ∧
     ((∀ p ∈ (s.curThread t).pend, p.issue = none) → ∀ r, r < f.d.toNat ∨ f.d.toNat + m ≤ r →
       x.reg r = (s.curThread t).reg r ∧ x.tag r = (s.curThread t).tag r))

/-- A load of `n` bytes into `m` registers. Relaxed, non-temporal or an acquire below device scope, on bytes at hand: the thread goes on and its data
returns. An acquire at `.dev` or `.sys` first invalidates its own clean line of a region that fills on touch, and so waits for its fill; once
its line has been filled it reads it, and invalidates the clean lines of such regions but that one (R100). A load of the handler of PREEMPT waits
for such a line too (R308, log 110). On bytes that stall, it keeps its operands, its registers are due, and the fills of its lines are under way (R67,
R68, R249). -/
def LoadGives (i : MForm → Instr) (n m : Nat) (val : (Nat → Byte) → Nat → W32 × Nat) : Prop :=
  ∀ (f : MForm) (s : State) (t : Nat) (ops : List Opnd),
    let c := s.cur.core
    let k := s.curCore
    let o : OpSpec := { mSpec f with dsts := [{ reg := f.d.toNat, n := m, idx := 3 }] }
    let ea := (opAt ops 0).lo + f.off.signExtend 32
    let l := ea.toNat / 256
    let waits : Prop := Leaves (i f) s (fun s' => let x := (s'.core c).thread t
      (∃ a b, x.block = some (.mem a b)) ∧ x.kept = some ops ∧ x.pc = s.cur.pc ∧
      (∀ j, j < m → f.d.toNat + j ≠ 0 → x.pend.any (fun p => p.reg == f.d.toNat + j) = true) ∧
      (∀ j b, ByteIs (s'.core c) j b ↔ ByteIs k j b) ∧ (onTouch k l → ((s'.core c).line l).st = 0 → ((s'.core c).line l).filling = true))
    f.d ≠ 0 → Issues (i f) o s t ops →
    (f.ord ≠ 1 ∨ f.sco.toNat < 4 → AtHand s t ea n → Leaves (i f) s (fun s' => Returns s s' t f ea.toNat n m val)) ∧
    (f.ord = 1 → f.sco = 4 ∨ f.sco = 5 → k.aside t = false → AtHand s t ea n →
      ((s.curThread t).acq = true ∨ ¬onTouch k l → Leaves (i f) s (fun s' => Returns s s' t f ea.toNat n m val ∧
        ∀ x, ((k.line x).st = 1 ∧ x ≠ l ∧ onTouch k x → ((s'.core c).line x).st = 0) ∧
          (¬((k.line x).st = 1 ∧ x ≠ l ∧ onTouch k x) → ((s'.core c).line x).st = (touched k l x).st))) ∧
      ((s.curThread t).acq = false → onTouch k l → (k.line l).st = 1 → waits)) ∧
    (f.ord ≠ 1 ∨ f.sco.toNat < 4 → ea.toNat % n = 0 → ea.toNat + n ≤ (if 208 ≤ c then 0x40000 else 0xC0000) →
      k.stalls ea.toNat n = true ∨ Refills k t l → waits)

/-- A store of `n` bytes from `m` registers, relaxed, non-temporal or a release below device scope, on bytes at hand. The line it hits is dirty
afterwards under WB 0 and 2, since before the latest release where the store is itself one, or relaxed after a FENCE.rel (R104, log 132), and forwards
the bytes under WB 1 (R80 to R82, R109). -/
def StorePuts (i : MForm → Instr) (n m : Nat) : Prop :=
  ∀ (f : MForm) (s : State) (t : Nat) (ops : List Opnd),
    let c := s.cur.core
    let k := s.curCore
    let o : OpSpec := { h := f.h, srcs := [{ reg := f.b.toNat, idx := 1 }, { reg := f.d.toNat, desc := f.rd, n := m, idx := 3 }] }
    let ea := (opAt ops 0).lo + f.off.signExtend 32
    let w (j : Nat) : W32 := ((opAt ops 1).getD j (0, 2)).1
    let v : BitVec 128 := w 3 ++ w 2 ++ w 1 ++ w 0
    let l := ea.toNat / 256
    let mark := (f.ord = 2 ∧ 2 ≤ f.sco.toNat ∨ f.ord ≠ 2 ∧ f.ord ≠ 4 ∧ (s.curThread t).fenced = true) ∧ k.aside t = false
    (f.ord ≠ 0 → f.ord ≠ 4 → f.sco.toNat < 4) → (f.ord = 2 → RelFree s t) → Issues (i f) o s t ops → AtHand s t ea n →
    Leaves (i f) s (fun s' => Elsewhere s s' c t ∧ Stored k (s'.core c) ea.toNat n v ∧
      tookResult ((s'.core c).thread t) ((s.curThread t).commit s.cur) {} ∧
      (∀ r, k.regionAt (l * 256) = some r → (k.region r).wb ≠ 1 →
        ((s'.core c).line l).st = (if mark ∨ (k.line l).st = 3 then 3 else 2) ∧
        ((s'.core c).line l).nt = ((k.line l).nt || f.ord == 4 || (k.region r).wb == 2) ∧ (s'.core c).mops = k.mops) ∧
      (∀ r, k.regionAt (l * 256) = some r → (k.region r).wb = 1 → ∃ x bs, (s'.core c).mops = k.mops ++ [x] ∧ x.kind = .fwd r bs (f.ord == 4) ∧
        x.va = k.lineVa r l + ea.toNat % 256 ∧ x.pasid = k.fetchPasid ∧ bs.length = n ∧ ∀ j, j < n → bs.getD j 0 = v.extractLsb' (8 * j) 8) ∧
      (k.regionAt (l * 256) = none → (s'.core c).mops = k.mops))

def leWord (b : Nat → Byte) (j : Nat) : W32 := b (4 * j + 3) ++ b (4 * j + 2) ++ b (4 * j + 1) ++ b (4 * j)

/-- The table of R252: the new value of a 32-bit word and the flags. -/
def atom32 (op : Nat) (o v : W32) : W32 × BitVec 4 :=
  match op with
  | 0x0 => (o + v, 0)
  | 0x1 => (if o.toInt < v.toInt then o else v, 0)
  | 0x2 => (if o.toInt < v.toInt then v else o, 0)
  | 0x3 => (if o.toNat < v.toNat then o else v, 0)
  | 0x4 => (if o.toNat < v.toNat then v else o, 0)
  | 0x5 => (o &&& v, 0)
  | 0x6 => (o ||| v, 0)
  | 0x7 => (o ^^^ v, 0)
  | 0x8 => (v, 0)
  | 0x9 => (if o.toNat ≥ v.toNat then 0 else o + 1, 0)
  | 0xA => (if o.toNat = 0 ∨ o.toNat > v.toNat then v else o - 1, 0)
  | 0xB => f32.add 0 o v
  | 0xC => f32.minmax false o v
  | _ => f32.minmax true o v

end Sys2Proof.Claims

/-- R16, R49, R67, R68, R100, R245, R246, R249: a local load reads its bytes little-endian; a narrow one extends them and tags i32 or n32, the others
tag b32; the address is B + OFF. -/
def Obligations.LoadsReadBytes : Prop :=
  LoadGives .ld8 1 1 (fun b _ => ((b 0).setWidth 32, 1)) ∧
  LoadGives .ld8s 1 1 (fun b _ => ((b 0).signExtend 32, 0)) ∧
  LoadGives .ld16 2 1 (fun b _ => ((b 1 ++ b 0 : BitVec 16).setWidth 32, 1)) ∧
  LoadGives .ld16s 2 1 (fun b _ => ((b 1 ++ b 0 : BitVec 16).signExtend 32, 0)) ∧
  LoadGives .ld32 4 1 (fun b j => (leWord b j, 2)) ∧
  LoadGives .ld64 8 2 (fun b j => (leWord b j, 2)) ∧
  LoadGives .ld128 16 4 (fun b j => (leWord b j, 2))

/-- R80 to R82, R109, R245, R247: a local store, relaxed, non-temporal or a release below device scope, leaves its low bytes at B + OFF,
little-endian, and every other byte, register and thread as they were. -/
def Obligations.StoresWriteBytes : Prop :=
  StorePuts .st8 1 1 ∧ StorePuts .st16 2 1 ∧ StorePuts .st32 4 1 ∧ StorePuts .st64 8 2 ∧ StorePuts .st128 16 4

/-- R251 to R254: ATOM and CAS on local bytes below device scope write the old value to D with tag b32 and store the operation's result;
a CAS whose comparison fails stores nothing. -/
def Obligations.AtomicsReadModifyWrite : Prop :=
  (∀ (f : WForm) (s : State) (t : Nat) (ops : List Opnd),
    let c := s.cur.core
    let op := f.ty
    let w := if op = 0xE ∨ op = 0xF then 8 else 4
    let o : OpSpec := { h := f.h, edge := f.edge.toNat, srcs := [f.srcA 1 none, f.srcB (w / 4) (atomTy op)], dsts := [dstD f.d (w / 4)] }
    let ea := (opAt ops 0).lo
    (f.fn.extractLsb' 3 3 ≠ 0#3 → (f.fn.extractLsb' 0 3).toNat < 4) →
    ((f.fn.extractLsb' 3 3).toNat = 2 ∨ (f.fn.extractLsb' 3 3).toNat = 3 → RelFree s t) → Issues (.atom f) o s t ops → AtHand s t ea w →
    ∃ old : W64, old.toNat < 2 ^ (8 * w) ∧ (∀ i, i < w → ByteIs s.curCore (ea.toNat + i) (old.extractLsb' (8 * i) 8)) ∧
      (let new : W64 × BitVec 4 := if op = 0xE then (old + (opAt ops 1).x, 0) else if op = 0xF then ((opAt ops 1).x, 0)
        else (let r := atom32 op (old.setWidth 32) (opAt ops 1).lo; (r.1.setWidth 64, r.2))
       Leaves (.atom f) s (fun s' => Elsewhere s s' c t ∧ Stored s.curCore (s'.core c) ea.toNat w (new.1.setWidth 128) ∧
        tookResult ((s'.core c).thread t) ((s.curThread t).commit s.cur)
          { (if w = 8 then Res.pair f.d.toNat old 2 else Res.one f.d.toNat (old.setWidth 32) 2) with fpf := new.2 }))) ∧
  (∀ (f : VForm) (s : State) (t : Nat) (ops : List Opnd),
    let c := s.cur.core
    let wide := f.ra.extractLsb' 0 3 = 1#3
    let m := if wide then 2 else 1
    let o : OpSpec := { h := f.h, edge := f.edge.toNat, dsts := [dstD f.d m], srcs := [{ reg := f.a.toNat, idx := 0 }, f.srcB m none,
      { reg := f.c.toNat, desc := rcsDesc 0 f.rb f.rcs, n := m, idx := 2 }] }
    let ea := (opAt ops 0).lo
    let val (i : Nat) : W64 := if wide then (opAt ops i).x else (opAt ops i).lo.setWidth 64
    (f.ra.extractLsb' 6 3 ≠ 0#3 → (f.ra.extractLsb' 3 3).toNat < 4) →
    ((f.ra.extractLsb' 6 3).toNat = 2 ∨ (f.ra.extractLsb' 6 3).toNat = 3 → RelFree s t) → Issues (.cas f) o s t ops → AtHand s t ea (4 * m) →
    ∃ old : W64, old.toNat < 2 ^ (32 * m) ∧ (∀ i, i < 4 * m → ByteIs s.curCore (ea.toNat + i) (old.extractLsb' (8 * i) 8)) ∧
      Leaves (.cas f) s (fun s' => Elsewhere s s' c t ∧
        Stored s.curCore (s'.core c) ea.toNat (4 * m) ((if old = val 1 then val 2 else old).setWidth 128) ∧
        tookResult ((s'.core c).thread t) ((s.curThread t).commit s.cur)
          (if wide then Res.pair f.d.toNat old 2 else Res.one f.d.toNat (old.setWidth 32) 2)))

/-- R75, R80: a misaligned access traps MISALIGN, one outside the map SPRANGE, each with the address; a load to v0 neither waits nor traps. -/
def Sys2Proof.Claims.AccessChecks : Prop :=
  (∀ (f : MForm) (s : State) (t : Nat),
    let o : OpSpec := { mSpec f with dsts := [{ reg := f.d.toNat, n := 1, idx := 3 }] }
    let q : OpSpec := { h := f.h, srcs := [{ reg := f.b.toNat, idx := 1 }, { reg := f.d.toNat, desc := f.rd, n := 1, idx := 3 }] }
    let ea (p : OpSpec) : W32 := (p.opnd s t 0).lo + f.off.signExtend 32
    let out (p : OpSpec) : Prop := s.cur.core < 208 ∧ (0xC0000 ≤ (ea p).toNat ∧ (ea p).toNat < 0x100000 ∨
      0x900000 ≤ (ea p).toNat ∧ (ea p).toNat < 0xF00000 ∨ 0xF20000 ≤ (ea p).toNat)
    (f.d ≠ 0 → Runs (.ld32 f) o s t →
      ((ea o).toNat % 4 ≠ 0 → Traps (.ld32 f) s t .misalign ((ea o).setWidth 64)) ∧
      ((ea o).toNat % 4 = 0 → out o → Traps (.ld32 f) s t .sprange ((ea o).setWidth 64))) ∧
    (Runs (.st32 f) q s t →
      ((ea q).toNat % 4 ≠ 0 → Traps (.st32 f) s t .misalign ((ea q).setWidth 64)) ∧
      ((ea q).toNat % 4 = 0 → out q → Traps (.st32 f) s t .sprange ((ea q).setWidth 64)))) ∧
  (∀ (f : MForm) (s : State), f.d = 0 → s.cur.set.Nodup → Leaves (.ld32 f) s (fun s' => ∀ u,
    (s'.core s.cur.core).thread u = if u ∈ s.cur.set then ((s.curCore.thread u).commit s.cur).next s.cur.last else s.curCore.thread u))

/-- R82, R94, R99 to R101, R104, R255: a FENCE below device scope goes on at once unless a global atomic of its thread is under way; a release at
core scope or wider turns state 2 into 3; a release at device scope first asks for the write-back of every dirty line of lazy regions and waits for
them; an acquire at device scope invalidates the clean lines of regions that fill on first touch; one at `.rmt` asks the cores that cover the lines its
thread has read since its last acquire. After a release at core scope or wider the thread's relaxed writes are releases (log 132). No byte of scratchpad
changes; the save routine's fences change no line state (R113). -/
def Sys2Proof.Claims.FenceKeepsAndCleans : Prop :=
  ∀ (f : SForm) (s : State) (t : Nat),
    let c := s.cur.core
    let k := s.curCore
    let th := s.curThread t
    let ord := (f.fn.extractLsb' 0 3).toNat
    let sco := (f.fn.extractLsb' 3 3).toNat
    let rel := ord = 2 ∨ ord = 3
    let acq := ord = 1 ∨ ord = 3
    let goes (s' : State) : Prop := tookResult ((s'.core c).thread t) (th.commit s.cur) {} ∧ (s'.core c).scratch = k.scratch ∧
      Elsewhere s s' c t
    let mark (n : Nat) : Nat := if rel ∧ 2 ≤ sco ∧ k.aside t = false ∧ n = 2 then 3 else n
    let drop (l : Nat) : Prop := acq ∧ 4 ≤ sco ∧ k.aside t = false ∧ (k.line l).st = 1 ∧ ∃ r, k.regionAt (l * 256) = some r ∧ (k.region r).fill = 0
    let free : Prop := th.relSet = none ∧ k.ownAtoms t = [] ∧ ¬(rel ∧ 4 ≤ sco) ∨ ∃ r, th.relSet = some r ∧ r.lines = [] ∧ r.fwds = [] ∧ r.cmds = []
    Runs (.fence f) { h := f.h } s t →
    (sco < 6 ∨ ¬acq → free → Leaves (.fence f) s (fun s' => goes s' ∧
      (∀ l, ((s'.core c).line l).st = mark (if drop l then 0 else (k.line l).st)) ∧
      ((s'.core c).thread t).acqLines = (if acq ∧ k.aside t = false then [] else th.acqLines) ∧
      ((s'.core c).thread t).fenced = (th.fenced || decide (rel ∧ 2 ≤ sco ∧ k.aside t = false)))) ∧
    (th.relSet = none → k.ownAtoms t ≠ [] → ¬(rel ∧ 4 ≤ sco) → Leaves (.fence f) s (fun s' =>
      ((s'.core c).thread t).block = some .release ∧ (s'.core c).lines = k.lines)) ∧
    (4 ≤ sco → rel → th.relSet = none → k.aside t = false → ∀ r l, k.regionAt (l * 256) = some r → (k.region r).wb = 0 → 2 ≤ (k.line l).st →
      (k.line l).nt = false → Leaves (.fence f) s (fun s' => ((s'.core c).thread t).block = some .release ∧
        ((s'.core c).line l).wback = true ∧ (s'.core c).scratch = k.scratch)) ∧
    (sco = 6 → acq → free → th.promo = [] → ∀ d va, d < 216 → d ≠ c → va ∈ th.acqLines →
      s.lazyCovers d k.fetchPasid va = true → Leaves (.fence f) s (fun s' => ((s'.core c).thread t).block = some .promote ∧ (s'.core d).promoReq = true))

/-- R110, R256: NTDRAIN waits for the dirty non-temporal lines and the non-temporal commands of the thread. R101: a core that is asked for a
promotion writes back the dirty lines of its lazy regions that were dirtied before its latest release, and no others. -/
def Sys2Proof.Claims.PromotionAndDrain : Prop :=
  (∀ (f : SForm) (s : State) (t : Nat),
    let c := s.cur.core
    let k := s.curCore
    let th := s.curThread t
    Runs (.ntdrain f) { h := f.h } s t → th.relSet = none →
      (th.ntCmds = [] → (∀ l, (k.line l).nt = false) → Map.sorted k.lines = true → Leaves (.ntdrain f) s (fun s' =>
        tookResult ((s'.core c).thread t) (th.commit s.cur) {} ∧ (s'.core c).scratch = k.scratch ∧ Elsewhere s s' c t)) ∧
      (∀ r l, k.regionAt (l * 256) = some r → 2 ≤ (k.line l).st → (k.line l).nt = true →
        Leaves (.ntdrain f) s (fun s' => ((s'.core c).thread t).block = some .release ∧ ((s'.core c).line l).wback = true)) ∧
      (th.ntCmds ≠ [] → Leaves (.ntdrain f) s (fun s' => ((s'.core c).thread t).block = some .release))) ∧
  (∀ (s : State) (c l r : Nat),
    let k := s.core c
    k.promoReq = true → k.regionAt (l * 256) = some r → (k.region r).wb = 0 → (k.line l).nt = false →
    Leaves (.promotionRequest c) s (fun s' => (s'.core c).promoReq = false ∧ (s'.core c).scratch = k.scratch ∧
      ((k.line l).st = 3 → ((s'.core c).line l).wback = true ∧ l ∈ (s'.core c).promoLines) ∧
      ((k.line l).st = 2 → ((s'.core c).line l).wback = (k.line l).wback)))

/-- Fences, promotion and drain: R82, R99 to R101, R104, R110, R255, R256. -/
def Obligations.FencesOrder : Prop := FenceKeepsAndCleans ∧ PromotionAndDrain

/-- R77, R90: a load, a store and an atomic to the window of rank k of the share set reach the scratchpad of the core of that rank once its banks
accept them; until then their thread waits, its operands kept. -/
def Sys2Proof.Claims.WindowsReachPeers : Prop :=
  (∀ (f : MForm) (g : WForm) (s : State) (t peer : Nat) (ops : List Opnd),
    let c := s.cur.core
    let th := s.curThread t
    let ok (ea : Nat) : Prop := c < 208 ∧ ea % 4 = 0 ∧ 0x100000 ≤ ea ∧ ea < 0x900000 ∧ ea % 0x100000 + 4 ≤ 0xC0000 ∧
      s.rankCore c (ea / 0x100000 - 1) = some peer ∧ peer ≠ c ∧ (s.core peer).stalls (ea % 0x100000) 4 = false ∧ s.curCore.stalls ea 4 = false
    let waits (i : Instr) : Prop := Leaves i s (fun s' => ∃ a b, ((s'.core c).thread t).block = some (.window a b) ∧
      ((s'.core c).thread t).kept = some ops ∧ s'.core peer = s.core peer)
    (let o : OpSpec := { h := f.h, srcs := [{ reg := f.b.toNat, idx := 1 }, { reg := f.d.toNat, desc := f.rd, n := 1, idx := 3 }] }
     let ea := ((opAt ops 0).lo + f.off.signExtend 32).toNat
     f.ord = 0 → Issues (.st32 f) o s t ops → ok ea → (th.winOk = false → waits (.st32 f)) ∧
      (th.winOk = true → Leaves (.st32 f) s (fun s' => Stored (s.core peer) (s'.core peer) (ea % 0x100000) 4
        ((opAt ops 1).lo.setWidth 128) ∧ ((s'.core c).thread t).pc = s.cur.pc + 8 ∧ (s'.core c).scratch = s.curCore.scratch))) ∧
    (let o : OpSpec := { mSpec f with dsts := [{ reg := f.d.toNat, n := 1, idx := 3 }] }
     let ea := ((opAt ops 0).lo + f.off.signExtend 32).toNat
     f.d ≠ 0 → f.ord = 0 → Issues (.ld32 f) o s t ops → ok ea → (th.winOk = false → waits (.ld32 f)) ∧
      (th.winOk = true → Leaves (.ld32 f) s (fun s' => ∃ s'' bytes, exec (.loadDataReturn c t) s' = .next s'' ∧
        (∀ j, j < 4 → ByteIs (s.core peer) (ea % 0x100000 + j) (bytes j)) ∧ ((s''.core c).thread t).reg f.d.toNat = leWord bytes 0 ∧
        ((s''.core c).thread t).pc = s.cur.pc + 8 ∧ ∀ d j b, ByteIs (s''.core d) j b ↔ ByteIs (s.core d) j b))) ∧
    (let o : OpSpec := { h := g.h, edge := g.edge.toNat, srcs := [g.srcA 1 none, g.srcB 1 (atomTy g.ty)], dsts := [dstD g.d 1] }
     let ea := (opAt ops 0).lo.toNat
     g.ty ≠ 0xE → g.ty ≠ 0xF → g.fn.extractLsb' 3 3 = 0#3 → Issues (.atom g) o s t ops → ok ea → (th.winOk = false → waits (.atom g)) ∧
      (th.winOk = true → ∃ old : W32, (∀ i, i < 4 → ByteIs (s.core peer) (ea % 0x100000 + i) (old.extractLsb' (8 * i) 8)) ∧
        (let new := atom32 g.ty old (opAt ops 1).lo
         Leaves (.atom g) s (fun s' => Stored (s.core peer) (s'.core peer) (ea % 0x100000) 4 (new.1.setWidth 128) ∧
          tookResult ((s'.core c).thread t) (th.commit s.cur) { Res.one g.d.toNat old 2 with fpf := new.2 }))))) ∧
  (∀ (s : State) (c t : Nat) (a b : List (Nat × Nat × Nat)), ((s.core c).thread t).block = some (.window a b) →
    Leaves (.windowAccessAccepted c t) s (fun s' => ((s'.core c).thread t).block = none ∧ ((s'.core c).thread t).winOk = true))

/-- Checks of an access, and the windows of a share set: R75, R77, R80, R90. -/
def Obligations.AccessChecksAndWindows : Prop := AccessChecks ∧ WindowsReachPeers

/-! ### Regions and the map unit -/

namespace Sys2Proof.Claims

/-- Core `c` may use a translation that is cached under a PASID (R420). -/
def Admitted (s : State) (c pasid : Nat) (x : Xlat) : Prop := pasid = 0 ∨ ∀ p, s.corePart c = some p → p = x.part

/-- An operation of the map unit of core `c` whose page's translation `x`, to device memory, is at hand. -/
def Translated (s : State) (c : Nat) (m : MOp) (wr : Bool) (x : Xlat) : Prop :=
  m.xs = .idle ∧ m.va < 2 ^ 52 ∧ m.va / 2 ^ 48 ≠ 15 ∧ findTlb m.xl m.pasid m.va wr = some x ∧ x.loc.host = false ∧
  s.poisoned (x.at m.va) = false ∧ s.migrating x = false ∧ Admitted s c m.pasid x

/-- A forwarded write of the core to the line of address `va` has not been performed (R81). -/
def FwdDue (k : Core) (va : Nat) : Prop := ∃ y ∈ k.mops, ∃ r bs nt, y.kind = .fwd r bs nt ∧ y.va / 256 = va / 256

/-- Device memory from `a` on holds the bytes `bs`; every byte outside them and outside the page's leaf entry is unchanged. -/
def MemStored (s s' : State) (x : Xlat) (a : Nat) (bs : List Byte) : Prop :=
  let leaf (j : Nat) : Prop := ∃ l, x.leaf = some l ∧ l ≤ j ∧ j < l + 8
  (∀ i, i < bs.length → Map.get Config.blank s'.mem (a + i) = bs.getD i 0) ∧
  (∀ j, (j < a ∨ a + bs.length ≤ j) → ¬leaf j → Map.get Config.blank s'.mem j = Map.get Config.blank s.mem j) ∧ s'.host = s.host

end Sys2Proof.Claims

/-- R79, R277: RMAP writes the first status that applies: 4 wrong modes, 3 alignment or range, 2 slot live, 1 overlap, and otherwise makes the
region with its lines invalid, or valid under fill 2. That a size of 0 counts as out of range is the model's choice (log 25). -/
def Sys2Proof.Claims.RmapMakesRegion : Prop :=
  ∀ (f : EForm) (s : State) (t : Nat),
    let c := s.cur.core
    let k := s.curCore
    let o : OpSpec := { h := f.h, srcs := [{ reg := f.b.toNat, n := 2, idx := 1 }, { reg := f.c.toNat, n := 2, idx := 2 }],
                        dsts := [{ reg := f.a.toNat, idx := 0 }] }
    let va := (o.opnd s t 0).x
    let sp := (o.opnd s t 1).lo
    let size := (o.opnd s t 1).hi
    let slot := f.x.toNat % 16
    let fill := f.x.toNat / 16 % 4
    let wb := f.x.toNat / 64 % 4
    let modes := wb = 3 ∨ fill = 3 ∨ (wb = 1 ∧ fill = 1)
    let range := sp.toNat % 256 ≠ 0 ∨ size.toNat % 256 ≠ 0 ∨ va.toNat % 256 ≠ 0 ∨ size.toNat = 0 ∨
      (if 208 ≤ c then 0x40000 else 0xC0000) < sp.toNat + size.toNat
    let live (i : Nat) : Prop := i < 16 ∧ (k.region i).ctl.getLsbD 31 = true
    let meets := ∃ i, live i ∧ sp.toNat < (k.region i).spbase.toNat + (k.region i).size.toNat ∧
      (k.region i).spbase.toNat < sp.toNat + size.toNat
    let answers (n : Nat) : Prop := Leaves (.rmap f) s (fun s' =>
      tookResult ((s'.core c).thread t) ((s.curThread t).commit s.cur) (Res.one f.a.toNat (BitVec.ofNat 32 n) 1) ∧
      (s'.core c).regions = k.regions ∧ (s'.core c).lines = k.lines)
    Runs (.rmap f) o s t →
    (modes → answers 4) ∧ (¬modes → range → answers 3) ∧ (¬modes → ¬range → live slot → answers 2) ∧
    (¬modes → ¬range → ¬live slot → meets → answers 1) ∧
    (¬modes → ¬range → ¬live slot → ¬meets → (∀ r ∈ k.ranges, r.hi ≤ sp.toNat ∨ sp.toNat + size.toNat ≤ r.lo) →
      Leaves (.rmap f) s (fun s' => let k' := s'.core c
        tookResult (k'.thread t) ((s.curThread t).commit s.cur) (Res.one f.a.toNat 0 1) ∧
        k'.region slot = { spbase := sp, size := size, va := va, ctl := BitVec.ofNat 32 (2 ^ 31 + wb * 4 + fill) } ∧
        (∀ i, i ≠ slot → k'.region i = k.region i) ∧ k'.scratch = k.scratch ∧
        (∀ l, (sp.toNat ≤ l * 256 ∧ l * 256 < sp.toNat + size.toNat → (k'.line l).st = if fill = 2 then 1 else 0) ∧
          (l * 256 < sp.toNat ∨ sp.toNat + size.toNat ≤ l * 256 → k'.line l = k.line l))))

/-- R80, R81, R88, R94, R168, R420: a fill, which waits for a forwarded write of its line, brings its 256 bytes into scratchpad and makes the line valid;
a write-back, also one that the map unit makes
of its own accord, and a forwarded write, put theirs into memory; a 16-byte chunk of a fill that was read before the others stands as it was read, and
one of a write-back that was written before, and has not changed since, is not written again (R97); a line of the instruction cache holds 32 words; an uncorrectable memory error makes
a fill or a write-back fail with code 5 or 6 and the address in FAILVA. -/
def Sys2Proof.Claims.MapUnitMovesLines : Prop :=
  ∀ (s : State) (c l : Nat) (m : MOp) (x : Xlat),
    let k := s.core c
    let a := (x.at m.va).addr
    let mem (i : Nat) : Byte := Map.get Config.blank s.mem (a + i)
    let line : List Byte := Map.getRange Config.blank k.scratch (l * 256) 256
    let chunk (b : List Byte) (i : Nat) : List Byte := (b.drop (16 * i)).take 16
    let there : List Byte := Map.getRange Config.blank s.mem a 256
    let written (s' : State) : Prop := ∃ bs : List Byte, bs.length = 256 ∧ MemStored s s' x a bs ∧
      ∀ i, i < 16 → chunk bs i = if Map.find m.early i = some (chunk line i) then chunk there i else chunk line i
    (k.fillOf l = some m → FwdDue k m.va → ∀ e, exec (.lineFillComplete c l e) s = .next s) ∧
    (k.fillOf l = some m → ¬FwdDue k m.va → Translated s c m false x → (k.line l).refill = false → (∀ e ∈ m.early, e.2.length = 16) →
      Leaves (.lineFillComplete c l false) s (fun s' =>
      ((s'.core c).line l).st = 1 ∧ ((s'.core c).line l).filling = false ∧ s'.mem = s.mem ∧
      (∀ i, i < 256 → Map.get Config.blank (s'.core c).scratch (l * 256 + i) =
        match Map.find m.early (i / 16) with | some bs => bs.getD (i % 16) 0 | none => mem i) ∧
      (∀ j, j / 256 ≠ l → Map.get Config.blank (s'.core c).scratch j = Map.get Config.blank k.scratch j))) ∧
    (k.wbackOf l = some m → Translated s c m true x → (∀ e, x.leaf = some e → e + 8 ≤ a ∨ a + 256 ≤ e) →
      Leaves (.lineWritebackComplete c l false) s (fun s' =>
        ((s'.core c).line l).st = 1 ∧ ((s'.core c).line l).nt = false ∧ written s' ∧ (s'.core c).scratch = k.scratch) ∧
      (∀ r, k.regionAt (l * 256) = some r → 2 ≤ (k.line l).st → (k.line l).nt = true → (k.line l).wback = true →
        Leaves (.ntWriteback c l false) s (fun s' => ((s'.core c).line l).st = 1 ∧ written s'))) ∧
    (∀ r bs nt, k.fwdOf r = some m → m.kind = .fwd r bs nt → Translated s c m true x → (∀ e, x.leaf = some e → e + 8 ≤ a ∨ a + bs.length ≤ e) →
      Leaves (.forwardedWritePerform c r false) s (fun s' => MemStored s s' x a bs ∧ (s'.core c).scratch = k.scratch ∧
        (s'.core c).mops = k.mops.filter (fun y => y.id != m.id))) ∧
    (∀ key, k.mops.find? (fun m => m.kind == .ifetch && m.pasid * 2 ^ 56 + m.va / 256 == key) = some m → Translated s c m false x →
      Leaves (.icacheFill c key false) s (fun s' => ∃ ws, Map.find (s'.core c).icache key = some ws ∧ ws.length = 32 ∧
        ∀ i, i < 256 → (ws.getD (i / 8) 0).extractLsb' (8 * (i % 8)) 8 = mem i)) ∧
    (∀ r, k.regionAt (l * 256) = some r → m.xs = .idle →
      (k.fillOf l = some m → ¬FwdDue k m.va → s.memWaiters = [] → Leaves (.lineFillComplete c l true) s (fun s' => let g := (s'.core c).region r
        ((s'.core c).line l).filling = false ∧ g.status.toNat % 256 = 5 ∧ g.failva = BitVec.ofNat 64 m.va ∧ g.ctl = (k.region r).ctl)) ∧
      (k.wbackOf l = some m → Leaves (.lineWritebackComplete c l true) s (fun s' => let g := (s'.core c).region r
        ((s'.core c).line l).st = (k.line l).st ∧ g.status.toNat % 256 = 6 ∧ g.failva = BitVec.ofNat 64 m.va ∧ s'.mem = s.mem)))

/-- Regions and the map unit: R79 to R82, R277. -/
def Obligations.RegionsAndMapUnit : Prop := RmapMakesRegion ∧ MapUnitMovesLines

/-! ### The copy unit -/

namespace Sys2Proof.Claims

/-- One command joins the end of the queue, for thread `t` alone; the thread goes on, its registers as they were (R83, R85, R275), and a non-temporal
copy is one that its releases pass by (R109). -/
def Queued (i : Instr) (f : EForm) (s : State) (t : Nat) (good : Cmd → Prop) : Prop :=
  let c := s.cur.core
  Leaves i s (fun s' => ∃ m : Cmd, (s'.core c).cmds.length = s.curCore.cmds.length + 1 ∧ (s'.core c).cmds.getLast? = some m ∧
    m.tid = t ∧ m.targets = [t] ∧ m.fn = f.fn.toNat ∧ m.sig = (if f.sig then some f.tb.toNat else none) ∧
    m.wait = (if f.wait then some f.wid.toNat else none) ∧ m.started = false ∧ m.pasid = s.curCore.cmdPasid ∧ good m ∧
    tookResult ((s'.core c).thread t) ((s.curThread t).commit s.cur) {} ∧ s'.mem = s.mem ∧ (s'.core c).scratch = s.curCore.scratch ∧
    ((s'.core c).thread t).ntCmds = (s.curThread t).ntCmds ++
      if m.op = 0xA3 ∧ f.fn.getLsbD 2 = true ∨ m.op = 0xA4 ∧ m.x = 1 then [m.id] else [])

/-- Room for a command with two range entries (R83, R275). -/
def roomy (s : State) : Prop := s.curCore.cmds.length < 32 ∧ s.curCore.ranges.length ≤ 62

/-- `n` bytes at an offset, both multiples of 16, lie in the local scratchpad of the issuing core. -/
def local16 (s : State) (a n : Nat) : Prop := a % 16 = 0 ∧ n % 16 = 0 ∧ a + n ≤ (if 208 ≤ s.cur.core then 0x40000 else 0xC0000)

/-- The range entry of a part of scratchpad (R83). -/
def entry (a n : Nat) (wr : Bool) : List Rng := if n = 0 then [] else [{ lo := a, hi := a + n, wr := wr }]

/-- The translation of a command's word for an access that writes, to device memory, at hand; the word lies apart from the page's leaf. -/
def WordAt (s : State) (c : Nat) (m : Cmd) (x : Xlat) (n : Nat) : Prop :=
  Admitted s c m.pasid x ∧ m.xs = .idle ∧ m.fails = none ∧ m.b.toNat < 2 ^ 52 ∧ m.b.toNat / 2 ^ 48 ≠ 15 ∧ findTlb m.src m.pasid m.b.toNat true = some x ∧
  x.loc.host = false ∧ s.poisoned (x.at m.b.toNat) = false ∧ s.migrating x = false ∧
  ∀ l, x.leaf = some l → l + 8 ≤ (x.at m.b.toNat).addr ∨ (x.at m.b.toNat).addr + n ≤ l

/-- The value of `n` bytes of device memory, little-endian. -/
def MemIs (s : State) (a n v : Nat) : Prop := v < 2 ^ (8 * n) ∧ ∀ i, i < n → (Map.get Config.blank s.mem (a + i)).toNat = v / 2 ^ (8 * i) % 256

end Sys2Proof.Claims

/-- R83, R85, R94, R109, R275, R278, R279, R283, R284, R285, R291: RUNMAP, WBACK, CPY, ACPY, ACLR, GATOM and SEMPOST put their command, with its operands
and range entries, at the end of the copy unit's queue and go on; an acquiring GATOM then holds its thread until it has been performed, SEMWAIT waits; only
a copy inside scratchpad may name a window of the share set. -/
def Sys2Proof.Claims.CopyCommandsJoin : Prop :=
  ∀ (f : EForm) (s : State) (t : Nat),
    let k := s.curCore
    let th := s.curThread t
    roomy s →
    (let region (op : Nat) (m : Cmd) : Prop := m.op = op ∧ m.x = f.x.toNat % 16 ∧ ((k.region (f.x.toNat % 16)).ctl.getLsbD 31 = false → m.ranges = [])
     Runs (.runmap f) { h := f.h } s t → Queued (.runmap f) f s t (region 0xA1)) ∧
    (Runs (.wback f) { h := f.h } s t → Queued (.wback f) f s t (fun m => m.op = 0xA2 ∧ m.x = f.x.toNat % 16)) ∧
    (let dg := f.fn.toNat % 4 = 1 ∨ f.fn.toNat % 4 = 3
     let sg := f.fn.toNat % 4 = 0 ∨ f.fn.toNat % 4 = 3
     let o : OpSpec := { h := f.h, srcs := [{ reg := f.a.toNat, n := if dg then 2 else 1, idx := 0 },
       { reg := f.b.toNat, n := if sg then 2 else 1, idx := 1 }, { reg := f.c.toNat, idx := 2 }] }
     let dst := if dg then (o.opnd s t 0).x.toNat else (o.opnd s t 0).lo.toNat
     let src := if sg then (o.opnd s t 1).x.toNat else (o.opnd s t 1).lo.toNat
     let n := (o.opnd s t 2).lo.toNat
     Runs (.cpy f) o s t →
      (n % 16 = 0 → dst % 16 = 0 → src % 16 = 0 → (dg ∨ local16 s dst n) → (sg ∨ local16 s src n) → Queued (.cpy f) f s t (fun m =>
        m.op = 0xA3 ∧ m.ranges = (if dg then [] else entry dst n true) ++ (if sg then [] else entry src n false) ∧
        m.moves = if n = 0 then [] else [{ src := if sg then .glob src else .spad src, dst := if dg then .glob dst else .spad dst, n := n }])) ∧
      (n % 16 = 0 → dst % 16 = 0 → src % 16 = 0 → 0 < n →
        (f.fn.toNat % 4 = 0 → 0x100000 ≤ dst → dst < 0x900000 → Traps (.cpy f) s t .sprange (BitVec.ofNat 64 dst)) ∧
        (f.fn.toNat % 4 = 1 → 0x100000 ≤ src → src < 0x900000 → Traps (.cpy f) s t .sprange (BitVec.ofNat 64 src))) ∧
      (n % 16 ≠ 0 → Traps (.cpy f) s t .misalign (BitVec.ofNat 64 n))) ∧
    (let o : OpSpec := { h := f.h, avail := .core, srcs := [{ reg := f.a.toNat, idx := 0 }, { reg := f.b.toNat, idx := 1 },
       { reg := f.c.toNat, idx := 2 }] }
     let a := (o.opnd s t 0).lo.toNat
     let row := (o.opnd s t 1).lo.toNat % 512
     let col := (o.opnd s t 1).lo.toNat / 512
     let rows := (o.opnd s t 2).lo.toNat % 65536
     let cols := (o.opnd s t 2).lo.toNat / 65536
     let w := if f.fn.toNat / 2 % 4 = 0 then 4 else 2
     let stride := if f.x = 0 then (cols * w + 15) / 16 * 16 else f.x.toNat * 16
     Runs (.acpy f) o s t → col < 128 → 1 ≤ rows → rows ≤ 512 → 1 ≤ cols → cols ≤ 128 → row + rows ≤ 512 → col + cols ≤ 128 → a % 16 = 0 →
      a + (rows - 1) * stride + cols * w ≤ 0xC0000 → Queued (.acpy f) f s t (fun m => m.op = 0xA5 ∧ m.moves.length = rows ∧
        ∀ i, i < rows → m.moves[i]? = some (if f.fn.toNat % 2 = 1
          then { src := .spad (a + i * stride), dst := .acc (row + i) col (f.fn.toNat / 2 % 4), n := cols * w }
          else { src := .acc (row + i) col (f.fn.toNat / 2 % 4), dst := .spad (a + i * stride), n := cols * w }))) ∧
    (let o : OpSpec := { h := f.h, avail := .core, srcs := [{ reg := f.b.toNat, idx := 1 }, { reg := f.c.toNat, idx := 2 }] }
     let b := (o.opnd s t 0).lo.toNat
     let n := (o.opnd s t 1).lo.toNat
     Runs (.aclr f) o s t → (1 ≤ n → b + n ≤ 512 → Queued (.aclr f) f s t (fun m => m.op = 0xB6 ∧ m.b.toNat = b ∧ m.c.toNat = n)) ∧
      (512 ≤ b → Traps (.aclr f) s t .matparam 0x21) ∧ (b < 512 → n = 0 ∨ 512 < b + n → Traps (.aclr f) s t .matparam 0x22)) ∧
    (let pair := f.fn.toNat = 0xE ∨ f.fn.toNat = 0xF ∨ f.fn.toNat = 0x10
     let two := f.fn.toNat = 0xE ∨ f.fn.toNat = 0xF
     let o : OpSpec := { h := f.h, srcs := [{ reg := f.b.toNat, n := 2, idx := 1 }, { reg := f.c.toNat, n := if pair then 2 else 1, idx := 2 }],
                         dsts := [{ reg := f.a.toNat, n := if (if two then 2 else 1) = 2 ∧ f.a = 0 then 0 else if two then 2 else 1, idx := 0 }] }
     let va := (o.opnd s t 0).x
     Runs (.gatom f) o s t → va.toNat % (if two then 8 else 4) = 0 →
      (k.isDet = false → f.x.toNat / 8 % 8 = 0 → Queued (.gatom f) f s t (fun m =>
        m.op = 0xA6 ∧ m.b = va ∧ m.c = (o.opnd s t 1).x ∧ m.reg = f.a.toNat)) ∧
      (k.isDet = false → f.x.toNat / 8 % 8 = 1 → Leaves (.gatom f) s (fun s' => ∃ m : Cmd, (s'.core s.cur.core).cmds = k.cmds ++ [m] ∧
        m.op = 0xA6 ∧ m.b = va ∧ m.c = (o.opnd s t 1).x ∧ m.reg = f.a.toNat ∧
        let x := (s'.core s.cur.core).thread t
        x.block = some (.order m.id) ∧ x.pc = s.cur.pc + 8 ∧ x.v = th.v)) ∧
      (k.isDet = true → Traps (.gatom f) s t .detviol va)) ∧
    (let o := semSpec f
     let va := (o.opnd s t 0).x
     let waits (i : Instr) : Prop := Runs i o s t → va.toNat % 4 = 0 → Leaves i s (fun s' => ∃ m : Cmd,
       (s'.core s.cur.core).cmds = k.cmds ++ [m] ∧ m.op = 0xA7 ∧ m.fn = f.fn.toNat ∧ m.b = va ∧
       m.c.setWidth 32 = (o.opnd s t 1).lo ∧ m.reg = f.a.toNat ∧
       let x := (s'.core s.cur.core).thread t
       x.block = some (.sem m.id) ∧ x.pc = s.cur.pc ∧ x.v = th.v)
     waits (.semwaitTake f) ∧ waits (.semwaitEq f) ∧
      (Runs (.sempost f) o s t → va.toNat % 4 = 0 → Queued (.sempost f) f s t (fun m => m.op = 0xA8 ∧ m.b = va ∧
        m.c.setWidth 32 = (o.opnd s t 1).lo)))

/-- R281, R282: CPYD reads its 16-word descriptor at issue: a strided one moves row r of plane p between VA + p × plane stride + r × row stride and the
scratchpad; a bad field traps COPYERR with its byte offset; an index list is read when the command starts, and gives the rows. Which of several bad fields is named is
the model's order (log 29), and so is that the descriptor is read like a load of its bytes (log 28). -/
def Sys2Proof.Claims.DescriptorCopies : Prop :=
  (∀ (f : EForm) (s : State) (t : Nat) (d : Nat → W32),
    let c := s.cur.core
    let o : OpSpec := { h := f.h, srcs := [{ reg := f.a.toNat, idx := 0 }] }
    let off := (o.opnd s t 0).lo
    let w (i : Nat) : Nat := (d i).toNat
    let x (i : Nat) : Int := (d (i + 1) ++ d i : W64).toInt
    let ix := w 0 / 4 % 4 = 1 ∨ w 0 / 4 % 4 = 2
    let base := w 4 + ((w 6 - 1) * w 13 + (w 5 - 1) * w 12 + w 1) ≤ (if 208 ≤ c then 0x40000 else 0xC0000)
    let right := w 0 < 32 ∧ w 0 / 4 % 4 ≠ 3 ∧ w 0 % 4 < 2 ∧ w 1 % 16 = 0 ∧ 16 ≤ w 1 ∧ w 1 ≤ 65536 ∧ w 2 % 16 = 0 ∧ w 4 % 16 = 0 ∧ 1 ≤ w 5 ∧
      w 5 ≤ 65536 ∧ 1 ≤ w 6 ∧ w 6 ≤ 4096 ∧ w 7 = 0 ∧ w 8 % 16 = 0 ∧ w 10 % 16 = 0 ∧ w 12 % 16 = 0 ∧ w 13 % 16 = 0 ∧ w 15 = 0
    roomy s → Runs (.cpyd f) o s t → off.toNat % 64 = 0 → AtHand s t off 64 →
    s.curCore.regionAt (off.toNat / 256 * 256) = none →
    (∀ i, i < 16 → ∀ j, j < 4 → Map.get Config.blank s.curCore.scratch (off.toNat + 4 * i + j) = (d i).extractLsb' (8 * j) 8) →
    (right → w 0 / 4 % 4 = 0 → base → Queued (.cpyd f) f s t (fun m => m.op = 0xA4 ∧ m.desc = [] ∧ m.x = w 0 / 16 ∧
      m.moves.length = w 6 * w 5 ∧ ∀ p r, p < w 6 → r < w 5 →
        let g := (BitVec.ofInt 64 (x 2 + p * x 10 + r * x 8)).toNat
        let sp := w 4 + p * w 13 + r * w 12
        m.moves[p * w 5 + r]? = some (if w 0 % 4 = 0 then { src := .glob g, dst := .spad sp, n := w 1 } else { src := .spad sp, dst := .glob g, n := w 1 }))) ∧
    (right → ix → w 6 = 1 → w 14 % 4 = 0 → base → w 14 + 4 * w 5 ≤ (if 208 ≤ c then 0x40000 else 0xC0000) →
      Queued (.cpyd f) f s t (fun m => m.op = 0xA4 ∧ m.moves = [] ∧ m.desc = (List.range 16).map d)) ∧
    (w 0 < 32 → w 0 / 4 % 4 ≠ 3 → w 0 % 4 < 2 → w 1 = 0 → Leaves (.cpyd f) s (fun s' =>
      c < 208 → (s.curThread t).sub = none → let y := (s'.core c).thread t
      y.tcause = 0x0C ∧ y.tval = BitVec.ofNat 64 (2 ^ 63 + 4 * 2 ^ 32 + off.toNat % 2 ^ 24) ∧ (s'.core c).cmds = s.curCore.cmds))) ∧
  (∀ (s : State) (c : Nat) (m : Cmd) (idx : Nat → W32),
    let k := s.core c
    let d (i : Nat) : Nat := (m.desc.getD i 0).toNat
    k.cmd? m.id = some m → k.startable m = true → m.op = 0xA4 → m.desc ≠ [] → d 6 = 1 → d 0 / 4 % 4 ≠ 0 → d 0 % 4 = 0 → 1 ≤ d 5 →
    (∀ l ∈ linesOf (d 14) (4 * d 5), k.regionAt (l * 256) = none) →
    (∀ r, r < d 5 → ∀ j, j < 4 → Map.get Config.blank k.scratch (d 14 + 4 * r + j) = (idx r).extractLsb' (8 * j) 8) →
    Leaves (.copyStart c m.id) s (fun s' => ∃ m', (s'.core c).cmd? m.id = some m' ∧ m'.desc = [] ∧ m'.moves.length = d 5 ∧
      ∀ r, r < d 5 → m'.moves[r]? = some { src := .glob (BitVec.ofInt 64 (d 2 + d 3 * 2 ^ 32 + (idx r).toNat *
        (BitVec.ofNat 64 (d 8 + d 9 * 2 ^ 32)).toInt)).toNat, dst := .spad (d 4 + r * d 12), n := d 1 }))

/-- Commands of the copy unit at issue: R83 to R86, R275 to R285. -/
def Obligations.CommandsJoinQueue : Prop := CopyCommandsJoin ∧ DescriptorCopies

/-- R82, R86, R87, R97, R105, R279, R280, R291: a copy that starts reads its data, and at its retirement writes it and leaves the queue with its signal,
which is a release at core scope; of a store by another thread that no acquire has ordered before its issue it reads the old word or the new one, in a
16-byte chunk all of them alike; ACLR clears its rows, but for the elements that it has cleared before, and their overflow bits. -/
def Sys2Proof.Claims.CopiesReadAndWrite : Prop :=
  ∀ (s : State) (c : Nat) (m : Cmd),
    let k := s.core c
    let old (w : Nat) (r : Recent) : Prop := m.aside = false ∧ Missable k c m.targets m.acqAt w r
    let plain (a n : Nat) : Prop := a % 16 = 0 ∧ a + n ≤ 0xC0000 ∧ ∀ l ∈ linesOf a n, k.regionAt (l * 256) = none ∧ (k.line l).filling = false
    let gone (s' : State) : Prop := (s'.core c).cmd? m.id = none ∧ ∀ b, m.sig = some b → (s'.core c).tb b = (k.tb b).signal false ∧
      ∀ l, ((s'.core c).line l).st = if m.aside = false ∧ (k.line l).st = 2 then 3 else (k.line l).st
    c < 208 → k.cmd? m.id = some m →
    (∀ va o n x, m.op = 0xA3 → m.raw = false → m.desc = [] → m.fn % 4 < 2 → 16 ∣ n → 0 < n → plain o n → (∀ i, i < n →
        findTlb m.src m.pasid (va + i) (m.fn % 4 == 1) = some x) → x.loc.host = false → s.migrating x = false →
      (∀ l, x.leaf = some l → l + 8 ≤ (x.at va).addr ∨ (x.at va).addr + n ≤ l) → s.poison = [] → s.rdma = [] → m.xs = .idle → m.fails = none →
      (m.fn % 4 = 1 → m.moves = [{ src := .spad o, dst := .glob va, n := n }] →
        (k.startable m = true → Leaves (.copyStart c m.id) s (fun s' => ∃ (m' : Cmd) (bs : Nat → List Byte) (miss : Nat → Bool),
          (s'.core c).cmd? m.id = some m' ∧ m'.started = true ∧ m'.data = (List.range (n / 16)).map (fun i => some (bs i)) ∧
          (∀ i j, i < n / 16 → j < 16 → let b := o + 16 * i + j
            (miss (b / 4) = false → (bs i)[j]? = some (Map.get Config.blank k.scratch b)) ∧
            (miss (b / 4) = true → ∃ r, old (b / 4) r ∧ (bs i)[j]? = some (r.old.extractLsb' (8 * (b % 4)) 8))) ∧
          (∀ w w' r r', old w r → old w' r' → w / 4 = w' / 4 → r.stamp = r'.stamp → miss w = miss w') ∧ (s'.core c).scratch = k.scratch)) ∧
        (∀ bs : Nat → List Byte, (∀ i, (bs i).length = 16) → m.started = true → m.data = (List.range (n / 16)).map (fun i => some (bs i)) →
          Leaves (.copyRetire c m.id false) s (fun s' => gone s' ∧ (s'.core c).scratch = k.scratch ∧
            MemStored s s' { x with leaf := none } (x.at va).addr ((List.range (n / 16)).flatMap bs)))) ∧
      (m.fn % 4 = 0 → m.moves = [{ src := .glob va, dst := .spad o, n := n }] →
        (k.startable m = true → Leaves (.copyStart c m.id) s (fun s' => ∃ m', (s'.core c).cmd? m.id = some m' ∧ m'.started = true ∧
          m'.data = (List.range (n / 16)).map (fun i => some (Map.getRange Config.blank s.mem ((x.at va).addr + 16 * i) 16)) ∧ s'.mem = s.mem)) ∧
        (∀ bs : Nat → List Byte, (∀ i, (bs i).length = 16) → m.started = true → m.data = (List.range (n / 16)).map (fun i => some (bs i)) →
          Leaves (.copyRetire c m.id false) s (fun s' => gone s' ∧ s'.mem = s.mem ∧
            (∀ i, i < n → Map.get Config.blank (s'.core c).scratch (o + i) = (bs (i / 16)).getD (i % 16) 0) ∧
            ∀ j, j < o ∨ o + n ≤ j → Map.get Config.blank (s'.core c).scratch j = Map.get Config.blank k.scratch j)))) ∧
    (m.op = 0xB6 → m.fails = none → m.xs = .idle → s.rdma = [] → m.b.toNat + m.c.toNat ≤ 512 →
      (k.startable m = true → Leaves (.copyStart c m.id) s (fun s' => ∃ m', (s'.core c).cmd? m.id = some m' ∧ m'.started = true)) ∧
      (m.started = true → Leaves (.copyRetire c m.id false) s (fun s' => gone s' ∧
        (∀ i, Map.get 0 (s'.core c).acc i = if m.b.toNat ≤ i / 128 ∧ i / 128 < m.b.toNat + m.c.toNat ∧ i ∉ m.cleared then 0
          else Map.get 0 k.acc i) ∧
        ∀ i, (s'.core c).ovf.getLsbD i = (k.ovf.getLsbD i && !decide (m.b.toNat ≤ i ∧ i < m.b.toNat + m.c.toNat)))))

/-- R88: a started copy that meets an uncorrectable memory error retires at once with its signal marked failed; each 16-byte chunk of its
destination holds its old bytes or its new ones. -/
def Sys2Proof.Claims.FailedCopiesRetire : Prop :=
  ∀ (s : State) (c o n va : Nat) (m : Cmd) (bs : Nat → List Byte),
    let k := s.core c
    c < 208 → k.cmd? m.id = some m → m.op = 0xA3 → m.started = true → m.moves = [{ src := .glob va, dst := .spad o, n := n }] → 16 ∣ n → 0 < n →
    o % 16 = 0 → o + n ≤ 0xC0000 → (∀ l ∈ linesOf o n, k.regionAt (l * 256) = none) → (∀ i, (bs i).length = 16) →
    m.data = (List.range (n / 16)).map (fun i => some (bs i)) → s.memWaiters = [] → m.fails = none → m.xs = .idle →
    Leaves (.copyRetire c m.id true) s (fun s' => (s'.core c).cmd? m.id = none ∧
      (∀ b, m.sig = some b → (s'.core c).tb b = (k.tb b).signal true) ∧ s'.mem = s.mem ∧
      (∀ i, i < n / 16 → (∀ j, j < 16 → Map.get Config.blank (s'.core c).scratch (o + 16 * i + j) = (bs i).getD j 0) ∨
        (∀ j, j < 16 → Map.get Config.blank (s'.core c).scratch (o + 16 * i + j) = Map.get Config.blank k.scratch (o + 16 * i + j))) ∧
      ∀ j, j < o ∨ o + n ≤ j → Map.get Config.blank (s'.core c).scratch j = Map.get Config.blank k.scratch j)

/-- Copies: R87, R88, R97, R105, R279, R280, R291. -/
def Obligations.CopiesMoveBytes : Prop := CopiesReadAndWrite ∧ FailedCopiesRetire

/-- R111, R252, R284, R285: a started GATOM, SEMWAIT.take, SEMWAIT.eq or SEMPOST acts on its word of global memory in one step, gives the value read
to its thread's result register, and leaves the queue, so that a thread held for its order goes on (R94); a SEMWAIT whose condition does not hold
changes no byte but the D bit of its page's entry (R388). -/
def Obligations.GlobalWordsUpdate : Prop :=
  ∀ (s : State) (c t : Nat) (m : Cmd) (x : Xlat) (old : W64),
    let k := s.core c
    let th := k.thread t
    let a := (x.at m.b.toNat).addr
    let n : W32 := m.c.setWidth 32
    let w := if m.op = 0xA6 ∧ (m.fn = 0xE ∨ m.fn = 0xF) then 8 else 4
    let due : List Pend := if m.reg = 0 then [] else (List.range (w / 4)).map (fun i => { reg := m.reg + i, src := .cmd m.id })
    let asked := m.targets = [t] ∧ th.st = .live ∧ th.pend = due
    let frame (s' : State) : Prop := ∀ j, (j < a ∨ a + w ≤ j) → (∀ l, x.leaf = some l → j < l ∨ l + 8 ≤ j) →
      Map.get Config.blank s'.mem j = Map.get Config.blank s.mem j
    let gone (s' : State) : Prop := (s'.core c).cmd? m.id = none ∧ frame s' ∧ ∀ u, s'.waitOver c u (.order m.id) = true
    let got (s' : State) (tag : Nat) : Prop := let y := (s'.core c).thread t
      (m.reg ≠ 0 → y.reg m.reg = old.setWidth 32 ∧ (y.tag m.reg).toNat = tag ∧ (w = 8 → y.reg (m.reg + 1) = (old >>> 32).setWidth 32)) ∧
        ∀ r, r ≠ m.reg → (w = 4 ∨ r ≠ m.reg + 1) → y.reg r = th.reg r
    k.cmd? m.id = some m → m.started = true → WordAt s c m x w → MemIs s a w old.toNat → s.rdma = [] → (k.inst.all (fun i => m.b ≠ i.qcb + 0x60)) = true →
    (m.op = 0xA6 → m.fn < 0x10 → asked → Leaves (.copyRetire c m.id false) s (fun s' => gone s' ∧ got s' 2 ∧
      MemIs s' a w (if m.fn = 0xE then old + m.c else if m.fn = 0xF then m.c
        else ((atom32 m.fn (old.setWidth 32) n).1).setWidth 64 : W64).toNat)) ∧
    (m.op = 0xA6 → m.fn = 0x10 → asked → Leaves (.copyRetire c m.id false) s (fun s' => gone s' ∧ got s' 2 ∧
      MemIs s' a 4 (if old.setWidth 32 = n then (m.c >>> 32).toNat else old.toNat))) ∧
    (m.op = 0xA7 → asked → th.block = some (.sem m.id) → m.fn % 2 = 0 →
      (n.toNat ≤ old.toNat → Leaves (.semwaitSucceed c m.id false) s (fun s' => gone s' ∧ got s' 1 ∧ MemIs s' a 4 (old.toNat - n.toNat) ∧
        ((s'.core c).thread t).pc = th.pc + 8 ∧ ((s'.core c).thread t).block = none)) ∧
      (old.toNat < n.toNat → Leaves (.semwaitSucceed c m.id false) s (fun s' => frame s' ∧ MemIs s' a 4 old.toNat ∧
        (s'.core c).cmds.length = k.cmds.length ∧ (s'.core c).thread t = th))) ∧
    (m.op = 0xA7 → asked → th.block = some (.sem m.id) → m.fn % 2 = 1 → findTlb m.src m.pasid m.b.toNat false = some x →
      (old.toNat = n.toNat → Leaves (.semwaitSucceed c m.id false) s (fun s' => gone s' ∧ got s' 1 ∧ s'.mem = s.mem ∧
        ((s'.core c).thread t).pc = th.pc + 8)) ∧
      (old.toNat ≠ n.toNat → Leaves (.semwaitSucceed c m.id false) s (fun s' => s'.mem = s.mem ∧ (s'.core c).thread t = th))) ∧
    (m.op = 0xA8 → (∀ r, m.rel = some r → r.lines = [] ∧ r.fwds = [] ∧ r.cmds = []) → Leaves (.sempostPerform c m.id false) s (fun s' =>
      gone s' ∧ MemIs s' a 4 ((old.toNat + n.toNat) % 2 ^ 32)))

/-- R86, R104, R286: TBINIT starts a round, TBTEST reads the barrier, which is an acquire where COMPLETE is 1, TBWAIT waits for it, which is one too, and traps COPYERR when a command failed; a signal counts, the last one
completes the round, one that comes after it sets OVER. -/
def Sys2Proof.Claims.TransferBarriers : Prop :=
  (∀ (f : EForm) (s : State) (t : Nat),
    let c := s.cur.core
    let k := s.curCore
    let y := (s.curThread t).commit s.cur
    let n := f.x.toNat % 16
    let b := k.tb n
    let others (s' : State) : Prop := (∀ i, i ≠ n → (s'.core c).tb i = k.tb i) ∧ ∀ u, u ≠ t → (s'.core c).thread u = k.thread u
    (let o : OpSpec := { h := f.h, srcs := [{ reg := f.a.toNat, idx := 0 }] }
     let e : BitVec 16 := (o.opnd s t 0).lo.setWidth 16
     Runs (.tbinit f) o s t → Leaves (.tbinit f) s (fun s' => tookResult ((s'.core c).thread t) y {} ∧ others s' ∧
      (s'.core c).tb n = { excess := false, fail := false, complete := decide (e = 0), gen := if e = 0 then !b.gen else b.gen, done := 0, expected := e })) ∧
    (Runs (.tbwait f) { h := f.h } s t →
      (b.complete = true → b.fail = false →
        exec (.tbwait f) s = .next (s.moves t (fun th => if k.aside t then th else th.acquired k.seq))) ∧
      (b.complete = true → b.fail = true → Traps (.tbwait f) s t .copyerr (BitVec.ofNat 64 (2 ^ 62 + n))) ∧
      (b.complete = false → exec (.tbwait f) s = .next ((s.noted [t]).updThread c t (fun th => (th.commit s.cur).wait (.tb n))))) ∧
    (Runs (.tbtest f) { h := f.h, dsts := [{ dstD f.a 2 with idx := 0 }] } s t → ∃ v : W64,
      exec (.tbtest f) s = .next (s.moves t (fun th =>
        (if b.complete && !k.aside t then th.acquired k.seq else th).apply (Res.pair f.a.toNat v 2))) ∧ v.extractLsb' 0 16 = b.expected ∧ v.extractLsb' 16 16 = b.done ∧
      v.getLsbD 32 = b.gen ∧ v.getLsbD 33 = b.complete ∧ v.getLsbD 34 = b.fail ∧ v.getLsbD 35 = b.excess ∧ v.extractLsb' 36 28 = 0)) ∧
  (∀ (b : TBar) (failed : Bool),
    (b.complete = true → b.signal failed = { b with excess := true }) ∧
    (b.complete = false → let last := b.done + 1 = b.expected
      b.signal failed = { b with done := b.done + 1, fail := b.fail || failed, complete := decide last, gen := if last then !b.gen else b.gen }))

/-- R90, R91, R287: SJOIN with one cause of refusal answers its code, with none joins; SLEAVE outside a set answers 5, in one it waits for the
revocation, which empties the rank and lets it answer 0. -/
def Sys2Proof.Claims.ShareSets : Prop :=
  (∀ (f : EForm) (s : State) (t : Nat),
    let c := s.cur.core
    let k := s.curCore
    let y := (s.curThread t).commit s.cur
    let o : OpSpec := { h := f.h, avail := .core, srcs := [{ reg := f.b.toNat, idx := 1 }, { reg := f.c.toNat, idx := 2 }],
                        dsts := [{ reg := f.a.toNat, idx := 0 }] }
    let id := (o.opnd s t 0).lo.toNat
    let rank := (o.opnd s t 1).lo.toNat
    let taken := ∃ x, x < 52 ∧ (s.core (dieOf c * 52 + x)).sset = some (id, rank)
    let det := k.isDet = true
    let answers (n : Nat) (ss : Option (Nat × Nat)) : Prop := Leaves (.sjoin f) s (fun s' =>
      tookResult ((s'.core c).thread t) y (Res.one f.a.toNat (BitVec.ofNat 32 n) 1) ∧ (s'.core c).sset = ss)
    (Runs (.sjoin f) o s t →
      (id < 16 → rank < 8 → ¬det → k.sset = none → ¬taken → answers 0 (some (id, rank))) ∧
      (id < 16 → rank < 8 → ¬det → k.sset = none → taken → answers 1 k.sset) ∧
      (id < 16 → rank < 8 → ¬det → k.sset ≠ none → ¬taken → answers 2 k.sset) ∧
      (id < 16 → rank < 8 → det → k.sset = none → ¬taken → answers 3 k.sset) ∧
      (16 ≤ id ∨ 8 ≤ rank → ¬det → k.sset = none → answers 4 k.sset)) ∧
    (Runs (.sleave f) { h := f.h, avail := .core, dsts := [{ reg := f.a.toNat, idx := 0 }] } s t →
      (k.sset = none → exec (.sleave f) s = .next (s.gives t (Res.one f.a.toNat 5 1))) ∧
      (k.sset ≠ none → Leaves (.sleave f) s (fun s' => ((s'.core c).thread t).block = some (.sleave f.a.toNat) ∧
        (s'.core c).leaving.isSome ∧ (s'.core c).sset = k.sset)))) ∧
  (∀ (s : State) (c t d : Nat) (ws : List (Nat × Nat)),
    let k := s.core c
    let th := k.thread t
    k.leaving = some ws → (∀ w ∈ ws, w ∉ s.windowUsers c) → t ∈ k.liveTids → th.st = .live → th.block = some (.sleave d) → s.revokeThreads c = s →
    Leaves (.shareRevocation c) s (fun s' => (s'.core c).sset = none ∧ (s'.core c).leaving = none ∧
      tookResult ((s'.core c).thread t) th (Res.one d 0 1)))

/-- Transfer barriers and share sets: R86, R90, R91, R286, R287. -/
def Obligations.TransferBarriersAndShareSets : Prop := TransferBarriers ∧ ShareSets

/-! ### The matrix engine -/

namespace Sys2Proof.Claims

/-- Thread `t` goes on with result `r`; of its core only what `P` says has changed besides, of the machine nothing but the model's own counter of free
values. -/
def WithCore (i : Instr) (s : State) (t : Nat) (r : Res) (P : Core → Prop) : Prop :=
  let c := s.cur.core
  Leaves i s (fun s' => tookResult ((s'.core c).thread t) ((s.curThread t).commit s.cur) r ∧ (∀ d, d ≠ c → s'.core d = s.core d) ∧
    (∀ u, u ≠ t → (s'.core c).thread u = s.curCore.thread u) ∧ { s' with cores := [], fresh := 0 } = { s with cores := [], fresh := 0 } ∧ P (s'.core c))

/-- The little-endian word at an offset of a store of bytes. -/
def wordAt (sp : Map Byte) (a : Nat) : W32 :=
  Map.get Config.blank sp (a + 3) ++ Map.get Config.blank sp (a + 2) ++ Map.get Config.blank sp (a + 1) ++ Map.get Config.blank sp a

/-- The words `ws` stand in a store from `a` on. -/
def wordsAt (sp : Map Byte) (a : Nat) (ws : List W32) : Prop := ∀ i, i < ws.length → wordAt sp (a + 4 * i) = ws.getD i 0

/-- An operation writes its elements: where nothing has written an element since the operation took it, its own value stands (R107, R141). -/
def Written (e : MatOp) (acc acc' : Map W32) : Prop :=
  (e.part = none → acc' = acc) ∧
  ∀ p, e.part = some p → (∀ q ∈ (geoOf e.words).elems, Map.get 0 acc q = Map.get 0 e.base q) →
    ∀ q, Map.get 0 acc' q = if q ∈ (geoOf e.words).elems then Map.get 0 p q else Map.get 0 acc q

/-- The status words of R134. -/
def statusIs (st : W32) (ovf : Bool) (stream info code : Nat) : Prop :=
  st.getLsbD 31 = true ∧ st.getLsbD 30 = ovf ∧ (if st.getLsbD 29 then 1 else 0) = stream ∧ st.extractLsb' 24 5 = 0 ∧
  (st.extractLsb' 8 16).toNat = info ∧ (st.extractLsb' 0 8).toNat = code

end Sys2Proof.Claims

/-- R106, R107, R131, R288, R289, R290: MFENCE goes on, and no word of scratchpad is any longer one that the engine may see as it was; MMA queues an operation with the next ticket, which it writes to B, waits while four are
queued, and traps MATPARAM for an offset that is 0, not a multiple of 64 or too high; MWAIT waits for its ticket, or for the last one issued before it, which is an acquire, and the first
one to wait for a faulted operation traps and takes the fault away. -/
def Sys2Proof.Claims.MatrixIssue : Prop :=
  ∀ (f : EForm) (s : State) (t : Nat),
    let c := s.cur.core
    let k := s.curCore
    (Runs (.mfence f) { h := f.h, avail := .core } s t → exec (.mfence f) s = .next ((s.moves t id).updCore c (fun k => { k with unfenced := [] }))) ∧
    (let o : OpSpec := { h := f.h, avail := .core, srcs := [{ reg := f.a.toNat, idx := 0 }], dsts := [{ reg := f.b.toNat, idx := 1 }] }
     let off := (o.opnd s t 0).lo
     let tk : W32 := if k.mticket = 0xFFFFFFFF then 1 else k.mticket + 1
     Runs (.mma f) o s t →
      (off = 0 ∨ off.toNat % 64 ≠ 0 ∨ 0x0BFFC0 < off.toNat → Traps (.mma f) s t .matparam (off ++ 16#32)) ∧
      (off ≠ 0 → off.toNat % 64 = 0 → off.toNat ≤ 0x0BFFC0 →
        (k.mq.length < 4 → WithCore (.mma f) s t (Res.one f.b.toNat tk 1) (fun k' => k'.mticket = tk ∧ k'.mq = k.mq ++
          [{ ticket := tk, home := off.toNat / 64, sig := if f.sig then some f.tb.toNat else none,
             wait := if f.wait then some f.wid.toNat else none }])) ∧
        (4 ≤ k.mq.length → exec (.mma f) s = .next ((s.noted [t]).updThread c t (fun th => (th.commit s.cur).wait .matQueue))))) ∧
    (let o : OpSpec := { h := f.h, avail := .core, srcs := [{ reg := f.a.toNat, idx := 0 }] }
     let tk := (o.opnd s t 0).lo
     let upTo : W32 := if tk = 0 ∨ 0 < (tk - k.mticket).toInt then k.mticket else tk
     let due (x : W32) : Prop := (x - upTo).toInt ≤ 0
     Runs (.mwait f) o s t →
      ((∃ e ∈ k.mq, due e.ticket ∧ e.stopped = false) → exec (.mwait f) s = .next ((s.noted [t]).updThread c t (fun th =>
        { (th.commit s.cur).wait (.mwait upTo) with kept := some [[(upTo, (o.opnd s t 0).tag)]] }))) ∧
      ((∀ e ∈ k.mq, due e.ticket → e.stopped = true) →
        ((∀ x ∈ k.mfaults, ¬due x.1) →
          exec (.mwait f) s = .next (s.moves t (fun th => if k.aside t then th else th.acquired k.seq))) ∧
        (∀ x xs, k.mfaults = x :: xs → due x.1 → x ∉ xs → x.2.extractLsb' 0 8 = 0x17#8 → (s.curThread t).sub = none → Leaves (.mwait f) s (fun s' =>
          ((s'.core c).thread t).tcause = 0x17 ∧ ((s'.core c).thread t).tval = (x.2.extractLsb' 8 16).setWidth 64 ∧ (s'.core c).mfaults = xs))))

/-- R134, R144, R292: MPROG.prog, MPROG.copy and MPROG.last read an entry, its words and the last ticket; MSTOP stops the head with code 0xF0 and
writes its elements; MRESUME lets it go on with the elements as they stand, MRESUME.load appends an image that has not ended, MRESUME.tick sets the counter. -/
def Sys2Proof.Claims.MatrixSaveAndResume : Prop :=
  ∀ (f : EForm) (s : State) (t : Nat),
    let k := s.curCore
    let o : OpSpec := { h := f.h, avail := .sl }
    let entry := k.mq[f.x.toNat % 4]?
    (Runs (.mprogProg f) { h := f.h, avail := .sl, dsts := [{ dstD f.a 2 with idx := 0 }, { reg := f.c.toNat, idx := 2 }] } s t →
      ∃ (v : W64) (tk : W32), exec (.mprogProg f) s = .next (s.gives t { regs := (Res.pair f.a.toNat v 2).regs ++ [(f.c.toNat, tk, 2)] }) ∧
        (entry = none → v = 0 ∧ tk = 0) ∧
        (∀ e, entry = some e → tk = e.ticket ∧ v.extractLsb' 32 32 = e.status ∧ (v.extractLsb' 0 13).toNat = e.kdone % 2 ^ 13 ∧
          (v.extractLsb' 13 14).toNat = e.home % 2 ^ 14 ∧ (e.sig = none → v.extractLsb' 27 5 = 0) ∧
          (∀ b, b < 16 → e.sig = some b → v.getLsbD 31 = true ∧ (v.extractLsb' 27 4).toNat = b))) ∧
    (let o : OpSpec := { h := f.h, avail := .sl, srcs := [{ reg := f.b.toNat, idx := 1 }], dsts := [{ reg := f.c.toNat, idx := 2 }] }
     let off := (o.opnd s t 0).lo.toNat
     Runs (.mprogCopy f) o s t → off % 64 = 0 → off + 64 ≤ 0xC0000 → ∀ e, entry = some e → e.words.length = 16 → e.wait = none →
      WithCore (.mprogCopy f) s t (Res.one f.c.toNat e.ticket 2) (fun k' => wordsAt k'.scratch off (e.words.take 12) ∧
        wordAt k'.scratch (off + 48) = e.words.getD 12 0 &&& 0xE0FFFFFF ∧ wordAt k'.scratch (off + 52) = e.words.getD 13 0 ∧
        ((wordAt k'.scratch (off + 56)).extractLsb' 0 13).toNat = e.kdone % 2 ^ 13 ∧ wordAt k'.scratch (off + 60) = e.status)) ∧
    (Runs (.mprogLast f) { h := f.h, avail := .sl, dsts := [{ reg := f.c.toNat, idx := 2 }] } s t →
      exec (.mprogLast f) s = .next (s.gives t (Res.one f.c.toNat k.mticket 2))) ∧
    (Runs (.mstop f) o s t →
      (k.mq = [] → WithCore (.mstop f) s t {} (fun k' => k'.mstop = true ∧ k'.mq = [])) ∧
      (∀ e rest, k.mq = e :: rest → e.stopped = false → WithCore (.mstop f) s t {} (fun k' => k'.mstop = true ∧ ∃ e', k'.mq = e' :: rest ∧
        e'.stopped = true ∧ e'.ticket = e.ticket ∧ e'.kdone = e.kdone ∧ statusIs e'.status e.ovf 0 0 0xF0 ∧ k'.tbs = k.tbs ∧
        (e.words ≠ [] → Written e k.acc k'.acc)))) ∧
    (Runs (.mresume f) o s t →
      (k.mq = [] → WithCore (.mresume f) s t {} (fun k' => k'.mstop = false ∧ k'.mq = [])) ∧
      (∀ e rest, k.mq = e :: rest → e.stopped = true → e.started = false → WithCore (.mresume f) s t {} (fun k' => k'.mstop = false ∧
        k'.mq = { e with stopped := false, status := 0 } :: rest)) ∧
      (∀ e rest, k.mq = e :: rest → e.stopped = true → e.started = true → e.fault = none → WithCore (.mresume f) s t {} (fun k' => k'.mstop = false ∧
        ∃ e' p, k'.mq = e' :: rest ∧ e'.stopped = false ∧ e'.status = 0 ∧ e'.kdone = e.kdone ∧ e'.words = e.words ∧ e'.part = some p ∧
          ∀ q, (geoOf e.words).holds q = true → Map.get 0 p q = if e.kdone = 0 ∧ (geoOf e.words).accum = false then 0 else Map.get 0 k.acc q))) ∧
    (let o : OpSpec := { h := f.h, avail := .sl, srcs := [{ reg := f.a.toNat, idx := 0 }, { reg := f.b.toNat, idx := 1 }] }
     let off := (o.opnd s t 0).lo.toNat
     let w (i : Nat) : W32 := wordAt k.scratch (off + 4 * i)
     let ended := (w 15).getLsbD 31 = true ∧ ((w 15).extractLsb' 0 8 = 0#8 ∨ (w 15).extractLsb' 0 8 = 0x0D#8 ∨ (w 15).extractLsb' 0 8 = 0x0E#8 ∨
       (w 15).extractLsb' 0 8 = 0x17#8)
     Runs (.mresumeLoad f) o s t →
      (k.mstop = false ∨ 4 ≤ k.mq.length → Traps (.mresumeLoad f) s t .illegal s.cur.word) ∧
      (k.mstop = true → k.mq.length < 4 → off % 64 = 0 → off + 64 ≤ 0xC0000 →
        (ended → exec (.mresumeLoad f) s = .next (s.moves t id)) ∧
        (¬ended → WithCore (.mresumeLoad f) s t {} (fun k' => ∃ e, k'.mq = k.mq ++ [e] ∧ e.words = (List.range 16).map w ∧
          e.ticket = (o.opnd s t 1).lo ∧ e.kdone = ((w 14).extractLsb' 0 13).toNat ∧ e.home = ((w 14).extractLsb' 13 14).toNat ∧
          e.sig = (if (w 14).getLsbD 31 then some ((w 14).extractLsb' 27 4).toNat else none) ∧
          e.wait = (if (w 12).getLsbD 28 then some ((w 12).extractLsb' 24 4).toNat else none) ∧ e.started = false)))) ∧
    (let o : OpSpec := { h := f.h, avail := .sl, srcs := [{ reg := f.b.toNat, idx := 1 }] }
     Runs (.mresumeTick f) o s t → WithCore (.mresumeTick f) s t {} (fun k' => k'.mticket = (o.opnd s t 0).lo ∧ k'.mq = k.mq))

/-- Matrix instructions at issue, and the saving of the queue: R106, R131, R134, R144, R288 to R290, R292. -/
def Obligations.MatrixIssueAndSave : Prop := MatrixIssue ∧ MatrixSaveAndResume

/-- R82, R106, R107, R131 to R141: the head operation starts with the words of its block, each as it stands, or, stored since the last MFENCE, as it was;
a bad word ends it with its field, under bf16 also a word of the scales that is not 0; a K-block folds its exact term into every element, rounded once; an
operation that has folded all writes its elements and ends with code 0, or, where it has overflowed under OVFTRAP, with 0x17 and the lowest row, its status in its
block, its signal sent, the next at the head; its end is a release at core scope. -/
def Sys2Proof.Claims.MatrixOperations : Prop :=
  ∀ (s : State) (c : Nat) (e : MatOp) (rest : List MatOp),
    let k := s.core c
    let g := geoOf e.words
    let el (i j : Nat) : Nat := (g.row0 + i) * 128 + g.col0 + j
    k.mq = e :: rest → e.stopped = false →
    (e.started = false → k.mstop = false → k.mfaults.length < 8 → e.wait = none → e.words = [] → e.image = false →
      Leaves (.matrixOpStart c) s (fun s' => ∃ e' ws, (s'.core c).mq = e' :: rest ∧ e'.started = true ∧ e'.words = ws ∧ e'.ticket = e.ticket ∧
        ws.length = 16 ∧ (∀ i, i < 16 → ws.getD i 0 = wordAt k.scratch (e.home * 64 + 4 * i) ∨ ∃ v, (e.home * 16 + i, v) ∈ k.unfenced ∧ ws.getD i 0 = v) ∧
        (s'.core c).acc = k.acc ∧
        (∀ i, mpbBad ws false = some i → i ≤ 3 ∨ wN ws 3 = 0xFFFFFFFF → ∃ st, e'.fault = some st ∧ statusIs st e.ovf 0 i 0x0E) ∧
        (mpbBad ws false = none → k.unfenced = [] → (∀ r ∈ gatherRows k.scratch (geoOf ws), inLocal r (geoOf ws).la = true) →
          e'.fault = e.fault ∧ e'.rows = gatherRows k.scratch (geoOf ws) ∧ ∃ p, e'.part = some p ∧ ∀ q, (geoOf ws).holds q = true →
            Map.get 0 p q = if e.kdone = 0 ∧ (geoOf ws).accum = false then 0 else Map.get 0 k.acc q))) ∧
    (e.started = true → e.fault = none → e.kdone < g.kb → g.wfx = false → e.rows.length = g.m → g.col0 + g.n ≤ 128 →
      (g.bf = false → (e.kdone + 1) * g.m ≤ wN e.words 10 ∧ (e.kdone + 1) * g.n ≤ wN e.words 11) → k.unfenced = [] → ∀ p, e.part = some p →
      Leaves (.matrixKblock c) s (fun s' => (s'.core c).scratch = k.scratch ∧ (s'.core c).acc = k.acc ∧
        ∃ e' p', (s'.core c).mq = e' :: rest ∧ e'.kdone = e.kdone + 1 ∧ e'.words = e.words ∧ e'.part = some p' ∧
        (∀ i j, i < g.m → j < g.n → Map.get 0 p' (el i j) = (f32.sum 0 [f32.unpack (Map.get 0 p (el i j)),
          if g.bf then bfTerm k.scratch g (e.rows.getD i 0) e.kdone j else bfpTerm k.scratch g (e.rows.getD i 0) e.kdone i j]).1) ∧
        (∀ q, (∀ i j, i < g.m → j < g.n → q ≠ el i j) → Map.get 0 p' q = Map.get 0 p q))) ∧
    (e.started = true → e.fault = none → e.kdone = g.kb → g.bf = true → 0 < e.home → e.home * 64 ≤ 0x0BFFC0 →
      let ends (P : State → Prop) : Prop := Leaves (.matrixOpEnd c) s (fun s' => (s'.core c).mq = rest ∧ Written e k.acc (s'.core c).acc ∧
        (∀ b, e.sig = some b → (s'.core c).tb b = (k.tb b).signal false) ∧ (∀ l, ((s'.core c).line l).st ≠ 2) ∧
        wordAt (s'.core c).scratch (e.home * 64 + 56) = BitVec.ofNat 32 (e.kdone % 2 ^ 13) ∧ P s')
      (e.ovf = false → ends (fun s' => (s'.core c).mfaults = k.mfaults ∧ statusIs (wordAt (s'.core c).scratch (e.home * 64 + 60)) false 0 0 0)) ∧
      (e.ovf = true → g.ovft = true → ∀ r, e.ovfRow = some r → r < 512 → ends (fun s' => ∃ st, (s'.core c).mfaults = k.mfaults ++ [(e.ticket, st)] ∧
        wordAt (s'.core c).scratch (e.home * 64 + 60) = st ∧ statusIs st true 0 r 0x17))) ∧
    (∀ (ws : List W32) (img : Bool) (v : W32), ws.length = 16 → mpbBad ws img = none → (geoOf ws).bf = true → v ≠ 0 →
      mpbBad (ws.set 8 v) img = some 8 ∧ mpbBad (ws.set 9 v) img = some 9 ∧ mpbBad (ws.set 10 v) img = some 10 ∧ mpbBad (ws.set 11 v) img = some 11)

/-- R139, R142: the term of a dense BFP block is the exact sum of its 32 products of mantissas at the sum of the scales, a zero of which is
+0 (the model's choice, log 125), and NaN when either scale is 0xFF. -/
def Sys2Proof.Claims.BfpTermIsExact : Prop :=
  ∀ (sp : Map Byte) (g : Geo) (row b i j : Nat), g.bf = false → g.spm = 0 →
    let ea := (Map.get Config.blank sp (wN g.w 8 + b * g.m + i)).toNat
    let eb := (Map.get Config.blank sp (wN g.w 9 + b * g.n + j)).toNat
    let dot : Int := ((List.range 32).map (fun p => mantAt sp (row + b * 4 * g.wa) (g.wa * p) g.wa *
      mantAt sp (wN g.w 6 + j * wN g.w 7) (g.wb * (b * 32 + p)) g.wb)).foldl (· + ·) 0
    (ea = 255 ∨ eb = 255 → (bfpTerm sp g row b i j).isNaN = true) ∧
    (ea ≠ 255 → eb ≠ 255 → bfpTerm sp g row b i j =
      .fin (decide (dot < 0)) dot.natAbs ((ea : Int) + eb - 254 - ((g.wa : Int) - 2) - ((g.wb : Int) - 2)))

/-- The matrix engine: R131 to R142. -/
def Obligations.MatrixFolds : Prop := MatrixOperations ∧ BfpTermIsExact

/-! ### The coverage engine -/

/-- R105, R146, R148, R161, R163, R293: CVCLR, CVPATH and CVSCAN join the engine's queue, wait while it is full, and check their operands at issue; while
FAULTED is set they trap CVSTREAM and clear it; a path may miss a store by another thread that no acquire has ordered before its issue; CVBOX folds a point into a box. -/
def Sys2Proof.Claims.CoverageIssue : Prop :=
  (∀ (f : EForm) (s : State) (t : Nat),
    let k := s.curCore
    let joins (i : Instr) (op : Nat) (a b : W32) : Prop :=
      (k.cov.queue.length < 4 → WithCore i s t {} (fun k' => ∃ old : Map W32,
        (∀ x ∈ old, op = 0xC1 ∧ ∃ r, Missable k s.cur.core [t] (s.curThread t).acqAt x.1 r ∧ x.2 = r.old) ∧
        k'.cov = { k.cov with queue := k.cov.queue ++
          [{ op := op, fn := f.fn.toNat, opa := a, opb := b, sig := if f.sig then some f.tb.toNat else none,
             wait := if f.wait then some f.wid.toNat else none, old := old }] })) ∧
      (4 ≤ k.cov.queue.length → exec i s = .next ((s.noted [t]).updThread s.cur.core t (fun th => (th.commit s.cur).wait .covQueue)))
    let one : OpSpec := { h := f.h, avail := .core, srcs := [{ reg := f.a.toNat, n := 2, idx := 0 }] }
    let two : OpSpec := { h := f.h, avail := .core, srcs := [{ reg := f.a.toNat, idx := 0 }, { reg := f.b.toNat, idx := 1 }] }
    let x := (one.opnd s t 0).lo
    let y := (one.opnd s t 0).hi
    let a := (two.opnd s t 0).lo
    let b := (two.opnd s t 1).lo
    let tile : Int := 4 * 2 ^ (f.fn.toNat % 4)
    (Runs (.cvclr f) one s t → k.cov.faulted = false →
      (x.toInt % tile = 0 → y.toInt % tile = 0 → joins (.cvclr f) 0xC0 x y) ∧
      (x.toInt % tile ≠ 0 ∨ y.toInt % tile ≠ 0 → Traps (.cvclr f) s t .cvstream 6)) ∧
    (Runs (.cvpath f) two s t → k.cov.faulted = false →
      (a.toNat % 4 = 0 → a.toNat < 0xC0000 → b.toNat ≤ 0xC0000 → joins (.cvpath f) 0xC1 a b) ∧
      (a.toNat % 4 ≠ 0 → Traps (.cvpath f) s t .misalign (a.setWidth 64)) ∧
      (a.toNat % 4 = 0 → 0xC0000 ≤ a.toNat → Traps (.cvpath f) s t .sprange (a.setWidth 64)) ∧
      (a.toNat % 4 = 0 → a.toNat < 0xC0000 → 0xC0000 < b.toNat → Traps (.cvpath f) s t .sprange (b.setWidth 64))) ∧
    (Runs (.cvscan f) two s t →
      (k.cov.faulted = false →
        (a.toNat % 8 = 0 → a.toNat + 8 ≤ 0xC0000 → joins (.cvscan f) 0xC2 a b) ∧
        (a.toNat % 8 ≠ 0 → Traps (.cvscan f) s t .misalign (a.setWidth 64)) ∧
        (a.toNat % 8 = 0 → 0xC0000 < a.toNat + 8 → Traps (.cvscan f) s t .sprange (a.setWidth 64))) ∧
      (k.cov.faulted = true → (s.curThread t).sub = none → Leaves (.cvscan f) s (fun s' => let z := (s'.core s.cur.core).thread t
        z.tcause = 0x16 ∧ z.tval = (k.cov.frec ++ (0#24 ++ k.cov.freason.extractLsb' 0 8) : W64) ∧
        (s'.core s.cur.core).cov = { k.cov with faulted := false })))) ∧
  (∀ (f : WForm) (s : State) (t : Nat),
    let o := specW2 f 2 none 2 none 2
    let sh := 10 + f.fn.toNat / 4 % 4
    let clamp (x : Int) : Int := max (-32768) (min 32767 x)
    let p (v : W32) : Int := clamp (v.sshiftRight sh).toInt
    let b (i : Nat) : Int := ((o.opnd s t 1).x.extractLsb' (16 * i) 16).toInt
    let px := p (o.opnd s t 0).lo
    let py := p (o.opnd s t 0).hi
    Runs (.cvbox f) o s t → exec (.cvbox f) s = .next (s.gives t (Res.pair f.d.toNat
      (BitVec.ofInt 16 (max (b 3) py) ++ BitVec.ofInt 16 (max (b 2) px) ++ BitVec.ofInt 16 (min (b 1) py) ++ BitVec.ofInt 16 (min (b 0) px) : W64) 2)))

/-- R147, R148, R162, R294, R295: CVSTOP holds the engine, and a path between records, but no command that waits at the head, reads STOPPED; CVRESUME lets it go on; CVSAVE writes the
control record, the memory image and the queue at their offsets, CVLOAD reads them back and leaves the engine stopped; that a command loaded while FAULTED is set is skipped is the model's choice
(log 129). -/
def Sys2Proof.Claims.CoverageSaveAndLoad : Prop :=
  ∀ (f : EForm) (s : State) (t : Nat),
    let k := s.curCore
    let v := k.cov
    let none_ : OpSpec := { h := f.h, avail := .sl }
    let o : OpSpec := { h := f.h, avail := .sl, srcs := [{ reg := f.a.toNat, idx := 0 }] }
    let off := (o.opnd s t 0).lo.toNat
    let fits (n align : Nat) : Prop := off % align = 0 ∧ off + n ≤ 0xC0000
    let w (i : Nat) : W32 := wordAt k.scratch (off + 4 * i)
    let idle := v.queue = [] ∨ ∃ m rest, v.queue = m :: rest ∧ m.started = false
    let stopped := v.stopped && v.queue.isEmpty
    (Runs (.cvstop f) none_ s t →
      (idle → WithCore (.cvstop f) s t {} (fun k' => k'.cov = { v with halt := true, stopped := stopped })) ∧
      (∀ m rest, v.queue = m :: rest → m.started = true → WithCore (.cvstop f) s t {} (fun k' =>
        k'.cov = { v with halt := true, stopped := true, status := 0xF0 }))) ∧
    (Runs (.cvresume f) none_ s t → WithCore (.cvresume f) s t {} (fun k' => k'.cov = { v with halt := false, stopped := false })) ∧
    (Runs (.cvsaveCtl f) o s t → fits 128 64 → idle → WithCore (.cvsaveCtl f) s t {} (fun k' => k'.cov = { v with halt := true, stopped := stopped } ∧
      (let ctl := wordAt k'.scratch (off + 8)
       wordAt k'.scratch off = v.ox ∧ wordAt k'.scratch (off + 4) = v.oy ∧ ctl.extractLsb' 8 8 = v.status ∧ ctl.getLsbD 7 = v.faulted ∧
       ctl.getLsbD 6 = stopped ∧ ctl.extractLsb' 3 3 = v.depth ∧ ctl.getLsbD 2 = false ∧ ctl.extractLsb' 0 2 = v.size ∧ ctl.extractLsb' 16 16 = 0 ∧
       wordsAt k'.scratch (off + 12) [v.recidx, v.stream, v.next, v.limit, v.curx, v.cury, v.subx, v.suby,
         (if v.havept then 2 else 0) + (if v.openSub then 1 else 0), v.frec, v.freason] ∧ wordsAt k'.scratch (off + 56) (List.replicate 18 0)))) ∧
    (Runs (.cvloadCtl f) o s t → fits 128 64 → v.queue = [] → WithCore (.cvloadCtl f) s t {} (fun k' => k'.scratch = k.scratch ∧
      k'.cov = { v with ox := w 0, oy := w 1, status := (w 2).extractLsb' 8 8, faulted := (w 2).getLsbD 7, stopped := (w 2).getLsbD 6,
                        depth := (w 2).extractLsb' 3 3, size := (w 2).extractLsb' 0 2, recidx := w 3, stream := w 4, next := w 5, limit := w 6,
                        curx := w 7, cury := w 8, subx := w 9, suby := w 10, havept := (w 11).getLsbD 1, openSub := (w 11).getLsbD 0,
                        frec := w 12, freason := w 13, halt := true })) ∧
    (let kept (i : Nat) : Prop := i < 0x820 ∨ 0xC00 ≤ i ∧ i < 0x2800
     (Runs (.cvsaveImg f) o s t → fits 0xC000 256 → WithCore (.cvsaveImg f) s t {} (fun k' => k'.cov.halt = true ∧ ∀ i, i < 0x3000 →
      (kept i → wordAt k'.scratch (off + 4 * i) = Map.get 0 v.cmem i) ∧ (¬kept i → wordAt k'.scratch (off + 4 * i) = 0))) ∧
     (Runs (.cvloadImg f) o s t → fits 0xC000 256 → WithCore (.cvloadImg f) s t {} (fun k' => k'.cov.halt = true ∧ k'.scratch = k.scratch ∧
      ∀ i, Map.get 0 k'.cov.cmem i = if (i < 0x820 ∨ 0xC00 ≤ i ∧ i < 0x2800) then w i else 0))) ∧
    (Runs (.cvsaveQ f) o s t → fits 64 64 → v.queue.length ≤ 4 → WithCore (.cvsaveQ f) s t {} (fun k' => ∀ i, i < 4 →
      (∀ m, v.queue[i]? = some m → m.op < 256 → m.fn < 32 → m.sig.all (· < 16) = true → m.wait.all (· < 16) = true →
        (let x := wordAt k'.scratch (off + 16 * i)
         (x.extractLsb' 0 8).toNat = m.op ∧ (x.extractLsb' 8 8).toNat = m.fn ∧ x.getLsbD 16 = true ∧ x.getLsbD 17 = m.sig.isSome ∧
         x.getLsbD 18 = m.wait.isSome ∧ (x.extractLsb' 24 4).toNat = m.sig.getD 0 ∧ (x.extractLsb' 28 4).toNat = m.wait.getD 0) ∧
        wordsAt k'.scratch (off + 16 * i + 4) [m.opa, m.opb, 0]) ∧
      (v.queue[i]? = none → wordsAt k'.scratch (off + 16 * i) [0, 0, 0, 0]))) ∧
    (Runs (.cvloadQ f) o s t → fits 64 64 → v.stopped = false → idle → WithCore (.cvloadQ f) s t {} (fun k' => k'.cov.halt = true ∧
      ((w 0).extractLsb' 0 8 ≠ 0#8 → (w 0).getLsbD 16 = true → (∀ i, 1 ≤ i → i < 4 → (w (4 * i)).extractLsb' 0 8 = 0#8) →
        k'.cov.queue = [{ op := ((w 0).extractLsb' 0 8).toNat, fn := ((w 0).extractLsb' 8 5).toNat, opa := w 1, opb := w 2,
                          sig := if (w 0).getLsbD 17 then some ((w 0).extractLsb' 24 4).toNat else none,
                          wait := if (w 0).getLsbD 18 then some ((w 0).extractLsb' 28 4).toNat else none, skip := v.faulted }])))

/-- Coverage instructions at issue, and the saving of the engine: R146 to R148, R161 to R163, R293 to R295. -/
def Obligations.CoverageIssueAndSave : Prop := CoverageIssue ∧ CoverageSaveAndLoad

/-- R105, R148 to R150, R156, R157, R160, R161: a CVCLR zeroes the cells and the backdrop; a line record moves the current point and deposits its pieces; a piece adds
its dy and dy × (x0 + x1 - 512 px) to its cell, or dy to the backdrop left of the tile; a bad record faults the path and skips what is queued. A word
of a record that a thread has stored since the command's issue is as it was or as it is. -/
def Sys2Proof.Claims.CoveragePaths : Prop :=
  (∀ (s : State) (c : Nat) (m : CovCmd) (rest : List CovCmd),
    let k := s.core c
    let v := k.cov
    let free := v.halt = false ∧ m.wait = none ∧ m.skip = false
    let at_ (i : Nat) : W32 := wordAt (mixOld k.scratch m.old s.fresh) (v.next.toNat + 4 * i)
    v.queue = m :: rest →
    (m.op = 0xC0 → m.started = false → free → Leaves (.covCommandStart c) s (fun s' => let v' := (s'.core c).cov
      v'.ox = m.opa ∧ v'.oy = m.opb ∧ v'.size = BitVec.ofNat 2 m.fn ∧ v'.faulted = false ∧ v'.havept = false ∧ v'.status = 0 ∧ v'.queue = rest ∧
      (∀ i, i < 0x820 → Map.get 0 v'.cmem i = 0) ∧ (∀ i, 0x820 ≤ i → Map.get 0 v'.cmem i = Map.get 0 v.cmem i) ∧
      v'.depth = (if m.fn / 4 % 2 = 1 then 0 else v.depth) ∧ ∀ b, m.sig = some b → (s'.core c).tb b = (k.tb b).signal false)) ∧
    (m.op = 0xC1 → m.started = false → free → Leaves (.covCommandStart c) s (fun s' => let v' := (s'.core c).cov
      v'.stream = m.opa ∧ v'.next = m.opa ∧ v'.limit = m.opb ∧ v'.recidx = 0 ∧ ∃ m', v'.queue = m' :: rest ∧ m'.started = true)) ∧
    (m.started = false → v.halt = false → m.wait = none → m.skip = true → m.op = 0xC1 → Leaves (.covCommandStart c) s (fun s' =>
      (s'.core c).cov.status = 4 ∧ (s'.core c).cov.queue = rest ∧ (s'.core c).cov.cmem = v.cmem)) ∧
    (m.op = 0xC1 → m.started = true → v.halt = false → v.next.toNat + 12 ≤ v.limit.toNat → v.next.toNat + 12 < 2 ^ 32 → at_ 0 = 2 →
      v.havept = true → -(2 ^ 23) ≤ (at_ 1).toInt → (at_ 1).toInt < 2 ^ 23 → -(2 ^ 23) ≤ (at_ 2).toInt → (at_ 2).toInt < 2 ^ 23 →
      Leaves (.covPathRecord c) s (fun s' => let v' := (s'.core c).cov
        v'.curx = at_ 1 ∧ v'.cury = at_ 2 ∧ v'.next = v.next + 12 ∧ v'.recidx = v.recidx + 1 ∧ v'.queue = m :: rest ∧
        v'.cmem = ((linePieces ⟨v.curx.toInt, v.cury.toInt⟩ ⟨(at_ 1).toInt, (at_ 2).toInt⟩).foldl Cov.deposit v).cmem)) ∧
    (m.op = 0xC1 → m.started = true → v.halt = false → (v.limit.toNat < v.next.toNat + 4 ∨ (v.next.toNat + 4 ≤ v.limit.toNat ∧ 512 ≤ (at_ 0).toNat)) →
      Leaves (.covPathRecord c) s (fun s' => let v' := (s'.core c).cov
        v'.faulted = true ∧ v'.frec = v.recidx ∧ v'.freason = (if v.limit.toNat < v.next.toNat + 4 then 4 else 1) ∧ v'.status = 5 ∧
        v'.cmem = v.cmem ∧ v'.queue = rest.map (fun q => { q with skip := true }) ∧ ∀ b, m.sig = some b → (s'.core c).tb b = (k.tb b).signal false))) ∧
  (∀ (v : Cov) (a b : Pt),
    let px := min a.x b.x / 256
    let cx := px - v.ox.toInt
    let cy := min a.y b.y / 256 - v.oy.toInt
    let tile : Int := 4 * 2 ^ v.size.toNat
    let v' := v.deposit (a, b)
    let cell (u : Cov) (x y : Int) (i : Nat) : W32 := Map.get 0 u.cmem ((y.toNat * 32 + x.toNat) * 2 + i)
    (0 ≤ cy → cy < tile → 0 ≤ cx → cx < tile →
      cell v' cx cy 0 = cell v cx cy 0 + BitVec.ofInt 32 (b.y - a.y) ∧
      cell v' cx cy 1 = cell v cx cy 1 + BitVec.ofInt 32 ((b.y - a.y) * (a.x + b.x - 512 * px)) ∧
      ∀ i, i / 2 ≠ cy.toNat * 32 + cx.toNat → Map.get 0 v'.cmem i = Map.get 0 v.cmem i) ∧
    (0 ≤ cy → cy < tile → cx < 0 → Map.get 0 v'.cmem (0x800 + cy.toNat) = Map.get 0 v.cmem (0x800 + cy.toNat) + BitVec.ofInt 32 (b.y - a.y) ∧
      ∀ i, i ≠ 0x800 + cy.toNat → Map.get 0 v'.cmem i = Map.get 0 v.cmem i) ∧
    (cy < 0 ∨ tile ≤ cy ∨ tile ≤ cx → v' = v))

/-- R157 to R160: the coverage of a pixel is the rule applied to 512 × (backdrop + cover up to it) - area, and its product with the top clip level,
rounded; PUSH keeps it as a new level, POP drops one, COUNT writes how many are not 0. A word that was written before the others is not written again (R97, R108). -/
def Sys2Proof.Claims.CoverageScan : Prop :=
  (∀ (v : Cov) (eo : Bool) (cx cy : Nat), cx < v.tile → cy < v.tile →
    let cell (x i : Nat) : W32 := Map.get 0 v.cmem ((cy * 32 + x) * 2 + i)
    let S : W32 := 512 * (((List.range (cx + 1)).map (fun x => cell x 0)).foldl (· + ·) (Map.get 0 v.cmem (0x800 + cy))) - cell cx 1
    let m := S.toInt.natAbs
    let c := if eo then (if m % 262144 ≤ 131072 then m % 262144 else 262144 - m % 262144) else min m 131072
    let clip := if v.depth = 0 then 131072 else (Map.get 0 v.cmem (0xC00 + (v.depth.toNat - 1) * 0x400 + cy * 32 + cx)).toNat
    ((v.grid eo).getD cy []).getD cx 0 = (c * clip + 65536) / 131072) ∧
  (∀ (s : State) (c : Nat) (m : CovCmd) (rest : List CovCmd),
    let k := s.core c
    let v := k.cov
    let off := m.opa.toNat
    let g := v.grid (m.fn / 4 % 2 == 1)
    let ends (P : Core → Prop) (count st : Nat) : Prop := Leaves (.covCommandStart c) s (fun s' => let k' := s'.core c
      k'.cov.queue = rest ∧ k'.cov.status = BitVec.ofNat 8 st ∧ P k' ∧
        (0 ∉ m.early → wordAt k'.scratch off = BitVec.ofNat 32 count) ∧ (1 ∉ m.early → wordAt k'.scratch (off + 4) = BitVec.ofNat 32 st) ∧
        ∀ b, m.sig = some b → k'.tb b = (k.tb b).signal false)
    v.queue = m :: rest → m.op = 0xC2 → m.started = false → v.halt = false → m.wait = none → m.skip = false → off % 8 = 0 → off + 8 ≤ 0xC0000 →
    (m.fn % 4 = 0 → (∀ r ∈ g, ∀ x ∈ r, x = 0) → ends (fun k' => k'.cov.cmem = v.cmem) 0 0) ∧
    (m.fn % 4 = 1 → v.depth = 7 → ends (fun k' => k'.cov.cmem = v.cmem ∧ k'.cov.depth = 7) 0 2) ∧
    (m.fn % 4 = 1 → v.depth ≠ 7 → ends (fun k' => k'.cov.depth = v.depth + 1 ∧ ∀ cx cy, cx < v.tile → cy < v.tile →
      Map.get 0 k'.cov.cmem (0xC00 + v.depth.toNat * 0x400 + cy * 32 + cx) = BitVec.ofNat 32 ((g.getD cy []).getD cx 0)) 0 0) ∧
    (m.fn % 4 = 2 → v.depth = 0 → ends (fun k' => k'.cov.depth = 0) 0 3) ∧
    (m.fn % 4 = 2 → v.depth ≠ 0 → ends (fun k' => k'.cov.depth = v.depth - 1 ∧ k'.cov.cmem = v.cmem) 0 0) ∧
    (m.fn % 4 = 3 → ends (fun k' => k'.cov.cmem = v.cmem) ((g.map (fun r => (r.filter (fun x => x != 0)).length)).foldl (· + ·) 0) 0))

/-- The coverage engine: R148 to R150, R156 to R161. -/
def Obligations.CoverageRasterizes : Prop := CoveragePaths ∧ CoverageScan

/-! ### System registers and control cores -/

namespace Sys2Proof.Claims

/-- The registers that a thread of a physical core, which is no subordinate, reads at KL and SL: number, whether 64 bits wide, value
(R43, R44, R340, R356). -/
def sysTable (s : State) (c t : Nat) : List (Nat × Bool × W64) :=
  let k := s.core c
  let th := k.thread t
  let i := k.inst.getD {}
  let n (x : Nat) : W64 := BitVec.ofNat 64 x
  let w (x : W32) : W64 := x.setWidth 64
  let ms := match th.grp with | some g => (k.group g).members | none => []
  [(0x000, false, n t), (0x001, false, n (t % 64)), (0x002, false, n (t / 64 % 4)), (0x003, false, n (t / 256)), (0x004, false, w i.lcore),
   (0x005, false, w i.ncore), (0x006, false, match th.grp with | some g => n g | none => 0xFFFFFFFF),
   (0x007, false, match th.grp with | some _ => n (rankIn ms t) | none => 0xFFFFFFFF), (0x008, false, n ms.length), (0x009, false, n k.segW),
   (0x00A, true, th.lk), (0x00B, false, (k.phrase (t / 64)).xlev.setWidth 64), (0x00C, true, n k.clock), (0x00D, true, n s.ptime),
   (0x00E, false, th.fpf.setWidth 64), (0x00F, false, th.status.setWidth 64), (0x010, false, w th.rgrant), (0x011, false, w th.rcause),
   (0x012, true, i.launch), (0x013, true, i.param), (0x014, false, w i.var), (0x100, false, w k.tvec), (0x101, false, w th.tcause),
   (0x102, true, th.tpc), (0x103, true, th.tval), (0x104, false, w th.tlev), (0x105, true, th.save), (0x106, false, 3),
   (0x108, true, th.tcval), (0x109, true, th.sscr0), (0x10A, true, th.sscr1), (0x10B, true, th.sscr2), (0x110, true, th.hold0),
   (0x111, true, th.hold1), (0x112, true, th.hold2), (0x113, true, th.hold3), (0x150, false, n c), (0x151, false, n (c / 52)),
   (0x153, false, w k.sphase)]

/-- What MTS makes of a thread for the registers that it writes as they are (R301, R56, R57, R340, R356). -/
def sysWrites : List (Nat × Bool × (Opnd → Thread → Thread)) :=
  [(0x00A, true, fun v th => { th with lk := v.x }), (0x00E, false, fun v th => { th with fpf := v.lo.setWidth 4 }),
   (0x00F, false, fun v th => { th with status := v.lo.setWidth 2 }), (0x101, false, fun v th => { th with tcause := v.lo }),
   (0x102, true, fun v th => { th with tpc := v.x }), (0x103, true, fun v th => { th with tval := v.x }),
   (0x104, false, fun v th => { th with tlev := v.lo }), (0x105, true, fun v th => { th with save := v.x }),
   (0x108, true, fun v th => { th with tcval := v.x }), (0x109, true, fun v th => { th with sscr0 := v.x, sscr0t := (v.tag, v.tagHi) }),
   (0x10A, true, fun v th => { th with sscr1 := v.x, sscr1t := (v.tag, v.tagHi) }),
   (0x10B, true, fun v th => { th with sscr2 := v.x, sscr2t := (v.tag, v.tagHi) }),
   (0x110, true, fun v th => { th with hold0 := v.x, heldFor := 0 }), (0x111, true, fun v th => { th with hold1 := v.x }),
   (0x112, true, fun v th => { th with hold2 := v.x }), (0x113, true, fun v th => { th with hold3 := v.x })]

/-- The operands of MFS and of MTS (R301): an x-pair for a register of 64 bits. -/
def readSpec (f : SForm) (av : Avail) (wide : Bool) : OpSpec := { h := f.h, avail := av, dsts := [dstD f.d (if wide then 2 else 1)] }
def writeSpec (f : SForm) (av : Avail) (wide : Bool) : OpSpec :=
  { h := f.h, avail := av, srcs := [{ reg := f.a.toNat, n := if wide then 2 else 1, idx := 0 }] }

/-- The level of a register number (R42). -/
def levelOf (n : Nat) : Avail := if n < 0x100 then .all else if n < 0x200 then .sl else .cl

/-- The thread has completed, and its core is `f` of what it was. -/
def CoreBecomes (i : Instr) (s : State) (t : Nat) (f : Core → Core) : Prop :=
  exec i s = .next ((s.gives t {}).updCore s.cur.core f)

/-- The core is `x`, but that `t` has issued and stands at its next instruction, with results `r`; the rest of the machine is as it was. -/
def CoreGives (i : Instr) (s : State) (t : Nat) (r : Res) (x : Core → Prop) : Prop :=
  Leaves i s (fun s' => { s' with cores := [] } = { s with cores := [] } ∧ (∀ d, d ≠ s.cur.core → s'.core d = s.core d) ∧
    tookResult ((s'.core s.cur.core).thread t) ((s.curThread t).commit s.cur) r ∧ x (s'.core s.cur.core))

/-- No release of the core has anything to wait for. -/
def NothingDue (k : Core) (t : Nat) : Prop := (k.thread t).relSet = none ∧ k.lines = [] ∧ k.mops = [] ∧ k.cmds = []

end Sys2Proof.Claims

/-- R42 to R44, R340, R356, R359, R379: what MFS reads; a read of %sphase that an MTS has written is an acquire. A register of 64 bits goes to an x-pair, low word first; the tag is b32 but for the scratch
registers, which give back the tags that MTS kept; on a control core, lane, slot, context and rank read 0, W and the group size 1. -/
def Sys2Proof.Claims.SystemRegisterReads : Prop :=
  ∀ (f : SForm) (s : State) (t : Nat),
    let c := s.cur.core
    let th := s.curThread t
    let n := f.sys.toNat
    let d := f.d.toNat
    let r (wide : Bool) (v : W64) (ta tb : Tag) : Res := if wide then (if d = 0 then {} else
      { regs := [(d, v.setWidth 32, ta), (d + 1, v.extractLsb' 32 32 , tb)] }) else { regs := [(d, v.setWidth 32, 2)] }
    let bit (b : Bool) : BitVec 1 := if b then 1 else 0
    let ctx : W32 := 0#1 ++ bit (th.arrN && th.arrC) ++ bit th.arrC ++ bit th.arr0 ++ bit (th.wrec.any (·.gen)) ++ bit th.wrec.isSome ++
      bit th.grp.isSome ++ bit (th.st == .live) ++ BitVec.ofNat 8 (th.grp.getD 0) ++ BitVec.ofNat 4 (th.wrec.elim 0 (·.bar)) ++ 0#2 ++
      (s.curCore.phrase (t / 64)).xlev ++ (th.p ||| 1)
    let reads (wide : Bool) (v : W64) (ta tb : Tag) : Prop :=
      Runs (.mfs f) (readSpec f (levelOf n) wide) s t → exec (.mfs f) s = .next (s.gives t (r wide v ta tb))
    (c < 208 → th.sub = none → ∀ e ∈ sysTable s c t, n = e.1 →
      (n ≠ 0x109 → n ≠ 0x10A → n ≠ 0x10B → n ≠ 0x153 → reads e.2.1 e.2.2 2 2) ∧
      (n = 0x153 → Runs (.mfs f) (readSpec f .sl false) s t → exec (.mfs f) s = .next (s.moves t (fun x =>
        (if s.curCore.aside t || !s.curCore.sphaseSet then x else x.acquired s.curCore.seq).apply (r false (s.curCore.sphase.setWidth 64) 2 2)))) ∧ (n = 0x109 → reads true th.sscr0 th.sscr0t.1 th.sscr0t.2) ∧
      (n = 0x10A → reads true th.sscr1 th.sscr1t.1 th.sscr1t.2) ∧ (n = 0x10B → reads true th.sscr2 th.sscr2t.1 th.sscr2t.2)) ∧
    (c < 208 → th.sub = none → n = 0x107 → reads false (ctx.setWidth 64) 2 2) ∧
    (c < 208 → th.sub = none → 0x120 ≤ n → n ≤ 0x12F → (∀ g, th.grp = some g → reads false ((s.curCore.bcnt g (n - 0x120)).setWidth 64) 2 2) ∧
      (th.grp = none → Runs (.mfs f) (readSpec f .sl false) s t →
        Traps (.mfs f) s t .barcount (BitVec.ofNat 64 (2 ^ 63 + (n - 0x120) * 256 + 1)))) ∧
    (208 ≤ c → s.curCore.inst = none → (n = 1 ∨ n = 2 ∨ n = 3 ∨ n = 7 → reads false 0 2 2) ∧ (n = 8 ∨ n = 9 → reads false 1 2 2) ∧
      (n = 0x203 → reads false (s.curCore.evt.setWidth 64) 2 2) ∧ (n = 0x204 → reads false (s.curCore.tickIv.setWidth 64) 2 2) ∧
      (n = 0x200 → reads false ((s.slot f.imm.toNat).prio.setWidth 64) 2 2))

/-- R301, R302, R44, R46, R56, R57, R82, R260, R340, R342, R356, R359, R379: what MTS writes; a write of %sphase is a release at core scope, and follows the thread's global atomics (R94); %tvec drops bits [2:0], %evt is cleared by ones, %tick starts a
new interval of 1,000 ns units, %qprio belongs to the slot that IMM names, and %sctl begins the operation that its number names. -/
def Sys2Proof.Claims.SystemRegisterWrites : Prop :=
  ∀ (f : SForm) (s : State) (t : Nat),
    let c := s.cur.core
    let n := f.sys.toNat
    let o (wide : Bool) := writeSpec f (levelOf n) wide
    let v := ((o false).opnd s t 0).lo
    s.curCore.live t = true →
    (∀ e ∈ sysWrites, n = e.1 → Runs (.mts f) (o e.2.1) s t →
      exec (.mts f) s = .next ((s.gives t {}).updThread c t (e.2.2 ((o e.2.1).opnd s t 0)))) ∧
    (n = 0x100 → Runs (.mts f) (o false) s t → CoreBecomes (.mts f) s t (fun k => { k with tvec := v.extractLsb' 3 29 ++ (0#3) })) ∧
    (n = 0x204 → Runs (.mts f) (o false) s t → CoreBecomes (.mts f) s t (fun k =>
      { k with tickIv := v.setWidth 24, tickLeft := v.toNat % 2 ^ 24 * 1000 })) ∧
    (n = 0x200 → Runs (.mts f) (o false) s t →
      exec (.mts f) s = .next ((s.gives t {}).updSlot f.imm.toNat (fun q => { q with prio := v.setWidth 3 }))) ∧
    (n = 0x152 → Runs (.mts f) (o false) s t →
      (v.toNat % 8 = 1 → exec (.mts f) s = exec (.dump c) (s.gives t {})) ∧ (v.toNat % 8 = 2 → exec (.mts f) s = exec (.dumpd c) (s.gives t {})) ∧
      (v.toNat % 8 = 3 → exec (.mts f) s = exec (.load c) (s.gives t {})) ∧ (v.toNat % 8 = 4 → exec (.mts f) s = exec (.run c) (s.gives t {})) ∧
      (v.toNat % 8 = 5 → exec (.mts f) s = exec (.free c) (s.gives t {})) ∧
      (v.toNat % 8 = 0 ∨ 6 ≤ v.toNat % 8 → exec (.mts f) s = .next (s.gives t {}))) ∧
    (Runs (.evtWrite f) (o false) s t → CoreBecomes (.evtWrite f) s t (fun k => { k with evt := k.evt &&& ~~~(v.setWidth 6) })) ∧
    (Runs (.tctxWrite f) (o false) s t → s.curCore.restore = false → CoreBecomes (.tctxWrite f) s t (fun k =>
      k.updThread t (fun th => { th with p := v.setWidth 8 ||| 1 }))) ∧
    (Runs (.sphaseWrite f) (o false) s t → (s.curCore.ownAtoms t = [] → CoreBecomes (.sphaseWrite f) s t (fun k =>
      { (if s.curCore.aside t then k else k.relMark) with sphase := v, sphaseSet := true })) ∧
      (s.curCore.ownAtoms t ≠ [] → (s.curThread t).relSet = none → Leaves (.sphaseWrite f) s (fun s' =>
        ((s'.core c).thread t).block = some .release ∧ (s'.core c).sphase = s.curCore.sphase))) ∧
    (Runs (.bcntWrite f) (o false) s t → (s.curThread t).sub = none →
      ((s.curThread t).grp = none → Traps (.bcntWrite f) s t .barcount (BitVec.ofNat 64 (2 ^ 63 + (n - 0x120) * 256 + 1))) ∧
      (∀ g, (s.curThread t).grp = some g → (n = 0x120 → exec (.bcntWrite f) s = .next (s.gives t {})) ∧
        (0x120 < n → CoreGives (.bcntWrite f) s t {} (fun k' =>
          (∀ u, u ≠ t → (∀ x, (s.curCore.thread u).wrec = some x → ¬(x.grp = g ∧ x.bar = n - 0x120)) → k'.thread u = s.curCore.thread u) ∧
          ∀ h b, 1 ≤ b → k'.bcnt h b = if h = g ∧ b = n - 0x120 then
            (if 0 < (v.extractLsb' 16 15).toNat ∧ (v.extractLsb' 16 15).toNat ≤ (v.extractLsb' 0 16).toNat then
              (v ^^^ 0x80000000#32) &&& 0xFFFF0000#32 else v) else s.curCore.bcnt h b))))

/-- System registers: R42 to R44, R46, R56, R57, R301, R302, R340, R356, R379. -/
def Obligations.SystemRegisters : Prop := SystemRegisterReads ∧ SystemRegisterWrites

/-- R304, R305, R306, R308: WFI waits for an event of its mask and clears none; KPEND takes the next pending kick of the core's own functions
after the last one it returned, else the first; IPI reaches a control core, a physical core or every core of a slot; IFLUSH drops lines. -/
def Sys2Proof.Claims.WaitsKicksAndSignals : Prop :=
  ∀ (f : SForm) (s : State) (t : Nat),
    let c := s.cur.core
    let k := s.curCore
    let o : OpSpec := { h := f.h, avail := .cl, dsts := [dstD f.d 1] }
    let oA : OpSpec := { o with srcs := [{ reg := f.a.toNat, idx := 0 }] }
    let took (s' : State) (v : W32) : Prop := tookResult ((s'.core c).thread t) ((s.curThread t).commit s.cur) (Res.one f.d.toNat v 1)
    let mask : BitVec 6 := f.imm.setWidth 6
    let own (b : Nat) : Prop := b ∈ s.pendBits ∧ s.funcCc (b / 64) = some (c - 208)
    let past (b : Nat) : Prop := match k.kpendAt with | some l => l < b | none => True
    let a := (oA.opnd s t 0).lo.toNat
    let from_ : W64 := BitVec.ofNat 64 (c - 208)
    (208 ≤ c → k.live t = true →
      (Runs (.wfi f) o s t →
        (k.evt &&& mask ≠ 0 → CoreGives (.wfi f) s t (Res.one f.d.toNat ((k.evt &&& mask).setWidth 32) 1) (fun k' => k'.evt = k.evt)) ∧
        (k.evt &&& mask = 0 → Leaves (.wfi f) s (fun s' => onlyThreads s s' c [t] ∧ ((s'.core c).thread t).pc = s.cur.pc ∧
          (∀ y : State, ((y.core c).thread t) = ((s'.core c).thread t) → (y.core c).evt &&& mask = 0 → y.ready c t = false)))) ∧
      (Runs (.kpend f) o s t → s.pendBits.Pairwise (· < ·) →
        ((∀ b, ¬own b) → CoreGives (.kpend f) s t (Res.one f.d.toNat 0xFFFFFFFF 1) (fun k' => k'.kpendAt = k.kpendAt)) ∧
        (∀ b, own b → ((past b ∧ ∀ x, own x → past x → b ≤ x) ∨ ((∀ x, own x → ¬past x) ∧ ∀ x, own x → b ≤ x)) →
          Leaves (.kpend f) s (fun s' => took s' (BitVec.ofNat 32 b) ∧ s'.pendBits = s.pendBits.filter (· != b) ∧
            (s'.core c).kpendAt = some b))) ∧
      (Runs (.ipi f) oA s t → NothingDue k t →
        (a < 8 → Leaves (.ipi f) s (fun s' => took s' 0 ∧ (s'.core (208 + a)).evt = (s.core (208 + a)).evt ||| 16 ∧
          ∀ d, d ≠ 208 + a → (s'.core d).evt = (s.core d).evt)) ∧
        (2 ^ 30 ≤ a → a < 2 ^ 30 + 208 → Leaves (.ipi f) s (fun s' => took s' 0 ∧
          ∀ d, (s'.core d).ipis = (s.core d).ipis ++ if d = a - 2 ^ 30 then [from_] else [])) ∧
        (2 ^ 31 ≤ a → a < 2 ^ 31 + 64 → Leaves (.ipi f) s (fun s' => took s' 0 ∧
          ∀ d, (s'.core d).ipis = (s.core d).ipis ++ if d < 208 ∧ ∃ i, (s.core d).inst = some i ∧ i.slot = a - 2 ^ 31 then [from_] else [])) ∧
        ((8 ≤ a ∧ a < 2 ^ 30) ∨ (2 ^ 30 + 208 ≤ a ∧ a < 2 ^ 31) ∨ 2 ^ 31 + 64 ≤ a → CoreGives (.ipi f) s t (Res.one f.d.toNat 1 1) (fun k' =>
          k'.ipis = k.ipis ∧ k'.evt = k.evt)))) ∧
    (let oX : OpSpec := { h := f.h, avail := .slcl, srcs := [{ reg := f.a.toNat, n := 2, idx := 0 }] }
     let line := (oX.opnd s t 0).x.toNat / 256
     let n := f.imm.toNat
     Runs (.iflush f) oX s t → CoreGives (.iflush f) s t {} (fun k' =>
       (n = 0 → k'.icache = []) ∧
       (n ≠ 0 → ∀ p l, l < 2 ^ 56 → Map.find k'.icache (p * 2 ^ 56 + l) =
         if p = k.fetchPasid ∧ line ≤ l ∧ l < line + n then none else Map.find k.icache (p * 2 ^ 56 + l))))

namespace Sys2Proof.Claims

/-- The queue engines have no page to wait for (R390, R393, R398), and every byte of `n` at a device address has its translation (R385). -/
def Mapped0 (s : State) (va n : Nat) : Prop := s.asked = [] ∧ ∀ a, va ≤ a → a < va + n → (s.lookup 0 a).isSome = true

end Sys2Proof.Claims

/-- R307, R365, R368: the statuses of QBIND and QUNBIND in the order of their conditions; QBIND fills the slot from the QCB, QUNBIND at a packet
boundary unbinds it, and with FN bit 0 and a save area pre-empts the cores of its launch; without them a queue bound with a saved LAUNCH drains that LAUNCH
first; from its issue on, also while its release waits, the queue counts as unbound. -/
def Sys2Proof.Claims.QueueBinding : Prop :=
  ∀ (f : SForm) (s : State) (t : Nat),
    let c := s.cur.core
    let k := s.curCore
    let oB : OpSpec := { h := f.h, avail := .cl, srcs := [{ reg := f.d.toNat, idx := 3 }, { reg := f.a.toNat, n := 2, idx := 0 }],
                         dsts := [dstD f.d 1] }
    let oU : OpSpec := { h := f.h, avail := .cl, srcs := [{ reg := f.d.toNat, idx := 3 }], dsts := [dstD f.d 1] }
    let q := (oU.opnd s t 0).lo.toNat
    let qcb := (oB.opnd s t 1).x
    let b := s.read0 qcb.toNat 256
    let n (off w : Nat) : Nat := leNat ((b.drop off).take w)
    let owned (p : Nat) : Prop := s.slotPart q = some p ∧ s.ccOf (some p) = some (c - 208)
    let sl := s.slot q
    let answers (i : Instr) (v : W32) (P : State → Prop) : Prop := Leaves i s (fun s' =>
      tookResult ((s'.core c).thread t) ((s.curThread t).commit s.cur) (Res.one f.d.toNat v 1) ∧ P s')
    let size (x : Nat) : Prop := 16 ≤ x ∧ x ≤ 2 ^ 20 ∧ ∃ e, x = 2 ^ e
    208 ≤ c →
    (Runs (.qbind f) oB s t →
      (64 ≤ q → answers (.qbind f) 3 (fun s' => s'.slots = s.slots)) ∧
      (q < 64 → (∀ p, ¬owned p) → answers (.qbind f) 4 (fun s' => s'.slots = s.slots)) ∧
      (∀ p, q < 64 → owned p → sl.bound = true ∨ sl.draining = true ∨ sl.preempting = true → answers (.qbind f) 1 (fun s' => s'.slots = s.slots)) ∧
      (∀ p, q < 64 → owned p → sl.bound = false → sl.draining = false → sl.preempting = false →
        (qcb.toNat % 256 ≠ 0 → answers (.qbind f) 2 (fun s' => s'.slots = s.slots)) ∧
        (Mapped0 s qcb.toNat 256 → ¬size (n 8 4) ∨ n 0x2D 1 ≠ p ∨ n 0x3C 4 = 0 ∨ 8 < n 0x2F 1 → answers (.qbind f) 2 (fun s' => s'.slots = s.slots)) ∧
        (Mapped0 s qcb.toNat 256 → qcb.toNat % 256 = 0 → n 0 8 % 64 = 0 → size (n 8 4) → n 0x0C 4 = 0 ∨ n 0x0C 4 = 2 ∨ n 0x0C 4 = 3 → n 0x28 1 ≤ 7 → n 0x2A 2 ≤ 256 →
          n 0x2C 1 ≤ 63 → n 0x2D 1 = p → n 0x2F 1 = 0 → n 0x30 8 % 16 = 0 → size (n 0x38 4) → 0 < n 0x3C 4 → n 0x3C 4 < 2 ^ 20 →
          n 0x50 8 = 0 ∨ 1 ≤ n 0x68 4 ∧ n 0x68 4 ≤ 3 → answers (.qbind f) 0 (fun s' =>
            let x := s'.slot q
            x.bound = true ∧ x.qcb = qcb ∧ x.ring = n 0 8 ∧ x.rsize = n 8 4 ∧ x.commit = n 0x18 8 ∧ x.read = n 0x18 8 ∧ x.write = n 0x20 8 ∧
              x.prio.toNat = n 0x28 1 ∧ x.func = n 0x2A 2 ∧ x.qnum = n 0x2C 1 ∧ x.cring = n 0x30 8 ∧ x.crsize = n 0x38 4 ∧ x.pasid = n 0x3C 4 ∧
              x.crwr = n 0x40 8 ∧ x.save.toNat = n 0x50 8 ∧ x.shadow.toNat = n 0x58 8 ∧ x.err = 0 ∧ x.launch = none)))) ∧
    (Runs (.qunbind f) oU s t → ∀ p r, q < 64 → owned p → sl.bound = true → (s.curThread t).relSet = some r → r.cmds ≠ [] →
      Leaves (.qunbind f) s (fun s' => ((s'.core c).thread t).block = some .release ∧ (s'.slot q).unbinding.isSome = true)) ∧
    (Runs (.qunbind f) oU s t → NothingDue k t →
      (64 ≤ q → answers (.qunbind f) 3 (fun s' => s'.slots = s.slots)) ∧
      (q < 64 → (∀ p, ¬owned p) → answers (.qunbind f) 4 (fun s' => s'.slots = s.slots)) ∧
      (∀ p, q < 64 → owned p → sl.bound = false → answers (.qunbind f) 5 (fun s' => ∀ x, s'.slot x = s.slot x)) ∧
      (∀ p, q < 64 → owned p → sl.bound = true → sl.record = none → sl.phase ≠ .frame → sl.unbinding = none → sl.launch = none →
        sl.resume ≠ .saved ∨ (f.fn.getLsbD 0 = true ∧ sl.save ≠ 0) →
        answers (.qunbind f) 0 (fun s' => (s'.slot q).bound = false ∧ (s'.slot q).prio = sl.prio ∧ (s'.core c).evt = k.evt ||| 2)) ∧
      (∀ p, q < 64 → owned p → sl.bound = true → sl.unbinding = none → sl.resume = .saved → sl.err = 0 → sl.read < sl.write → f.fn.getLsbD 0 = false →
        Leaves (.qunbind f) s (fun s' => ((s'.core c).thread t).block = some (.qunbind q) ∧ (s'.slot q).bound = true ∧
          (s'.slot q).unbinding = some false)) ∧
      (∀ p l, q < 64 → owned p → sl.bound = true → sl.record = none → sl.phase ≠ .frame → sl.unbinding = none → sl.launch = some l → l.running = true →
        sl.resume = .fresh →
        answers (.qunbind f) 0 (fun s' => (s'.slot q).bound = false ∧ (s'.slot q).launch = some l ∧
          ∀ d, d < 208 → (s'.core d).ipis = (s.core d).ipis ++
            if f.fn.getLsbD 0 = true ∧ sl.save ≠ 0 ∧ ∃ i, (s.core d).inst = some i ∧ i.slot = q then [BitVec.ofNat 64 (c - 208)] else [])))

/-- Control-core instructions and queue binding: R304 to R308, R368. -/
def Obligations.ControlCoreInstructions : Prop := WaitsKicksAndSignals ∧ QueueBinding

/-- R341, R347, R357, R358: MTS %tsave writes the block of 640 bytes that holds the thread's state; MTS %tload, in restore state, writes the
thread from such a block; a bad offset traps MISALIGN or SPRANGE, and outside restore state or without LIVE %tload is ILLEGAL. That the tag stored of a
register above the phrase's level is b32 is the model's reading (log 42). -/
def Sys2Proof.Claims.ThreadBlocks : Prop :=
  ∀ (f : SForm) (s : State) (t : Nat),
    let c := s.cur.core
    let k := s.curCore
    let th := s.curThread t
    let o := writeSpec f .sl false
    let v := (o.opnd s t 0).lo
    let at_ (m : Map Byte) (off n : Nat) : Nat := leNat (Map.getRange 0 m (v.toNat - 0xF00000 + off) n)
    let free := k.stalls v.toNat 640 = false
    let inside := v.toNat % 64 = 0 ∧ 0xF00000 ≤ v.toNat ∧ v.toNat + 640 ≤ 0xF20000
    let good := inside ∧ free
    let waits (i : Instr) : Prop := Runs i o s t → inside → ¬free → Leaves i s (fun s' => let x := (s'.core c).thread t
      x.pc = s.cur.pc ∧ x.block.isSome = true ∧ x.kept = some (o.vals k t) ∧ x.v = th.v ∧ x.tpc = th.tpc ∧ (s'.core c).staging = k.staging ∧
        (∀ u, u ≠ t → (s'.core c).thread u = k.thread u) ∧ s'.mem = s.mem)
    let top := 32 + 32 * (k.phrase (t / 64)).xlev.toNat
    let bad (i : Instr) : Prop := Runs i o s t → (v.toNat % 64 ≠ 0 → Traps i s t .misalign (v.setWidth 64)) ∧
      (v.toNat % 64 = 0 → v.toNat < 0xF00000 ∨ 0xF20000 < v.toNat + 640 → Traps i s t .sprange (v.setWidth 64))
    bad (.tsaveWrite f) ∧ bad (.tloadWrite f) ∧ waits (.tsaveWrite f) ∧ waits (.tloadWrite f) ∧
    (Runs (.tsaveWrite f) o s t → good → CoreGives (.tsaveWrite f) s t {} (fun k' =>
      let b := at_ k'.staging
      b 0 8 = th.tpc.toNat ∧ b 8 8 = th.lk.toNat ∧ b 16 8 = th.hold0.toNat ∧ b 24 8 = th.hold1.toNat ∧ b 32 8 = th.hold2.toNat ∧
        b 40 8 = th.hold3.toNat ∧ b 48 1 = (th.p ||| 1).toNat ∧ b 52 4 = th.status.toNat ∧ b 56 4 = th.fpf.toNat ∧
        b 60 4 = (th.tcval >>> 32).toNat ∧ b 128 4 = th.tcval.toNat % 2 ^ 32 ∧ b 136 8 = th.sscr0.toNat ∧ b 144 8 = th.sscr1.toNat ∧
        b 152 8 = th.sscr2.toNat ∧
        (∀ r, r = 1 ∨ (8 ≤ r ∧ r < top) → th.pend = [] → b (128 + 4 * r) 4 = (th.reg r).toNat ∧
          b (64 + r / 2) 1 / (if r % 2 = 0 then 1 else 16) % 16 = (th.tag r).toNat) ∧
        (∀ r, top ≤ r → r < 128 → b (128 + 4 * r) 4 = 0 ∧ b (64 + r / 2) 1 / (if r % 2 = 0 then 1 else 16) % 16 = 2) ∧
        (∀ a, a < v.toNat - 0xF00000 ∨ v.toNat - 0xF00000 + 640 ≤ a → Map.get 0 k'.staging a = Map.get 0 k.staging a) ∧
        k'.scratch = k.scratch ∧ ∀ u, u ≠ t → k'.thread u = k.thread u)) ∧
    (Runs (.tloadWrite f) o s t → good →
      let b := at_ k.staging
      let live := b 48 4 / 2 ^ 24 % 2 = 1
      (k.restore = false ∨ ¬live → Traps (.tloadWrite f) s t .illegal s.cur.word) ∧
      (k.restore = true → live → Leaves (.tloadWrite f) s (fun s' =>
        let x := (s'.core c).thread t
        x.pc = s.cur.pc + 8 ∧ x.level = th.level ∧ x.tpc.toNat = b 0 8 ∧ x.lk.toNat = b 8 8 ∧ x.hold0.toNat = b 16 8 ∧ x.hold1.toNat = b 24 8 ∧
          x.hold2.toNat = b 32 8 ∧ x.hold3.toNat = b 40 8 ∧ x.status.toNat = b 52 4 % 4 ∧ x.fpf.toNat = b 56 4 % 16 ∧
          x.tcval.toNat = b 60 4 * 2 ^ 32 + b 128 4 ∧ x.sscr0.toNat = b 136 8 ∧ x.sscr1.toNat = b 144 8 ∧ x.sscr2.toNat = b 152 8 ∧
          x.p.toNat = b 48 1 / 2 * 2 + 1 ∧ x.grp = (if b 48 4 / 2 ^ 25 % 2 = 1 then some (b 50 1) else none) ∧
          x.arr0 = decide (b 48 4 / 2 ^ 28 % 2 = 1) ∧ x.arrC = decide (b 48 4 / 2 ^ 29 % 2 = 1) ∧
          ∀ r, r = 1 ∨ (8 ≤ r ∧ r < top) → (x.reg r).toNat = b (128 + 4 * r) 4 ∧
            (x.tag r).toNat = b (64 + r / 2) 1 / (if r % 2 = 0 then 1 else 16) % 16)))

/-- R342, R345, R346, R348, R355, R360: DUMP and DUMPD set BUSY and SAVING; the image of a DUMP is written once no command and no fill is left, that of a
DUMPD with the parked commands as records, whose faults the logical core then waits for; LOAD reinstates the header and sets RESTORE, a detached copy
from byte DONE on, or refuses reserved fields; RUN leaves both states; FREE clears the core. The order of the lines' states within a byte is the model's
reading (log 43). -/
def Sys2Proof.Claims.CoreSaveOperations : Prop :=
  ∀ (s : State) (c : Nat),
    let k := s.core c
    let h (m : Map Byte) (off n : Nat) : Nat := leNat (Map.getRange 0 m off n)
    let onCore (i : Instr) (P : Core → Prop) : Prop := Leaves i s (fun s' => { s' with cores := [] } = { s with cores := [] } ∧
      (∀ d, d ≠ c → s'.core d = s.core d) ∧ P (s'.core c))
    onCore (.dump c) (fun k' => k' = { k with busy := some 1, saving := true }) ∧
    onCore (.dumpd c) (fun k' => k' = { k with busy := some 2, saving := true }) ∧
    onCore (.run c) (fun k' => k'.restore = false ∧ k'.saving = false ∧ k'.threads = k.threads ∧ k'.scratch = k.scratch ∧
      (∀ m ∈ k'.cmds, m.hold = false) ∧ k'.cmds.map (·.id) = k.cmds.map (·.id)) ∧
    (c < 208 → k.sset = none → Leaves (.free c) s (fun s' => let k' := s'.core c
      k'.inst = none ∧ (∀ t, k'.live t = false) ∧ k'.groups = [] ∧ k'.phrases = [] ∧ k'.recs = [] ∧ k'.window = [] ∧ k'.tbs = [] ∧
        k'.sphase = 0 ∧ k'.mq = [] ∧ k'.mfaults = [] ∧ k'.cov.queue = [] ∧ k'.cov.faulted = false ∧ k'.cov.stopped = false ∧ k'.lines = [] ∧ (∀ r, (k'.region r).isLive = false) ∧ k'.busy = none ∧ k'.saving = false ∧ k'.restore = false ∧
        k'.scratch = k.scratch ∧ k'.staging = k.staging ∧ ∀ d, d < 208 → d ≠ c → s'.core d = s.core d)) ∧
    (h k.staging 0x10 4 ≥ 8 ∨ h k.staging 0x15 3 ≠ 0 → onCore (.load c) (fun k' => k' = { k with restore := false })) ∧
    (imageBad (Map.getRange 0 k.staging 0 0x9000) = false → onCore (.load c) (fun k' =>
      let g := h k.staging
      k'.restore = true ∧ k'.mticket.toNat = g 0x18 4 ∧ k'.staging = k.staging ∧ k'.scratch = k.scratch ∧
        (∀ i, k.inst = some i → ∃ i', k'.inst = some i' ∧ i'.lcore.toNat = g 8 4 ∧ i'.t = g 0xC 4 ∧ i'.var.toNat = g 0x1C 4 ∧
          i'.launch.toNat = g 0x20 8 ∧ i'.param.toNat = g 0x28 8 ∧ i'.slot = i.slot ∧ i'.pasid = i.pasid) ∧
        (∀ p, p < 32 → (k'.phrase p).xlev.toNat = g 0x30 8 / 4 ^ p % 4) ∧
        (∀ r, r < 16 → let x := k'.region r; let a := 0x100 + 32 * r
          x.spbase.toNat = g a 4 ∧ x.size.toNat = g (a + 4) 4 ∧ x.va.toNat = g (a + 8) 8 ∧ x.ctl.toNat = g (a + 16) 4 ∧
            x.status.toNat = g (a + 20) 4 ∧ x.failva.toNat = g (a + 24) 8) ∧
        (∀ b, b < 16 → (k'.tb b).expected.toNat = g (0x300 + 8 * b) 2 ∧ (k'.tb b).done.toNat = g (0x302 + 8 * b) 2) ∧
        (∀ r, r < 8 → (k'.rcd r).count.toNat = g (0x50C + 32 * r) 4 ∧ (k'.rcd r).next.toNat = g (0x508 + 32 * r) 4 ∧
          (k'.rcd r).acc.toNat = g (0x514 + 32 * r) 4 ∧ (k'.rcd r).tid = g (0x500 + 32 * r) 2) ∧
        (∀ l, l < 3072 → (k'.line l).st = g (0x800 + l / 4) 1 / 4 ^ (l % 4) % 4) ∧
        (g 0xB80 1 = 0xA3 → (∀ j, 0 < j → j < 32 → g (0xB80 + 32 * j) 1 = 0) → ∃ m, k'.cmds = k.cmds ++ [m] ∧ m.op = 0xA3 ∧ m.hold = true ∧
          m.started = false ∧ m.tid = g 0xB84 2 ∧ m.a.toNat = g 0xB88 8 ∧ m.b.toNat = g 0xB90 8 ∧ m.c.toNat = g 0xB98 4 ∧ m.done = g 0xB9C 4 ∧
          (m.done < m.c.toNat → m.moves =
            [{ src := if m.fn % 4 = 0 ∨ m.fn % 4 = 3 then .glob (m.b.toNat + m.done) else .spad (m.b.toNat + m.done),
               dst := if m.fn % 4 = 1 ∨ m.fn % 4 = 3 then .glob (m.a.toNat + m.done) else .spad (m.a.toNat + m.done), n := m.c.toNat - m.done }])))) ∧
    (k.busy = some 1 → k.cmds = [] → (∀ l ∈ k.lines, l.2.filling = false) → onCore (.dumpImageWrite c) (fun k' =>
      let g := h k'.staging
      { k' with staging := [], inst := none } = { k with staging := [], inst := none, busy := none } ∧
        k'.inst.map (fun (i : Inst) => { i with carry := {} }) = k.inst.map (fun (i : Inst) => { i with carry := {} }) ∧ g 0x18 4 = k.mticket.toNat ∧
        (∀ i, k.inst = some i → g 8 4 = i.lcore.toNat ∧ g 0xC 4 = i.t % 2 ^ 32 ∧ g 0x20 8 = i.launch.toNat ∧ g 0x28 8 = i.param.toNat) ∧
        (∀ r, r < 16 → g (0x100 + 32 * r) 4 = (k.region r).spbase.toNat ∧ g (0x110 + 32 * r) 4 = (k.region r).ctl.toNat) ∧
        (∀ r, r < 8 → g (0x508 + 32 * r) 4 = (k.rcd r).next.toNat ∧ g (0x50C + 32 * r) 4 = (k.rcd r).count.toNat) ∧
        (∀ a, a < 8 ∨ 0x9000 ≤ a → Map.get 0 k'.staging a = Map.get 0 k.staging a))) ∧
    (k.busy = some 1 → k.cmds ≠ [] → onCore (.dumpImageWrite c) (fun k' => k' = k)) ∧
    (k.busy = some 2 → k.cmds.length ≤ 32 → (∀ m ∈ k.cmds, m.op = 0xA3 ∧ ∃ d n, m.xs = .parked d n) → (∀ l ∈ k.lines, l.2.filling = false) →
      onCore (.dumpImageWrite c) (fun k' =>
        let g := h k'.staging
        k'.busy = none ∧ k'.cmds = [] ∧ k'.saving = k.saving ∧ k'.scratch = k.scratch ∧ g 0xF80 4 = k.cmds.length ∧
          (∀ i m, k.cmds[i]? = some m → let a := 0xB80 + 32 * i
            g a 1 = 0xA3 ∧ g (a + 1) 1 = m.fn % 32 * 2 + (if m.sig.isSome then 1 else 0) ∧ g (a + 4) 2 = m.tid % 2 ^ 16 ∧ g (a + 8) 8 = m.a.toNat ∧
              g (a + 16) 8 = m.b.toNat ∧ g (a + 24) 4 = m.c.toNat % 2 ^ 32 ∧ g (a + 28) 4 = m.done % 2 ^ 32) ∧
          ∀ i, k.inst = some i → ∃ i', k'.inst = some i' ∧ ∀ m ∈ k.cmds, ∀ d n, m.xs = .parked d n → (d, n) ∈ i'.detached))

/-- Saving and restoring a core: R341, R342, R345 to R347, R357, R358, R360. -/
def Obligations.CoreSaving : Prop := ThreadBlocks ∧ CoreSaveOperations

/-- R308, R337, R344: a PREEMPT that arrives at a core is taken by every thread at KL, with %tval its value and %save the area that this save
uses, and kept by every thread at SL. That its entry, an acquire by R308, changes no line, so that every line state is as if the core had run on (R113), is the
model's reading (log 110): the accesses of the handler find the lines filled since. -/
def Sys2Proof.Claims.PreemptDelivery : Prop :=
  ∀ (s : State) (c : Nat) (v : W64) (vs : List W64) (i : Inst),
    let k := s.core c
    let q := s.slot i.slot
    let base := if v.getLsbD 8 then q.shadow else q.save
    c < 208 → k.ipis = v :: vs → k.inst = some i → Leaves (.preemptDelivery c) s (fun s' => (s'.core c).ipis = vs ∧
      (∀ d, d ≠ c → s'.core d = s.core d) ∧ (s'.core c).lines = k.lines ∧
      (∃ i', (s'.core c).inst = some i' ∧ i'.gang = v.getLsbD 8 ∧ i'.parking = v.getLsbD 9 ∧ i'.slot = i.slot ∧ i'.lcore = i.lcore) ∧
      ∀ t, k.live t = true → (k.thread t).sub = none → let th := k.thread t; let x := (s'.core c).thread t
        x.v = th.v ∧ x.tags = th.tags ∧ x.p = th.p ∧ x.lk = th.lk ∧ x.grp = th.grp ∧
          (th.level = .kl → x.tcause = 0x15 ∧ x.tpc = th.pc ∧ x.tval = v ∧ x.tlev = 0 ∧ x.level = .sl ∧ x.pc = k.fwEntry ∧
            x.block = none ∧ (∀ id, th.block = some (.order id) → x.order = some id) ∧
            x.save = if base = 0 then 0 else base + BitVec.ofNat 64 (i.lcore.toNat * 0x260000)) ∧
          (th.level ≠ .kl → x.preempt = some v ∧ x.pc = th.pc ∧ x.level = th.level ∧ x.block = th.block))

/-! ### Translation -/

namespace Sys2Proof.Claims

/-- ADDR of an entry of a page table (R388). -/
def frame (e : Nat) : Nat := e / 2 ^ 12 % 2 ^ 36 * 2 ^ 12

/-- The reserved fields of an entry are 0 (R388). -/
def plain (e : Nat) : Prop := e / 8 % 2 = 0 ∧ e / 2 ^ 7 % 2 = 0 ∧ e / 2 ^ 9 % 8 = 0 ∧ e / 2 ^ 48 % 16 = 0

/-- The tables lead from PTBASE over a valid PASID entry of owner `own` and three valid table pointers to the level-0 entry at `ea` for `va`
(R386, R387). -/
def Chain (s : State) (pasid va own ea : Nat) : Prop :=
  let da := s.ptbase.toNat + 8 * (pasid / 1024 % 1024)
  let d := s.devNat da 8
  let pa := d / 2 ^ 14 * 2 ^ 14 + 16 * (pasid % 1024)
  let p := s.devNat pa 8
  let a3 := p / 2 ^ 16 * 2 ^ 16 + 8 * (va / 2 ^ 39 % 8192)
  let a2 := frame (s.devNat a3 8) + 8 * (va / 2 ^ 30 % 512)
  let a1 := frame (s.devNat a2 8) + 8 * (va / 2 ^ 21 % 512)
  let pointer (a : Nat) : Prop := inDevice a 8 = true ∧ s.devNat a 8 % 4 = 1 ∧ plain (s.devNat a 8)
  ea = frame (s.devNat a1 8) + 8 * (va / 2 ^ 16 % 32) ∧ inDevice ea 8 = true ∧ inDevice da 8 = true ∧ d % 2 = 1 ∧ d / 2 % 2 ^ 13 = 0 ∧ d < 2 ^ 48 ∧
    inDevice pa 16 = true ∧ p % 2 = 1 ∧ p / 8 % 2 ^ 13 = 0 ∧ p < 2 ^ 48 ∧ s.devNat (pa + 8) 4 = own ∧
    pointer a3 ∧ pointer a2 ∧ pointer a1

/-- Command `id` of core `c` is `m`. -/
def CmdIs (s : State) (c id : Nat) (m : Cmd) : Prop := (s.core c).cmd? id = some m

/-- The fault ring of a die is enabled and has room, and no unanswered record is for this page of `size` bytes and access (R392, R393). -/
def RingRoom (di : Die) (pasid va size acc : Nat) : Prop :=
  64 ≤ di.fqsize.toNat ∧ di.fqsize.toNat ≤ 4096 ∧ (∃ e, di.fqsize.toNat = 2 ^ e) ∧ (di.fqtail - di.fqhead).toNat ≠ di.fqsize.toNat ∧
    ∀ r ∈ di.faults, ¬(r.pasid = pasid ∧ (r.va / r.size = va / r.size ∨ r.va / size = va / size) ∧ r.acc = acc)

/-- The fault of command `id` of core `c` stands in the ring of die `d`, and the command is parked on it (R88, R393). Its token counts up
on each die, with the die in bits [1:0], which is the model's choice (log 117). -/
def Parked (s s' : State) (d c id pasid va acc reason : Nat) : Prop :=
  let di := s.die d
  let a := di.fqbase.toNat + 32 * (di.fqtail.toNat % di.fqsize.toNat)
  (s'.die d).fqtail = di.fqtail + 1 ∧ (va < 2 ^ 64 → s'.devNat a 8 = va / 256 * 256) ∧
    (pasid < 2 ^ 20 → acc < 16 → reason < 256 → s'.devNat (a + 8) 4 = pasid + acc * 2 ^ 20 + reason * 2 ^ 24) ∧
    (di.nextToken < 2 ^ 30 → s'.devNat (a + 12) 4 = 4 * di.nextToken + d) ∧
    s'.devNat (a + 16) 4 = 256 + (if 208 ≤ c then c + 32 else c) ∧ s'.devNat (a + 20) 4 = 1 ∧ s'.devNat (a + 24) 4 = s.ptime / 1024 % 2 ^ 32 ∧
    ∃ m, CmdIs s' c id m ∧ m.xs = .parked d (4 * di.nextToken + d)

end Sys2Proof.Claims

/-- R386 to R390, R393, R420: a page walk of a command ends with the page of the leaf, held by the command and cached by its core and die, and for a
write with D set in the leaf; with a
recoverable fault of reason 1 (not valid) or 2 (write without W); or, for a reserved field or a foreign PASID, with a failure. -/
def Sys2Proof.Claims.PageWalks : Prop :=
  ∀ (s : State) (d c id va acc own ea r : Nat) (w : Walk) (n : Need) (m : Cmd),
    let di := s.die d
    let ri := s.die r
    let e := s.devNat ea 8
    let wr := acc = 1 ∨ acc = 2
    let ends (P : State → Prop) : Prop := Leaves (.pageWalkComplete d 0) s (fun s' => (s'.die d).walks = [] ∧ P s')
    (c < 208 ∧ d = c / 52 ∧ r = d ∨ 208 ≤ c ∧ c < 216 ∧ d = 4 ∧ r = 0) → acc ≤ 2 → di.walks = [w] → di.pendWalks = [] → di.ptrs = [] →
    w.users = [n] → n.user = .cmd c id → n.va = va → n.acc = acc →
    CmdIs s c id m → m.xs = .walking → Chain s w.pasid va own ea →
    (w.stale = true → Leaves (.pageWalkComplete d 0) s (fun s' => (s'.die d).walks = [{ w with stale := false }] ∧ CmdIs s' c id m)) ∧
    (w.stale = false →
      (w.pasid ≠ 0 → (∃ p, s.corePart c = some p ∧ p ≠ own) → ends (fun s' => CmdIs s' c id { m with xs := .failed va })) ∧
      (w.pasid = 0 ∨ (∀ p, s.corePart c = some p → p = own) →
        (e % 4 = 3 → plain e → e / 16 % 4 = 0 → frame e % 65536 = 0 → frame e + 65536 ≤ Config.hbmSize → (wr → e / 4 % 2 = 1) →
          (∀ a ∈ s.poison, a ≠ (frame e + va % 65536) / 65536) → ends (fun s' =>
            let x : Xlat := { pasid := w.pasid, va := va / 65536 * 65536, size := 65536, loc := { host := false, addr := frame e },
                              w := decide (e / 4 % 2 = 1), leaf := some ea, part := own }
            CmdIs s' c id { m with xs := .idle, src := m.src ++ [x] } ∧ x ∈ (s'.die d).dtlb ∧ x ∈ (s'.core c).tlb ∧
              (¬wr → s'.mem = s.mem) ∧ (wr → s'.devNat ea 8 = e ||| 64 ∧
                ∀ a, a < ea ∨ ea + 8 ≤ a → Map.get Config.blank s'.mem a = Map.get Config.blank s.mem a))) ∧
        (e % 2 = 0 → RingRoom ri w.pasid va 65536 acc → ends (fun s' => Parked s s' r c id w.pasid va acc 1)) ∧
        (e % 4 = 3 → plain e → e / 16 % 4 = 0 → wr → e / 4 % 2 = 0 → RingRoom ri w.pasid va 65536 acc → ends (fun s' => Parked s s' r c id w.pasid va acc 2)) ∧
        (e % 2 = 1 → ¬plain e → ends (fun s' => CmdIs s' c id { m with xs := .failed va }))))

/-- R392 to R394: a write of FQHEAD makes room for the fault that waits; a response to a token starts the walk of the parked command again
(retry) or fails the command (fail); the record is answered. -/
def Sys2Proof.Claims.FaultResponses : Prop :=
  ∀ (s : State) (d c id : Nat) (token : W32) (n : Need) (m : Cmd),
    let di := s.die d
    s.link = true → s.mainPower = true → s.present = true → s.boot.ready = true → s.boot.recovery = false →
    (∀ v, di.waiting = [] → exec (.fqheadWrite d v) s = .next (s.updDie d (fun di => { di with fqhead := v }))) ∧
    (∀ (v : W32) (f : FWait), CmdIs s c id m → di.waiting = [f] → f.user = .cmd c id → c < 216 → f.src = 256 + (if 208 ≤ c then c + 32 else c) →
      RingRoom { di with fqhead := v } f.pasid f.va f.size f.acc →
      Leaves (.fqheadWrite d v) s (fun s' => (s'.die d).waiting = [] ∧ Parked s s' d c id f.pasid f.va f.acc f.reason)) ∧
    (∀ r, CmdIs s c id m → m.xs = .parked d token.toNat → di.faults = [r] → r.token = token.toNat → r.users = [n] → n.user = .cmd c id → c < 208 →
      d = c / 52 →
      (di.walks = [] → Leaves (.frespRetry d token) s (fun s' => (s'.die d).faults = [] ∧ CmdIs s' c id { m with xs := .walking } ∧
        (s'.die d).walks = [{ pasid := r.pasid, va := n.va, users := [n] }])) ∧
      Leaves (.frespFail d token) s (fun s' => (s'.die d).faults = [] ∧ CmdIs s' c id { m with xs := .failed n.va } ∧ s'.mem = s.mem)) ∧
    ((∀ r ∈ di.faults, r.token ≠ token.toNat) → exec (.frespRetry d token) s = .next s ∧ exec (.frespFail d token) s = .next s)

/-- Page walks and page faults: R386 to R390, R392 to R394, R420. -/
def Obligations.PageWalksAndFaults : Prop := PageWalks ∧ FaultResponses

/-- R390 to R392: INVCMD takes its range from INVVA and INVLEN, unless an invalidation runs; it completes when no access that used an old
translation is left, and then no cache holds one; others stay. -/
def Sys2Proof.Claims.Invalidations : Prop :=
  (∀ (s : State) (v : W64), s.link = true → s.mainPower = true → s.present = true → s.boot.ready = true → s.boot.recovery = false →
    (s.inv = none → s.mig.busy = false → exec (.invcmd v) s =
      .next { s with inv := some (if v.getLsbD 20 then none else some (v.toNat % 2 ^ 20), s.invva.toNat, s.invlen.toNat) }) ∧
    (s.inv ≠ none → exec (.invcmd v) s = .next s)) ∧
  (∀ (s : State) (p : Option Nat) (a n : Nat),
    let meets (x : Xlat) : Prop := (∀ q, p = some q → x.pasid = q) ∧ (n = 0 ∨ (x.va < a + n ∧ a < x.va + x.size))
    let used (x : Xlat) : Prop := ∃ c, ∃ m ∈ (s.core c).cmds, m.started = true ∧ m.op ≠ 0xA6 ∧ m.op ≠ 0xA7 ∧ m.op ≠ 0xA8 ∧ x ∈ m.src
    s.inv = some (p, a, n) → (∀ e ∈ s.cores, Map.find s.cores e.1 = some e.2) →
    ((∀ x, used x → ¬meets x) → Leaves .invalidationComplete s (fun s' => s'.inv = none ∧ s'.mem = s.mem ∧
      (∀ c x, x ∈ (s'.core c).tlb ↔ x ∈ (s.core c).tlb ∧ ¬meets x) ∧ (∀ d x, x ∈ (s'.die d).dtlb ↔ x ∈ (s.die d).dtlb ∧ ¬meets x) ∧
      ∀ q x, x ∈ (s'.slot q).src ↔ x ∈ (s.slot q).src ∧ ¬meets x)) ∧
    ((∃ x, used x ∧ meets x) → exec .invalidationComplete s = .next s))

/-- R392, R396, R397: a migration begins with MIGGO = 1; a round arms the watch on WVER, whatever writes are under way; a watch that saw no write moves
the page: every byte goes to the new frame, the leaf names it; a watch that saw one is given up and counted, and the fourth sets MIG, after which the
page moves once no write of it is left; when nothing uses the old frame RESULT is 0. An invalid leaf gives RESULT 1, also when an INVCMD covers the page
meanwhile, a page of tier 2 gives 3, and an address that translates to no page or to a poisoned one gives 4. That the bytes
are copied at the end of a round is the model's reading (log 68). -/
def Obligations.PageMigration : Prop :=
  ∀ (s : State) (own ea : Nat),
    let g := s.mig
    let e := s.devNat ea 8
    let dst := g.dst.toNat
    let new := frame dst
    let begun : Mig := { g with busy := true, abandons := 0, armed := none, pend := [], saw := false, migSet := false, drain := none }
    let round (P : State → Prop) : Prop := Leaves .migrationRound s P
    let result (n : Nat) (s' : State) : Prop := s'.mig.busy = false ∧ s'.mig.result.toNat = n ∧ s'.mem = s.mem
    let still : Prop := (∀ c, (∀ m ∈ (s.core c).cmds, m.started = false) ∧ ∀ m ∈ (s.core c).mops, m.counted = false) ∧ ∀ x ∈ s.cores, Map.find s.cores x.1 = some x.2
    let moves : Prop := round (fun s' => s'.mig.drain = some (ea, new) ∧ s'.mig.busy = true ∧
      (∀ i, i < 65536 → Map.get Config.blank s'.mem (new + i) = Map.get Config.blank s.mem (frame e + i)) ∧
      frame (s'.devNat ea 8) = new ∧ s'.devNat ea 8 / 16 % 4 = 0 ∧ s'.devNat ea 8 % 16 = e % 16 ∧ s'.devNat ea 8 / 2 ^ 8 % 2 = 0 ∧
      s'.devNat ea 8 / 2 ^ 48 = e / 2 ^ 48 ∧
      ∀ a, ¬(new ≤ a ∧ a < new + 65536) → ¬(ea ≤ a ∧ a < ea + 8) → Map.get Config.blank s'.mem a = Map.get Config.blank s.mem a)
    (s.link = true → s.mainPower = true → s.present = true → s.boot.ready = true → s.boot.recovery = false →
      (g.busy = false → exec (.miggo 1) s = .next { s with mig := begun }) ∧ (∀ v, v ≠ 1 ∨ g.busy = true → exec (.miggo v) s = .next s) ∧
      (∀ v : W64, g.busy = true → g.drain = none → g.va.toNat < 2 ^ 52 → g.va.toNat / 2 ^ 48 ≠ 15 → Chain s g.pasid.toNat g.va.toNat own ea → e % 2 = 0 →
        s.inv = none → v.getLsbD 20 = true → s.invlen = 0 → Leaves (.invcmd v) s (fun s' => result 1 s' ∧ s'.inv.isSome = true))) ∧
    (g.busy = false → exec .migrationRound s = .next s) ∧
    (g.busy = true → g.drain = none → 2 ^ 52 ≤ g.va.toNat ∨ g.va.toNat / 2 ^ 48 = 15 → round (result 4)) ∧
    (g.busy = true → g.drain = none → g.va.toNat < 2 ^ 52 → g.va.toNat / 2 ^ 48 ≠ 15 → Chain s g.pasid.toNat g.va.toNat own ea →
      (e % 2 = 0 → round (result 1)) ∧
      (e % 4 = 3 → plain e → e / 16 % 4 = 2 → round (result 3)) ∧
      (e % 4 = 3 → plain e → e / 16 % 4 = 0 → frame e % 65536 = 0 → frame e + 65536 ≤ Config.hbmSize →
        (frame e / 65536 ∈ s.poison → round (result 4)) ∧
        (frame e / 65536 ∉ s.poison → dst % 2 ^ 12 = 0 → dst < 2 ^ 48 → dst % 65536 = 0 → dst + 65536 ≤ Config.hbmSize →
          (g.migSet = false → g.armed = none → round (fun s' => ∃ ps, (still → ps = []) ∧
            s' = { s with mig := { g with armed := some (ea, e / 2 ^ 52), pend := ps, saw := false } })) ∧
          (g.migSet = false → g.armed = some (ea, e / 2 ^ 52) → g.pend = [] → g.saw = false → ea + 8 ≤ new ∨ new + 65536 ≤ ea → moves) ∧
          (g.migSet = true → still → ea + 8 ≤ new ∨ new + 65536 ≤ ea → moves) ∧
          (∀ v, g.migSet = false → g.armed = some (ea, v) → g.pend = [] → g.saw = true ∨ v ≠ e / 2 ^ 52 →
            (g.abandons < 3 → round (fun s' => s'.mig.abandons = g.abandons + 1 ∧ s'.mig.armed = none ∧ s'.mig.migSet = false ∧ s'.mig.busy = true ∧
              s'.mem = s.mem)) ∧
            (g.abandons = 3 → round (fun s' => s'.mig.abandons = 4 ∧ s'.mig.armed = none ∧ s'.mig.migSet = true ∧ s'.mig.busy = true ∧
              s'.devNat ea 8 = e ||| 256)))))) ∧
    (g.busy = true → ∀ l n, g.drain = some (l, n) → still → round (result 0))

/-- R393, R398: a host page is given to the command that waits for it; without permission the command parks with reason 3 when PRI = 0,
and a page request goes out when PRI = 1, and inbound accesses of the page get a NAK; the answer of a request starts the walk again or fails every command
that waits on the page; an invalidation of the host drops
host translations of its range and completes only when none is in use. -/
def Sys2Proof.Claims.HostTranslations : Prop :=
  (∀ (s : State) (d c id page own ea : Nat) (r w : Bool) (a : AtsReq) (n : Need) (m : Cmd),
    let e := s.devNat ea 8
    let page' := n.va / 65536 * 65536
    c < 208 → d = c / 52 → n.user = .cmd c id → a.die = d → a.va = page' → a.users = [n] → n.acc = 0 ∨ n.acc = 1 → CmdIs s c id m →
    m.xs = .walking →
    (s.ats = [a] → Chain s a.pasid page' own ea → e % 4 = 3 → plain e → e / 16 % 4 = 2 →
      (∃ q, s.pasidEntry a.pasid = some q ∧ q.ats = true) → s.pri.length < 512 →
      (r = true → n.acc = 1 → w = true ∧ e / 4 % 2 = 1 → Leaves (.atsTranslationCompletion 0 page r w) s (fun s' => s'.ats = [] ∧
        ∃ x : Xlat, x.pasid = a.pasid ∧ x.va = page' ∧ x.size = 65536 ∧ x.loc = { host := true, addr := page * 65536 } ∧ x.w = true ∧
          CmdIs s' c id { m with xs := .idle, src := m.src ++ [x] })) ∧
      (r = true → n.acc = 0 → Leaves (.atsTranslationCompletion 0 page r w) s (fun s' => s'.ats = [] ∧
        ∃ x : Xlat, x.pasid = a.pasid ∧ x.va = page' ∧ x.loc = { host := true, addr := page * 65536 } ∧
          CmdIs s' c id { m with xs := .idle, src := m.src ++ [x] })) ∧
      (r = false → (∃ q, s.pasidEntry a.pasid = some q ∧ q.pri = true) → Leaves (.atsTranslationCompletion 0 page r w) s (fun s' =>
        s'.ats = [] ∧ s'.pri = s.pri ++ [{ a with inbound := [] }] ∧ CmdIs s' c id m ∧
        s'.replies = s.replies ++ a.inbound.map (fun e => { req := e.1, ok := false }))) ∧
      (r = false → (∃ q, s.pasidEntry a.pasid = some q ∧ q.pri = false) → a.inbound = [] → RingRoom (s.die d) a.pasid n.va 65536 n.acc →
        Leaves (.atsTranslationCompletion 0 page r w) s (fun s' => s'.ats = [] ∧ Parked s s' d c id a.pasid n.va n.acc 3))) ∧
    (s.pri = [a] → (s.die d).walks = [] →
      Leaves (.priResponse 0 true) s (fun s' => s'.pri = [] ∧ CmdIs s' c id { m with xs := .walking } ∧
        (s'.die d).walks = [{ pasid := a.pasid, va := n.va, users := [n] }]) ∧
      Leaves (.priResponse 0 false) s (fun s' => s'.pri = [] ∧ CmdIs s' c id { m with xs := .failed n.va })) ∧
    (∀ b o j mj, s.pri = [a, b] → b ≠ a → b.pasid = a.pasid → b.va = a.va → b.users = [o] → o.user = .cmd c j → j ≠ id → CmdIs s c j mj →
      mj.xs = .walking → Leaves (.priResponse 0 false) s (fun s' => CmdIs s' c id { m with xs := .failed n.va } ∧
        CmdIs s' c j { mj with xs := .failed o.va }))) ∧
  (∀ (s : State) (pasid a n : Nat),
    let meets (x : Xlat) : Prop := x.loc.host = true ∧ x.pasid = pasid ∧ (n = 0 ∨ (x.va < a + n ∧ a < x.va + x.size))
    (∀ e ∈ s.cores, Map.find s.cores e.1 = some e.2) →
    ((∀ c, ∀ m ∈ (s.core c).cmds, m.started = false) → Leaves (.atsInvalidateRequest pasid a n) s (fun s' => s'.mem = s.mem ∧
      ∀ c x, x ∈ (s'.core c).tlb ↔ x ∈ (s.core c).tlb ∧ ¬meets x)) ∧
    (∀ c x, ∀ m ∈ (s.core c).cmds, m.started = true → m.op = 0xA3 → x ∈ m.src → meets x → exec (.atsInvalidateRequest pasid a n) s = .next s))

/-- Invalidations and host translations: R390 to R393, R398. -/
def Obligations.InvalidationsAndHostTranslations : Prop := Invalidations ∧ HostTranslations

/-! ### Queues and launches -/

namespace Sys2Proof.Claims

/-- The host reaches the device (R410), and the device is READY with its own firmware (R412). -/
def HostUp (s : State) : Prop := s.link = true ∧ s.mainPower = true ∧ s.present = true
def DeviceUp (s : State) : Prop := HostUp s ∧ s.boot.ready = true ∧ s.boot.recovery = false

/-- An access of the queue engine of slot `q` finds the translation `x` in the cache of the I/O die (R372, R389), which its partition may use
(R420). -/
def QMaps (s : State) (q va : Nat) (wr : Bool) (x : Xlat) : Prop :=
  va < 2 ^ 52 ∧ va / 2 ^ 48 ≠ 15 ∧ findTlb (s.die 4).dtlb (s.slot q).pasid va wr = some x ∧ s.poisoned (x.at va) = false ∧
    ((s.slot q).pasid = 0 ∨ (s.slot q).part = x.part)

/-- No queue control block lies in host memory: no die has a host page of PASID 0. -/
def QcbsOnDevice (s : State) : Prop := ∀ e ∈ s.dies, ∀ x ∈ e.2.dtlb, x.pasid = 0 → x.loc.host = false

/-- The page has been written before: its leaf has D (R388). -/
def Marked (s : State) (x : Xlat) : Prop := ∀ l, x.leaf = some l → s.devNat l 8 / 64 % 2 = 1

/-- Slot `q` works and issues nothing (R368, R371, R374); no access of it is under way. -/
def Works (x : Slot) : Prop := x.bound = true ∧ x.unbinding = none ∧ x.err = 0 ∧ x.record = none ∧ x.launch = none
def Quiet (x : Slot) : Prop := x.xs = .idle ∧ x.src = [] ∧ x.laXs = .idle ∧ x.laSrc = []

/-- A number of `n` bytes of a packet or descriptor. -/
def num (bs : List Byte) (off n : Nat) : Nat := leNat ((bs.drop off).take n)

/-- Packet `p` with bytes `bs` of type `ty` comes to issue on slot `q`, and its form is right (R369, R370). -/
def AtIssue (s : State) (q : Nat) (p : LaPkt) (bs : List Byte) (ty : Nat) : Prop :=
  let x := s.slot q
  Works x ∧ Quiet x ∧ x.phase = .idle ∧ x.pkt = none ∧ x.la.head? = some p ∧ p.bytes = some bs ∧ num bs 0 1 = ty ∧ pktBad bs p.lvl = false ∧
    x.skip = 0 ∧ p.lvl = x.stack.length ∧ (x.stack = [] → x.head = none) ∧ (x.stack ≠ [] → x.head.isSome)

/-- The packet is over with `status`: at level 0 its record is due, or written or lost, and COMMIT and CRWR advance with it; within a called
buffer the level moves on to its next packet, without a record (R371), and IRQ raises the queue's interrupt (R369). -/
def Completes (s s' : State) (q : Nat) (bs : List Byte) (status : Nat) : Prop :=
  let x := s.slot q
  let y := s'.slot q
  y.pkt = none ∧ y.phase = .idle ∧ y.bound = true ∧
    (x.stack = [] → y.stack = [] ∧
      (y.record = some { seq := BitVec.ofNat 64 (num bs 8 8), status := status, irq := decide (num bs 1 1 % 2 = 1) } ∧ y.commit = x.commit ∧
        y.crwr = x.crwr ∨
      y.record = none ∧ y.commit = (x.commit + 1) % 2 ^ 64 ∧ y.crwr = (x.crwr + 1) % 2 ^ 64)) ∧
    (∀ l ls, x.stack = l :: ls → 1 < l.left → status % 256 < 4 → y.record = none ∧ y.commit = x.commit ∧
      (num bs 1 1 % 2 = 0 → s'.irqs = s.irqs) ∧
      (num bs 1 1 % 2 = 1 → (s.fn x.func).msix = true → (s.fn x.func).mask.getLsbD x.qnum = false → s.link = true →
        s'.irqs = (x.func, x.qnum) :: s.irqs) ∧
      ∃ l', y.stack = l' :: ls ∧ l'.addr = l.addr + 64 ∧ l'.left = l.left - 1 ∧
        l'.status = if l.status % 256 = 0 ∧ 2 ≤ status % 256 then status else l.status)

/-- The 4-byte word at a host place. -/
def hostWord (s : State) (a : Nat) : Nat := leNat (Map.getRange 0 s.host a 4)

end Sys2Proof.Claims

/-- R365, R366, R368, R371, R372: a write of KWR by 8 aligned bytes is kept, and of an unbound queue sets its pending bit; the engine accepts an index
above WRITE, goes to ERROR 1 beyond RSIZE, and reads the packets one by one; a held record is written when the ring has room. -/
def Obligations.QueueEngine : Prop :=
  (∀ (s : State) (f off size : Nat) (v : W64), HostUp s → (s.fn f).flr = false → f = 0 ∨ (s.vfs = true ∧ f ≤ 256) →
    (size = 8 → off % 8 = 0 → off < 0x200 → Leaves (.kwrWrite f off size v) s (fun s' =>
      (∀ g q, q < 64 → Map.get 0 s'.kwr (g * 64 + q) = if g = f ∧ q = off / 8 then v else Map.get 0 s.kwr (g * 64 + q)) ∧
      (∀ cc, (∀ e ∈ s.slots, ¬(e.2.bound = true ∧ e.2.unbinding = none ∧ e.2.func = f ∧ e.2.qnum = off / 8)) → s.funcCc f = some cc →
        f * 64 + off / 8 ∈ s'.pendBits ∧ (s.kpsum cc = 0 → (s'.core (208 + cc)).evt = (s.core (208 + cc)).evt ||| 1)) ∧
      ((∃ e ∈ s.slots, e.2.bound = true ∧ e.2.unbinding = none ∧ e.2.func = f ∧ e.2.qnum = off / 8) → s'.pendBits = s.pendBits))) ∧
    (size ≠ 8 ∨ off % 8 ≠ 0 ∨ 0x200 ≤ off → exec (.kwrWrite f off size v) s = .next s)) ∧
  (∀ (s : State) (f off size : Nat) (v : W64), 256 < f ∨ (f ≠ 0 ∧ s.vfs = false) ∨ (s.fn f).flr = true →
    exec (.kwrWrite f off size v) s = .next s) ∧
  (∀ (s : State) (q : Nat),
    let x := s.slot q
    let k := (Map.get 0 s.kwr (x.func * 64 + x.qnum)).toNat
    Works x → Quiet x →
    (x.write < k → k ≤ x.commit + x.rsize → Leaves (.queueLookahead q false) s (fun s' => (s'.slot q).write = k)) ∧
    (x.commit + x.rsize < k → x.write < k → Leaves (.queueLookahead q false) s (fun s' => (s'.slot q).err = 1 ∧ (s'.slot q).la = x.la)) ∧
    (k ≤ x.write → x.laJoin = false → x.la.length < 1024 →
      (∀ y, x.laStack = [] → x.stack = [] → x.laPkt = none → x.read < x.write → QMaps s q (x.ring + 64 * (x.read % x.rsize)) false y →
        let bs := s.readLoc (y.at (x.ring + 64 * (x.read % x.rsize))) 64
        (num bs 0 1 ≠ 1 → Leaves (.queueLookahead q false) s (fun s' =>
          (s'.slot q).la = x.la ++ [{ bytes := some bs, lvl := 0 }] ∧ (s'.slot q).read = (x.read + 1) % 2 ^ 64 ∧ (s'.slot q).write = x.write)) ∧
        (num bs 0 1 = 1 → pktBad bs 0 = false → Leaves (.queueLookahead q false) s (fun s' =>
          (s'.slot q).la = x.la ∧ (s'.slot q).laPkt = some { bytes := some bs, lvl := 0 } ∧ (s'.slot q).read = x.read)) ∧
        Leaves (.queueLookahead q true) s (fun s' => (s'.slot q).err = 2 ∧ (s'.slot q).la = x.la)) ∧
      (∀ y p bs, x.laStack = [] → x.stack = [] → x.laPkt = some p → p.bytes = some bs → num bs 0 1 = 1 → pktBad bs p.lvl = false → p.lvl = 0 →
        QMaps s q (num bs 16 8) false y →
        Leaves (.queueLookahead q false) s (fun s' => (s'.slot q).laPkt = none ∧ (s'.slot q).read = (x.read + 1) % 2 ^ 64 ∧
          (s'.slot q).la = x.la ++ [{ p with desc := some (s.readLoc (y.at (num bs 16 8)) 256) }]) ∧
        Leaves (.queueLookahead q true) s (fun s' => (s'.slot q).laPkt = none ∧ (s'.slot q).la = x.la ++ [{ p with desc := none }])) ∧
      (∀ y l ls, x.laStack = l :: ls → ls.length = 7 → l.left ≠ 0 → x.laPkt = none → x.stack = [] ∨ x.head.isSome → QMaps s q l.addr false y →
        num (s.readLoc (y.at l.addr) 64) 0 1 = 2 → pktBad (s.readLoc (y.at l.addr) 64) 8 = false →
        Leaves (.queueLookahead q false) s (fun s' => (s'.slot q).err = 3 ∧ (s'.slot q).la = x.la)))) ∧
  (∀ (s : State) (q : Nat) (r : CRec) (y : Xlat),
    let x := s.slot q
    let va := x.cring + 16 * (x.crwr % x.crsize)
    x.bound = true → x.record = some r → Quiet x → Mapped0 s (x.qcb.toNat + 0x48) 8 →
    ((x.crwr + 2 ^ 64 - s.nat0 (x.qcb.toNat + 0x48) 8) % 2 ^ 64 = x.crsize → exec (.queueLookahead q false) s = .next s) ∧
    ((x.crwr + 2 ^ 64 - s.nat0 (x.qcb.toNat + 0x48) 8) % 2 ^ 64 ≠ x.crsize → QMaps s q va true y → y.loc.host = true → QcbsOnDevice s →
      Leaves (.queueLookahead q true) s (fun s' => (s'.slot q).err = 4 ∧ (s'.slot q).record = none ∧ (s'.slot q).commit = (x.commit + 1) % 2 ^ 64) ∧
      Leaves (.queueLookahead q false) s (fun s' =>
        let a := (y.at va).addr
        let b (off n : Nat) : Nat := leNat (Map.getRange 0 s'.host (a + off) n)
        b 0 8 = r.seq.toNat ∧ b 8 4 = r.status % 2 ^ 32 ∧ b 12 4 = s.ptime / 1024 % 2 ^ 32 ∧ (s'.slot q).record = none ∧
          (s'.slot q).commit = (x.commit + 1) % 2 ^ 64 ∧ (s'.slot q).crwr = (x.crwr + 1) % 2 ^ 64 ∧
          (∀ i, i < a ∨ a + 16 ≤ i → Map.get 0 s'.host i = Map.get 0 s.host i))))

/-- R370, R371, R373, R374: what each packet but LAUNCH and FRAME does when it issues. -/
def Obligations.PacketsIssue : Prop :=
  (∀ (s : State) (q : Nat) (p : LaPkt) (bs : List Byte),
    let x := s.slot q
    let done (i : Instr) (st : Nat) : Prop := Leaves i s (fun s' => Completes s s' q bs st ∧ (s'.slot q).skip = 0)
    let addr := num bs 16 8
    (AtIssue s q p bs 9 → done (.nopPacket q) 0) ∧
    (AtIssue s q p bs 4 → done (.joinPacket q) 0 ∧ Leaves (.joinPacket q) s (fun s' => (s'.slot q).laJoin = false)) ∧
    (AtIssue s q p bs 2 → x.stack.length < 8 → Leaves (.callPacket q) s (fun s' => let y := s'.slot q
      y.stack = { addr := addr, left := num bs 24 4, irq := decide (x.stack ≠ [] ∧ num bs 1 1 % 2 = 1) } :: x.stack ∧ y.pkt = none ∧ y.record = none ∧ y.commit = x.commit ∧ y.la = x.la.tail ∧
        (x.stack = [] → y.head = some { seq := BitVec.ofNat 64 (num bs 8 8), status := 0, irq := decide (num bs 1 1 % 2 = 1) }))) ∧
    (AtIssue s q p bs 2 → x.stack.length = 8 → Leaves (.callPacket q) s (fun s' => (s'.slot q).err = 3)) ∧
    (∀ l, AtIssue s q p bs 3 → x.stack = [l] → ∀ h, x.head = some h → Leaves (.returnPacket q) s (fun s' => let y := s'.slot q
      y.stack = [] ∧ y.pkt = none ∧ y.head = none ∧
        (y.record = some { h with status := l.status } ∨ y.record = none ∧ y.commit = (x.commit + 1) % 2 ^ 64))) ∧
    (∀ l o os, AtIssue s q p bs 3 → x.stack = l :: o :: os → l.status % 256 < 4 → 1 < o.left → Leaves (.returnPacket q) s (fun s' => let y := s'.slot q
      y.record = none ∧ y.commit = x.commit ∧ ∃ o', y.stack = o' :: os ∧ o'.addr = o.addr + 64 ∧ o'.left = o.left - 1)) ∧
    (∀ y, AtIssue s q p bs 5 → QMaps s q addr false y →
      (leNat (s.readLoc (y.at addr) 4) ≠ 0 → done (.condPacket q false) 0) ∧
      (leNat (s.readLoc (y.at addr) 4) = 0 → x.stack = [] → Leaves (.condPacket q false) s (fun s' => Completes s s' q bs 0 ∧
        (s'.slot q).skip = num bs 24 4)) ∧
      Leaves (.condPacket q true) s (fun s' => Completes s s' q bs 5)) ∧
    (∀ y l ls, AtIssue s q p bs 6 → QMaps s q addr true y → x.stack = l :: ls → 1 < l.left → y.loc.host = true → s.migrating y = false → QcbsOnDevice s →
      let a := (y.at addr).addr
      Leaves (.signalPacket q false) s (fun s' => Completes s s' q bs 0 ∧
        (num bs 32 4 = 0 → hostWord s' a = num bs 24 4) ∧
        (num bs 32 4 = 1 → hostWord s' a = num bs 24 4 ∧ hostWord s' (a + 4) = num bs 28 4) ∧
        (num bs 32 4 = 2 → hostWord s' a = (hostWord s a + num bs 24 4) % 2 ^ 32) ∧
        ∀ i, i < a ∨ a + (if num bs 32 4 = 1 then 8 else 4) ≤ i → Map.get 0 s'.host i = Map.get 0 s.host i)) ∧
    (∀ y, AtIssue s q p bs 6 → QMaps s q addr true y → s.migrating y = true → Leaves (.signalPacket q false) s (fun s' =>
      s'.host = s.host ∧ (s'.slot q).pkt = some p ∧ (s'.slot q).commit = x.commit)) ∧
    (∀ y, AtIssue s q p bs 6 → QMaps s q addr true y → x.stack = [] → y.loc.host = true → s.migrating y = false → Marked s y →
      (x.crwr + 2 ^ 64 - s.nat0 (x.qcb.toNat + 0x48) 8) % 2 ^ 64 = x.crsize → Leaves (.signalPacket q false) s (fun s' =>
        s'.host = s.host ∧ (∀ i, Map.get Config.blank s'.mem i = Map.get Config.blank s.mem i) ∧ (s'.slot q).pkt = some p ∧ (s'.slot q).commit = x.commit)) ∧
    (AtIssue s q p bs 7 → Leaves (.waitPacket q) s (fun s' => let y := s'.slot q
      y.pkt = some p ∧ y.commit = x.commit ∧ y.phase = .wait (if num bs 32 4 = 0 then none else some (s.ptime + num bs 32 4 * 1000))))) ∧
  (∀ (s : State) (q : Nat) (p : LaPkt) (bs : List Byte) (till : Option Nat),
    let x := s.slot q
    let addr := num bs 16 8
    let v := num bs 24 4
    let op := num bs 28 4
    Works x → Quiet x → x.phase = .wait till → x.pkt = some p → p.bytes = some bs → (x.stack = [] → x.head = none) →
    (∀ y, QMaps s q addr (op == 3) y → y.loc.host = true → s.migrating y = false → QcbsOnDevice s → op ≤ 3 →
      let a := (y.at addr).addr
      let m := hostWord s a
      let holds := (op = 0 ∧ v ≤ m) ∨ (op = 1 ∧ m = v) ∨ (op = 2 ∧ m ≠ v) ∨ (op = 3 ∧ v ≤ m)
      (holds → ∀ l ls, x.stack = l :: ls → 1 < l.left → x.head.isSome → Leaves (.waitSatisfied q false) s (fun s' => Completes s s' q bs 0 ∧
        hostWord s' a = if op = 3 then m - v else m)) ∧
      (holds → x.stack = [] → Leaves (.waitSatisfied q false) s (fun s' => Completes s s' q bs 0)) ∧
      (¬holds → Leaves (.waitSatisfied q false) s (fun s' => s'.host = s.host ∧ (s'.slot q).phase = .wait till ∧ (s'.slot q).pkt = some p))) ∧
    (∀ n, till = some n → n ≤ s.ptime → x.stack = [] → Leaves (.waitTimeout q) s (fun s' => Completes s s' q bs 6)) ∧
    (∀ n, till = some n → s.ptime < n → exec (.waitTimeout q) s = .next s) ∧
    (till = none → exec (.waitTimeout q) s = .next s)) ∧
  (∀ (s : State) (q : Nat) (p : LaPkt) (bs : List Byte),
    let x := s.slot q
    Works x → Quiet x → x.phase = .idle → x.pkt = none → x.la.head? = some p → x.stack = [] → x.head = none → p.lvl = 0 →
    (p.bytes = some bs → 0 < x.skip → ∀ i, (num bs 0 1 = 9 ∧ i = Instr.nopPacket q ∨ num bs 0 1 = 2 ∧ i = .callPacket q ∨ num bs 0 1 = 3 ∧ i = .returnPacket q ∨
        num bs 0 1 = 4 ∧ i = .joinPacket q ∨ num bs 0 1 = 5 ∧ i = .condPacket q false ∨ num bs 0 1 = 6 ∧ i = .signalPacket q false ∨ num bs 0 1 = 7 ∧ i = .waitPacket q) →
      Leaves i s (fun s' => Completes s s' q bs 1 ∧ (s'.slot q).skip = x.skip - 1)) ∧
    (p.bytes = none → x.skip = 0 → Leaves (.nopPacket q) s (fun s' => Completes s s' q [] 5)) ∧
    (p.bytes = some bs → num bs 0 1 = 0 ∨ 9 < num bs 0 1 → x.skip = 0 → Leaves (.nopPacket q) s (fun s' => Completes s s' q bs 4)) ∧
    (p.bytes = some bs → num bs 0 1 = 9 → num bs 4 4 ≠ 0 → x.skip = 0 → Leaves (.nopPacket q) s (fun s' => Completes s s' q bs 4)) ∧
    (p.bytes = some bs → num bs 0 1 = 3 → x.skip = 0 → Leaves (.returnPacket q) s (fun s' => Completes s s' q bs 4)))

namespace Sys2Proof.Claims

/-- The fields of a descriptor that R322 checks with DETAIL 1; DET = 1 ignores CHUNK. -/
def DescriptorFits (d : List Byte) : Prop :=
  let n := num d
  let fl := n 8 4
  n 0 4 = 0x4C415A4B ∧ n 4 2 = 1 ∧ 1 ≤ n 6 1 ∧ n 6 1 ≤ 8 ∧ n 7 1 = 0 ∧ fl < 64 ∧ n 20 4 = 0 ∧ n 80 16 = 0 ∧ n 224 32 = 0 ∧
    (fl % 2 = 1 → 1 ≤ n 12 4 ∧ n 12 4 ≤ 65535) ∧ (fl % 2 = 0 → n 12 4 = 0) ∧
    (∀ i, i < 3 → (fl % 2 = 0 → n (40 + 16 * i) 4 ≤ 65535) ∧ n (44 + 16 * i) 4 = 0) ∧
    ∀ v, v < n 6 1 → let a := 96 + 16 * v
      n (a + 10) 1 ∈ [8, 16, 32, 64] ∧ 1 ≤ n (a + 8) 2 ∧ n (a + 8) 2 ≤ 2048 ∧ n (a + 8) 2 % n (a + 10) 1 = 0 ∧ n (a + 11) 1 ≤ 3 ∧ n (a + 12) 4 % 256 = 0

/-- SCRATCH of every variant is within the scratchpad (R322, R371). -/
def ScratchFits (d : List Byte) : Prop := ∀ v, v < num d 6 1 → num d (96 + 16 * v + 12) 4 ≤ 786432

/-- The minimum level of variant `v` fits the granules of every slot: 16 for its phrases, 64 threads each, slot after slot (R12, R29). -/
def GranulesFit (d : List Byte) (v : Nat) : Prop :=
  ∀ sl, sl < 4 → num d (96 + 16 * v + 11) 1 * (((num d (96 + 16 * v + 8) 2 + 63) / 64 + 3 - sl) / 4) ≤ 16

end Sys2Proof.Claims

/-- R28, R29, R322, R371, R375: a LAUNCH is refused for a bad descriptor, SCRATCH, NLC or minimum level; else the variant of the least capacity that reaches
the extent is selected, the lowest of equals, or the largest where none does, and its logical cores wait for cores. That detail 1 comes before detail 4, and
that a variant of T = 0 is refused, is the model's reading (log 55). -/
def Sys2Proof.Claims.LaunchSelects : Prop :=
  ∀ (s : State) (q : Nat) (p : LaPkt) (bs d : List Byte),
    let fl := num d 8 4
    let nlc := num bs 44 4
    let nv := num d 6 1
    let ext := num bs 40 4
    let cap (v : Nat) : Nat := num d (96 + 16 * v + 4) 4
    let refused (detail : Nat) : Prop := Leaves (.launchPacket q false) s (fun s' => Completes s s' q bs (3 + detail * 2 ^ 16))
    let counted := (fl % 2 = 0 ∧ 1 ≤ nlc ∧ nlc ≤ 65535) ∨ (fl % 2 = 1 ∧ (nlc = 0 ∨ nlc = num d 12 4))
    AtIssue s q p bs 1 → p.desc = some d → (s.slot q).resume = .fresh →
    (¬DescriptorFits d → refused 1) ∧
    (DescriptorFits d → ¬ScratchFits d → refused 4) ∧
    (DescriptorFits d → ScratchFits d → ¬counted → refused 3) ∧
    (DescriptorFits d → ScratchFits d → counted → num bs 32 8 = 0 → nv = 1 → ¬GranulesFit d 0 → ext ≤ cap 0 → refused 2) ∧
    (DescriptorFits d → ScratchFits d → counted → num bs 32 8 = 0 → (∀ v, v < nv → GranulesFit d v) → (s.slot q).save = 0 →
      Leaves (.launchPacket q false) s (fun s' =>
        let n := if fl % 2 = 0 then nlc else num d 12 4
        (s'.slot q).phase = .launch ∧ (s'.slot q).pkt = some p ∧ ∃ l, (s'.slot q).launch = some l ∧ l.desc = d ∧ l.ncore = n ∧
          l.cores = List.replicate n .waiting ∧ l.addr.toNat = num bs 16 8 ∧ l.param.toNat = num bs 24 8 ∧ l.wdog = num bs 48 4 ∧ l.var < nv ∧
          (l.nofit = false → ext ≤ cap l.var ∧ ∀ u, u < nv → ext ≤ cap u → cap l.var ≤ cap u ∧ (cap u = cap l.var → l.var ≤ u)) ∧
          (l.nofit = true → ∀ u, u < nv → cap u < ext ∧ cap u ≤ cap l.var ∧ (cap u = cap l.var → l.var ≤ u))))

/-- R12, R23, R26, R27, R336, R361, R376, R378: a free core of a partition takes the lowest logical core that waits, and starts the threads of the
variant at its entry header in their default groups, or, of one that was saved, the threads of its image at the restore entry, its run time going on (R339); an instance whose threads
have exited retires its commands, writes back its dirty lines, as long as there are some, and ends, and with the last of them its launch, with OK. That what
the engine keeps beside an image goes with its logical core is the model's choice (log 111). -/
def Sys2Proof.Claims.CoresRunInstances : Prop :=
  (∀ (s : State) (c p q j : Nat) (x : Part) (l : Launch),
    let sl := s.slot q
    let n (off k : Nat) : Nat := num l.desc off k
    let v := 96 + 16 * l.var
    let t := n (v + 8) 2
    let w := n (v + 10) 1
    c < 208 → s.isFree c = true → s.parts = [(p, x)] → x.gang = false → (s.backed p).contains c = true → setBits x.slots = [q] →
    sl.launch = some l → sl.preempting = false → l.closed = false → l.abort = false → n 8 4 % 2 = 0 → j < l.ncore → l.cores[j]? = some .waiting →
    (∀ i, i < j → l.cores[i]? = some .ended ∨ ∃ e, l.cores[i]? = some (.running e)) → l.cores.length = l.ncore → 0 < w → w ≤ 64 →
    Leaves (.coreAllocation c) s (fun s' =>
      let k := s'.core c
      (∃ i, k.inst = some i ∧ i.lcore = BitVec.ofNat 32 j ∧ i.ncore = BitVec.ofNat 32 l.ncore ∧ i.launch = l.addr ∧ i.param = l.param ∧
        i.codebase.toNat = n 24 8 ∧ i.w = w ∧ i.t = t ∧ i.pasid = sl.pasid ∧ i.slot = q ∧ i.tagchk = decide (n 8 4 / 2 % 2 = 1) ∧
        i.unichk = decide (n 8 4 / 4 % 2 = 1)) ∧
      k.tvec.toNat = n 16 4 / 8 * 8 ∧ (s'.slot q).launch = some { l with cores := l.cores.set j (.running c) } ∧
      (∀ u, u < t → let th := k.thread u
        th.st = .live ∧ th.level = .kl ∧ th.pc = BitVec.ofNat 64 (n 24 8) + BitVec.ofNat 64 (n v 4) ∧ th.lk = 0 ∧ th.p = 1 ∧ th.v = [] ∧
          th.tags = [] ∧ th.hold0 = 0 ∧ th.fpf = 0 ∧ th.status = 0 ∧ th.grp = some (u / w) ∧ (k.phrase (u / 64)).xlev.toNat = n (v + 11) 1 % 4) ∧
      (∀ u, t ≤ u → k.live u = false))) ∧
  (∀ (s : State) (c p q j : Nat) (x : Part) (l : Launch),
    let sl := s.slot q
    c < 208 → s.isFree c = true → s.parts = [(p, x)] → x.gang = false → (s.backed p).contains c = true → setBits x.slots = [q] →
    sl.launch = some l → sl.preempting = false → l.expired = false → l.abort = false → num l.desc 8 4 % 2 = 0 → j < l.ncore → l.cores[j]? = some .saved →
    (∀ i, i < j → l.cores[i]? = some .ended ∨ ∃ e, l.cores[i]? = some (.running e)) → l.cores.length = l.ncore → sl.save ≠ 0 →
    Mapped0 s ((sl.save + BitVec.ofNat 64 (j * 0x260000)).toNat + 0x0C) 4 →
    Leaves (.coreAllocation c) s (fun s' =>
      let k := s'.core c
      (∃ i, k.inst = some i ∧ i.lcore = BitVec.ofNat 32 j ∧ i.restored = true ∧ i.slot = q ∧ i.pasid = sl.pasid ∧ i.carry = Map.get {} l.carry j ∧
        i.start = s.ptime - (Map.get {} l.carry j).ran) ∧
      k.sphase = 0 ∧ (s'.slot q).launch = some { l with cores := l.cores.set j (.running c) } ∧
      ∃ n, n ≤ 2048 ∧ (∀ u, n ≤ u → k.live u = false) ∧ ∀ u, u < n → let th := k.thread u
        th.st = .live ∧ th.level = .sl ∧ th.pc = (s.core c).fwRestore ∧ th.save = sl.save + BitVec.ofNat 64 (j * 0x260000) ∧ th.grp = none)) ∧
  (∀ (s : State) (c q j : Nat) (i : Inst) (l : Launch) (pk : LaPkt) (bs : List Byte),
    let k := s.core c
    let x := s.slot q
    c < 208 → k.inst = some i → k.liveTids = [] → k.saving = false → i.restored = false → k.sset = none →
    (i.ending = false → exec (.instanceEnd c) s = .next (s.updCore c (fun k => { k with inst := some { i with ending := true } }))) ∧
    (i.ending = true → i.flushed = false → k.cmds ≠ [] → exec (.instanceEnd c) s = .next s) ∧
    (i.ending = true → i.flushed = false → k.cmds = [] → Leaves (.instanceEnd c) s (fun s' => (s'.core c).inst = some { i with flushed := true } ∧
      (s'.core c).scratch = k.scratch ∧ s'.mem = s.mem ∧ ((∀ e ∈ k.lines, e.2.st < 2) → (s'.core c).mops = k.mops) ∧
      ∀ r n, k.regionAt (n * 256) = some r → 2 ≤ (k.line n).st → (k.line n).wback = false →
        ((s'.core c).line n).wback = true ∧ ∃ m ∈ (s'.core c).mops, m.kind = .wback n ∧ m.va = (k.region r).va.toNat + (n * 256 - (k.region r).spbase.toNat))) ∧
    (i.ending = true → i.flushed = true → (∃ m ∈ k.mops, ∃ n, m.kind = .wback n) → exec (.instanceEnd c) s = .next s) ∧
    (∀ r n, i.ending = true → i.flushed = true → k.cmds = [] → k.mops = [] → k.regionAt (n * 256) = some r → 2 ≤ (k.line n).st → (k.line n).wback = false →
      Leaves (.instanceEnd c) s (fun s' => (s'.core c).inst = some i ∧ ((s'.core c).line n).wback = true)) ∧
    (i.ending = true → i.flushed = true → k.cmds = [] → k.mops = [] → (∀ e ∈ k.lines, e.2.st < 2) → i.slot = q → i.lcore.toNat = j → i.gang = false → x.save = 0 → Leaves (.instanceEnd c) s (fun s' =>
      (s'.core c).inst = none ∧ (s'.core c).lines = [] ∧ (∀ r, ((s'.core c).region r).isLive = false) ∧
      (x.launch = some l → x.pkt = some pk → pk.bytes = some bs → x.bound = true → x.preempting = false → l.abort = false → l.expired = false → l.trap = none →
        x.phase = .launch → x.record = none → x.stack = [] →
        ((∀ y ∈ l.cores.set j .ended, y = .ended) → (s'.slot q).launch = none ∧
          Completes s s' q bs ((if l.nofit then 2048 else 0) + l.var * 256)) ∧
        (∀ e, LcSt.running e ∈ l.cores.set j .ended →
          (s'.slot q).launch = some { l with cores := l.cores.set j .ended, carry := Map.erase l.carry j }))))) ∧
  (∀ (s : State) (c : Nat), (s.core c).liveTids ≠ [] → exec (.instanceEnd c) s = .next s)

/-- Launches: R12, R23, R26 to R29, R322, R336, R371, R375, R376, R378. -/
def Obligations.LaunchesRunOnCores : Prop := LaunchSelects ∧ CoresRunInstances

/-- R302, R337, R376, R379: the watchdog of a bound launch counts %ptime and expires after WDOG microseconds, every thread at KL of its cores trapping with the
microseconds it ran; TICK is raised when the interval of %tick has elapsed, and the interval begins again. -/
def Sys2Proof.Claims.WatchdogAndTick : Prop :=
  (∀ (s : State) (q : Nat) (l : Launch),
    let x := s.slot q
    x.launch = some l → x.bound = true →
    (l.wdog ≠ 0 → l.expired = false → l.wdog * 1000 ≤ l.ran → l.running = true → Leaves (.launchWatchdog q) s (fun s' =>
      (∃ l', (s'.slot q).launch = some l' ∧ l'.expired = true ∧ l'.closed = true ∧ l'.cores = l.cores ∧ l'.desc = l.desc) ∧
      ∀ (c j : Nat) (i : Inst), c < 208 → (s.core c).inst = some i → l.cores[j]? = some (LcSt.running c) → (∀ n : Nat, l.cores[n]? = some (LcSt.running c) → n = j) → ∀ t, (s.core c).live t = true → ((s.core c).thread t).sub = none →
        let th := (s.core c).thread t
        let y := (s'.core c).thread t
        let v : W64 := BitVec.ofNat 64 ((s.ptime - i.start) / 1000)
        y.v = th.v ∧ y.p = th.p ∧
          (th.level = .kl → y.tcause = 0x11 ∧ y.tpc = th.pc ∧ y.tval = v ∧ y.tlev = 0 ∧ y.level = .sl ∧ y.pc = (s.core c).fwEntry) ∧
          (th.level ≠ .kl → y.wdog = some v ∧ y.pc = th.pc ∧ y.level = th.level))) ∧
    (l.wdog = 0 ∨ l.expired = true ∨ l.ran < l.wdog * 1000 → exec (.launchWatchdog q) s = .next s) ∧
    (∀ n l', ((s.passTime n).slot q).launch = some l' → l'.ran = l.ran + ((s.passTime n).ptime - s.ptime))) ∧
  (∀ (s : State) (cc : Nat), cc < 8 →
    let k := s.core (208 + cc)
    (k.tickIv ≠ 0 → k.tickLeft = 0 → exec (.tick cc) s = .next (s.updCore (208 + cc) (fun k =>
      { k with tickLeft := k.tickIv.toNat * 1000, evt := k.evt ||| 4 }))) ∧
    (k.tickIv = 0 ∨ 0 < k.tickLeft → exec (.tick cc) s = .next s))

/-- Pre-emption, watchdog and TICK: R302, R308, R337, R344, R376, R379. -/
def Obligations.PreemptAndWatchdog : Prop := PreemptDelivery ∧ WatchdogAndTick

/-- R302, R353 to R355, R419: a tick of a partition that shares its slices counts down the tenant's turn; the last one begins the switch, with a
PREEMPT of bit 8 to every core of the tenant; a deadline that a die misses discards it and is counted; after three misses a PREEMPT of bit 10
precedes the tick; a core that waits long on a parked copy gets a PREEMPT of bit 9; a core that FREE leaves after a committed switch makes the shadow area
the save area. That the engine's words go along is the model's reading (log 41). -/
def Obligations.GangSwitches : Prop :=
  (∀ (s : State) (p : Nat) (x : Part),
    let g := s.gang p
    let gangIs (s' : State) (h : Gang) : Prop := Map.find s'.gangs (s.gangKey p) = some h
    let mine (d : Nat) : Prop := (s.backed p).contains d = true ∧ ∃ i, (s.core d).inst = some i ∧ i.part = p
    let told (s' : State) (v : Nat) : Prop := ∀ d, d < 208 → (mine d → BitVec.ofNat 64 v ∈ (s'.core d).ipis) ∧ (¬mine d → s'.core d = s.core d)
    s.partOf p = some x → x.gang = true → g.tenant = p → x.cc < 8 →
    (g.switching = false → g.since + x.tick * 1000 ≤ s.ptime →
      ((s.tenants p).length ≤ 1 → Leaves (.gangTick p) s (fun s' => gangIs s' { g with since := s.ptime, prestop := false } ∧
        (s'.core (208 + x.cc)).evt = (s.core (208 + x.cc)).evt ||| 32)) ∧
      (1 < (s.tenants p).length → 1 < g.left → Leaves (.gangTick p) s (fun s' =>
        gangIs s' { g with since := s.ptime, prestop := false, left := g.left - 1 })) ∧
      (1 < (s.tenants p).length → g.left ≤ 1 → (∃ d, mine d) → Leaves (.gangTick p) s (fun s' =>
        (∃ h, gangIs s' h ∧ h.switching = true ∧ h.commits = none ∧ h.tenant = p ∧ h.since = s.ptime) ∧ told s' (x.cc + 256)))) ∧
    (g.switching = false → s.ptime < g.since + x.tick * 1000 → exec (.gangTick p) s = .next s) ∧
    (g.switching = true → g.commits = none → (∀ d i, mine d → (s.core d).inst = some i → i.reported = true) → Leaves (.gangTick p) s (fun s' =>
      ∃ h, gangIs s' h ∧ h.commits.isSome ∧ h.switching = true)) ∧
    (g.switching = true → g.commits = none → g.since + x.deadline * 1000 ≤ s.ptime → (∃ d i, mine d ∧ (s.core d).inst = some i ∧ i.reported = false) →
      (∀ d i, mine d → (s.core d).inst = some i → Mapped0 s ((s.slot i.slot).qcb.toNat + 0x64) 4) →
      Leaves (.saveDeadline p) s (fun s' => gangIs s' { g with switching := false, left := 1, misses := g.misses + 1 } ∧
        Map.find s'.parts p = some { x with lateSave := x.lateSave + 1 } ∧
        s'.devNat (s.partbase.toNat + 64 * p + 32) 4 = (x.lateSave + 1).toNat ∧ ∀ d, s'.core d = s.core d)) ∧
    (g.switching = false ∨ s.ptime < g.since + x.deadline * 1000 → exec (.saveDeadline p) s = .next s) ∧
    (g.switching = false → g.prestop = false → 3 ≤ g.misses → g.since + x.tick * 1000 ≤ s.ptime + 200000 → Leaves (.prestop p) s (fun s' =>
      gangIs s' { g with prestop := true } ∧ told s' (x.cc + 1024))) ∧
    (g.misses < 3 → exec (.prestop p) s = .next s)) ∧
  (∀ (s : State) (c cc : Nat) (i : Inst),
    let k := s.core c
    c < 208 → k.inst = some i → s.ccOf (some i.part) = some cc →
    (∀ m d tok f, m ∈ k.cmds → m.xs = .parked d tok → f ∈ (s.die d).faults → f.token = tok →
      (∃ n ∈ f.users, n.user = .cmd c m.id ∧ n.since + 100000 < s.ptime) → i.save ≠ 0 → i.reported = false → i.parking = false → i.restored = false → k.saving = false → k.ipis = [] → (∀ y ∈ k.cmds, y.op ≠ 0xA4) →
      Leaves (.parkThreshold c) s (fun s' => s'.core c = { k with ipis := [BitVec.ofNat 64 (cc + 512)] } ∧ ∀ d, d ≠ c → s'.core d = s.core d)) ∧
    (i.parking = false → i.reported = false → i.save = 0 → exec (.parkThreshold c) s = .next s) ∧
    (i.parking = true ∨ (i.gang = false ∧ (s.slot i.slot).preempting = true) → i.reported = true → i.restored = false →
      Mapped0 s ((s.slot i.slot).qcb.toNat + 0x64) 4 → s.nat0 ((s.slot i.slot).qcb.toNat + 0x64) 4 = 0 → Leaves (.parkThreshold c) s (fun s' =>
      s'.core c = { k with inst := some { i with reported := false } }))) ∧
  (∀ (s : State) (c : Nat) (i : Inst),
    let k := s.core c
    let x := s.slot i.slot
    c < 208 → k.inst = some i → k.sset = none → k.saving = true → i.trap = none → i.restored = false → i.parking = false → x.launch = none →
    (i.gang = true → x.save = i.save → Leaves (.free c) s (fun s' => (s'.slot i.slot).save = x.shadow ∧ (s'.slot i.slot).shadow = x.save)) ∧
    (i.gang = false ∨ x.save ≠ i.save → Leaves (.free c) s (fun s' => (s'.slot i.slot).save = x.save ∧ (s'.slot i.slot).shadow = x.shadow)))

/-! ### The device: registers, starts, resets -/

namespace Sys2Proof.Claims

/-- The registers of 64 bits of function 0 that an aligned write of 8 bytes writes: the place, and what the state is afterwards (R392, R400, R405,
R416). -/
def wideRegisters : List (Nat × (W64 → State → State)) :=
  [(0x1400, fun v s => { s with ptbase := v }), (0x1410, fun v s => { s with invva := v }), (0x1418, fun v s => { s with invlen := v }),
   (0x1448, fun v s => { s with mig := { s.mig with va := v } }), (0x1450, fun v s => { s with mig := { s.mig with dst := v } }),
   (0x2000, fun v s => { s with pwbase := v }), (0x2010, fun v s => { s with qpbase := v }), (0x6000, fun v s => { s with partbase := v }),
   (0x6010, fun v s => { s with fpbase := v }), (0x6040, fun v s => { s with strbase := v })]

/-- Those of 32 bits, by a write of 4 bytes. -/
def narrowRegisters : List (Nat × (W32 → State → State)) :=
  [(0x1440, fun v s => { s with mig := { s.mig with pasid := v } }), (0x2008, fun v s => { s with pwcount := v }),
   (0x2018, fun v s => { s with qpcount := v }), (0x6008, fun v s => { s with partcount := v }), (0x6048, fun v s => { s with strcount := v })]

/-- A row of the partition table as it comes into force (R418). -/
def rowOf (bs : List Byte) (p : Part) : Prop :=
  p.slices.toNat = num bs 0 8 ∧ p.slots.toNat = num bs 8 8 ∧ p.cc = num bs 16 1 ∧ p.share = num bs 17 1 ∧ p.hbmw = num bs 18 2 ∧
    p.gang = decide (num bs 20 4 / 2 % 2 = 1) ∧ p.tick = (if num bs 24 4 = 0 then 2000 else num bs 24 4) ∧
    p.deadline = if num bs 28 4 = 0 then 50 else num bs 28 4

/-- Registers of BAR0 of function 0 as the host reads them: offset, bytes, value (R392, R400, R405, R411, R416, R422). -/
def readRegisters (s : State) : List (Nat × Nat × Nat) :=
  let b := s.boot
  [(0x1400, 8, s.ptbase.toNat), (0x1410, 8, s.invva.toNat), (0x1420, 4, if s.inv.isSome then 1 else 0),
   (0x145C, 4, (if s.mig.busy then 2 ^ 31 else 0) + s.mig.abandons % 256 * 256 + s.mig.result.toNat), (0x2000, 8, s.pwbase.toNat),
   (0x2018, 4, s.qpcount.toNat), (0x6000, 8, s.partbase.toNat), (0x601C, 4, s.applystat.toNat), (0x6024, 4, s.actstat.toNat),
   (0x6050, 4, (if s.locked then 2 ^ 31 else 0) + s.offset.toNat), (0x6180, 2, s.power.toNat), (0x6104, 2, (s.die 0).freq.toNat),
   (0x6168, 4, (s.die 3).droops.toNat), (0x100C, 4, (s.die 0).fqtail.toNat), (0x1308, 4, (s.die 3).fqsize.toNat),
   (0x6018, 4, 0), (0x6020, 4, 0), (0x6028, 4, 0),
   (0x3000, 4, (if b.ready then 2 ^ 31 else 0) + (if b.recovery then 2 ^ 30 else 0) + b.start.toNat * 2 ^ 28 + b.fails.toNat * 2 ^ 24 +
     b.phase.toNat * 2 ^ 16 + b.error.toNat)]

/-- A write of the fabric page leaves the counts of a queue pair that is ready afterwards, and no others (R405); no other page touches them. That the
counts begin again with STATE is the model's choice (log 114). -/
def CountsFollow (s s' : State) (off : Nat) : Prop :=
  (¬(0x2000 ≤ off ∧ off < 0x3000) → s'.qps = s.qps) ∧
  (0x2000 ≤ off → off < 0x3000 → ∀ qp, Map.get {} s'.qps qp =
    if qp < 4096 ∧ qp < s'.qpcount.toNat ∧ s'.devNat (s'.qpbase.toNat + 64 * qp) 1 = 1 then Map.get {} s.qps qp else {})

/-- The function is there: the physical one, or a virtual one while SR-IOV's VF Enable is set (R399, log 134). -/
def FnThere (s : State) (f : Nat) : Prop := f = 0 ∨ (s.vfs = true ∧ f ≤ 256)

end Sys2Proof.Claims

/-- R392, R400, R401, R405, R416: a write of a whole register of a control page sets it and no other; bit 0 of the last word of an MSI-X entry masks
its vector; a read returns the registers' fields, and 0 where there is none, which is the model's choice for pages that are not served yet (log 116); the functions 1 to
256 are there under SR-IOV's VF Enable (log 134); a write to BAR2 writes device memory, a read of it is answered with its bytes; nothing is served before READY. -/
def Sys2Proof.Claims.RegisterWrites : Prop :=
  (∀ (s : State) (v : W64), DeviceUp s → (s.fn 0).flr = false →
    (∀ e ∈ wideRegisters, Leaves (.mmioRegisterWrite 0 e.1 8 v) s (fun s' => { s' with qps := s.qps } = e.2 v s ∧ CountsFollow s s' e.1)) ∧
    (∀ e ∈ narrowRegisters, Leaves (.mmioRegisterWrite 0 e.1 4 v) s (fun s' =>
      { s' with qps := s.qps } = e.2 (v.setWidth 32) s ∧ CountsFollow s s' e.1)) ∧
    (∀ d, d < 4 → (s.die d).waiting = [] → Leaves (.mmioRegisterWrite 0 (0x1000 + 0x100 * d) 8 v) s (fun s' =>
      s'.die d = { s.die d with fqbase := v } ∧ ∀ e, e ≠ d → s'.die e = s.die e)) ∧
    (∀ n, n < 66 → Leaves (.mmioRegisterWrite 0 (0x4000 + 16 * n + 12) 4 v) s (fun s' =>
      (∀ m, m < 66 → (s'.fn 0).mask.getLsbD m = if m = n then v.getLsbD 0 else (s.fn 0).mask.getLsbD m) ∧
      ∀ g, g ≠ 0 → s'.fn g = s.fn g))) ∧
  (∀ (s : State) (f off size : Nat) (v : W64), s.boot.ready = false → exec (.mmioRegisterWrite f off size v) s = .next s) ∧
  (∀ s : State, DeviceUp s → (∀ r ∈ readRegisters s, s.bar0Read 0 r.1 r.2.1 = some (leBytes r.2.1 r.2.2)) ∧
    ∀ f q, FnThere s f → q < 64 → s.bar0Read f (8 * q) 8 = some (leBytes 8 (Map.get 0 s.kwr (f * 64 + q)).toNat)) ∧
  (∀ (s : State) (f off n : Nat), HostUp s → FnThere s f → s.boot.ready = false → 0x200 ≤ off → ¬(f = 0 ∧ off < 0x3004 ∧ 0x3000 < off + n) →
    s.bar0Read f off n = some (List.replicate n 0)) ∧
  (∀ (s : State) (a : Nat) (bs : List Byte), DeviceUp s → a + bs.length ≤ Config.hbmSize →
    Leaves (.bar2Access true a bs) s (fun s' => (∀ i, i < bs.length → Map.get 0 s'.mem (a + i) = bs.getD i 0) ∧
      ∀ i, i < a ∨ a + bs.length ≤ i → Map.get 0 s'.mem i = Map.get 0 s.mem i) ∧
    ((∀ i, i < bs.length → (a + i) / 65536 ∉ s.poison) → Leaves (.bar2Access false a bs) s (fun s' => s'.mem = s.mem ∧ ∃ r,
      s'.replies = s.replies ++ [r] ∧ r.ok = true ∧ r.data.length = bs.length ∧
        ∀ i, i < bs.length → r.data.getD i 0 = (Map.get 0 s.mem (a + i)).toNat)))

/-- R416 to R419, R423: APPLY puts the two tables in force when they are right, else says why not and changes nothing; ACTIVATE answers 3 while an
update runs, 2 for a wrong image, 4 for an old one, and otherwise puts a new image in the primary one's place and begins a warm start. That a new image stands beside
the flash until then is the model's choice (log 115), and so are the order of the answers (log 78), that the form of an image is what R409 lists for it (log 71)
and that a SHARE, an HBMW or a PARTCOUNT outside its range is a bad table (log 82). -/
def Sys2Proof.Claims.TablesAndActivation : Prop :=
  (∀ (s : State),
    let row (n : Nat) : List Byte := Map.getRange 0 s.mem (s.partbase.toNat + 64 * n) 64
    let valid (n : Nat) : Prop := n < 48 ∧ n < s.partcount.toNat ∧ num (row n) 20 4 % 2 = 1
    DeviceUp s →
    Leaves (.apply 1) s (fun s' => s'.applystat.toNat ≤ 3 ∧ s'.mem = s.mem ∧
      (s'.applystat = 0 → (∀ n, valid n → ∃ p, s'.partOf n = some p ∧ rowOf (row n) p) ∧ (∀ n, ¬valid n → s'.partOf n = none) ∧
        ∀ f, f < 257 → Map.get 255 s'.fmap f = Map.get 0 s.mem (s.fpbase.toNat + f)) ∧
      (s'.applystat ≠ 0 → s'.parts = s.parts ∧ s'.fmap = s.fmap) ∧
      (48 < s.partcount.toNat → s'.applystat = 3) ∧
      (∀ n, valid n → num (row n) 17 1 = 0 ∨ num (row n) 18 2 = 0 ∨ 1024 < num (row n) 18 2 ∨ 7 < num (row n) 16 1 → s'.applystat = 3) ∧
      (∀ m n, valid m → valid n → m < n → s'.applystat = 0 → num (row m) 8 8 &&& num (row n) 8 8 = 0 ∧
        (num (row m) 0 8 &&& num (row n) 0 8 ≠ 0 → num (row m) 0 8 = num (row n) 0 8))) ∧
    (∀ v, v ≠ 1 → exec (.apply v) s = .next s)) ∧
  (∀ (s : State) (v : W32),
    let img := s.flash.pend.getD (s.flash.imageOf false)
    DeviceUp s → v.getLsbD 0 = true →
    (s.flash.updating ≠ none → exec (.activate v) s = .next { s with actstat := 3 }) ∧
    (s.flash.updating = none → num img 0 4 ≠ 0x4D465A4B ∨ num img 4 2 ≠ 1 → exec (.activate v) s = .next { s with actstat := 2 }) ∧
    (s.flash.updating = none → imageForm img = true → num img 8 4 < s.flash.svnMin.toNat → exec (.activate v) s = .next { s with actstat := 4 }) ∧
    (s.flash.updating = none → imageForm img = true → s.flash.svnMin.toNat ≤ num img 8 4 → s.slots = [] → s.kept = [] → s.interrupted = [] →
      Leaves (.activate v) s (fun s' => s'.actstat = 0 ∧ s'.boot.ready = false ∧ s'.boot.start = 2 ∧ s'.boot.phase = 1 ∧
        s'.boot.raiseSvn = v.getLsbD 1 ∧ s'.mem = s.mem ∧ s'.parts = s.parts ∧ s'.flash.pend = none ∧
        (s.flash.pend = none → s'.flash.bytes = s.flash.bytes) ∧
        ∀ bs, s.flash.pend = some bs → ∀ i, i < bs.length → Map.get 0 s'.flash.bytes i = bs.getD i 0)))

/-- Register pages, tables and activation: R392, R400, R401, R405, R416 to R419, R423. -/
def Obligations.RegisterPages : Prop := RegisterWrites ∧ TablesAndActivation

/-- R410 to R412, R417, R423: what begins a start and what it keeps; a step that fails or lasts too long counts and begins a cold start, the third of the
recovery image; ERROR holds the code of the step that failed (log 73); READY ends a start and brings every core up. That retired cores are forgotten with the module is the
model's choice (log 75). -/
def Sys2Proof.Claims.Starts : Prop :=
  (∀ s : State,
    let warm (s' : State) : Prop := s'.boot.ready = false ∧ s'.boot.start = 2 ∧ s'.boot.phase = 1 ∧ s'.boot.error = 0 ∧ s'.boot.fails = s.boot.fails ∧
      s'.mem = s.mem ∧ s'.kwr = s.kwr ∧ s'.pendBits = s.pendBits ∧ s'.ptime = s.ptime ∧ s'.slots = [] ∧ s'.inv = none ∧ s'.host = s.host ∧
      ∀ c t, (s'.core c).live t = false ∧ (s'.core c).inst = none ∧ ((s'.core c).retired = ((s.core c).retired || (s.core c).outNext))
    let cold (s' : State) : Prop := s'.boot.ready = false ∧ s'.boot.start = 1 ∧ s'.boot.phase = 1 ∧
      s'.mem = [] ∧ s'.kwr = [] ∧ s'.slots = [] ∧ s'.parts = [] ∧ s'.flash.bytes = s.flash.bytes ∧ s'.flash.svnMin = s.flash.svnMin ∧
      s'.host = s.host ∧ ∀ c t, (s'.core c).live t = false ∧ (s'.core c).inst = none ∧ (s'.core c).scratch = []
    (HostUp s → Leaves .bootctlWarmStart s warm ∧ Leaves .bootctlColdStart s (fun s' => cold s' ∧ s'.boot.error = 0 ∧ s'.boot.fails = s.boot.fails)) ∧
    (s.mainPower = true → s.present = true → Leaves .fundamentalReset s (fun s' => cold s' ∧ s'.boot.error = 0)) ∧
    Leaves .powerOn s (fun s' => cold s' ∧ s'.boot.error = 0 ∧ s'.mainPower = true ∧ s'.present = true ∧
      ∀ c, (s'.core c).retired = if s.present then (s.core c).retired || (s.core c).outNext else false) ∧
    (s.mainPower = true → s.present = true → s.boot.stuck = false → 1 ≤ s.boot.phase.toNat → s.boot.phase.toNat ≤ 8 →
      (s.boot.since + (if s.boot.start = 2 then 20000000000 else 120000000000) ≤ s.ptime → Leaves .startTimeout s (fun s' => cold s' ∧ s'.boot.error ≠ 0 ∧
        s'.boot.fails.toNat = min 3 (s.boot.fails.toNat + 1) ∧ s'.boot.recovery = decide (2 ≤ s.boot.fails.toNat))) ∧
      (s.ptime < s.boot.since + (if s.boot.start = 2 then 20000000000 else 120000000000) → exec .startTimeout s = .next s) ∧
      (s.boot.phase = 8 → Leaves .ready s (fun s' => s'.boot.ready = true ∧ s'.boot.phase = 9 ∧ s'.boot.error = 0 ∧ s'.mem = s.mem ∧
        (s.boot.recovery = false → s'.boot.fails = 0) ∧ (s.boot.recovery = true → s'.boot.fails = s.boot.fails) ∧
        ∀ c, c < 208 → s'.core c = { s.core c with fwEntry := Config.fwEntry, fwRestore := Config.fwRestore })) ∧
      (s.boot.phase ≠ 8 → exec .ready s = .next s))) ∧
  (∀ (s : State) (e : Nat) (as : List Act), s.ports = [] → s.agenda = .bootStep e :: as → s.mainPower = true → s.present = true → s.boot.stuck = false →
    (s.boot.phase = 6 → e % 2 ^ 16 = 0 → ∃ s', step s = .next s' ∧ s'.boot.phase = 7 ∧ ∀ i, i < 8 → i ≠ 0 →
      ((s'.core (208 + i)).thread 0).st = .live ∧ ((s'.core (208 + i)).thread 0).level = .cl ∧ ((s'.core (208 + i)).thread 0).pc = Config.ctlEntry i) ∧
    (1 ≤ s.boot.phase.toNat → s.boot.phase.toNat ≤ 8 → e % 2 ^ 16 ≠ 0 → ∃ s', step s = .next s' ∧ s'.boot.start = 1 ∧ s'.boot.phase = 1 ∧
      s'.boot.error.toNat = e % 2 ^ 16 ∧ s'.boot.fails.toNat = min 3 (s.boot.fails.toNat + 1)))

/-- R399, R401, R402, R410, R415, R424, R429: the link, the functions' resets and the loss of the device. The model's choices: FLR leaves every vector masked
(log 61); what is pending goes out when the link comes up or MSI-X is enabled (log 62); VF Enable is the whole of SR-IOV (log 134). -/
def Sys2Proof.Claims.LinkAndFunctions : Prop :=
  ∀ (s : State) (f : Nat),
    exec .hotReset s = .next { s with link := false } ∧ exec .linkDown s = .next { s with link := false } ∧
    (s.mainPower = true → s.present = true → Leaves .linkUp s (fun s' => s'.link = true ∧ s'.mem = s.mem ∧ s'.slots = s.slots ∧
      (∀ g v, v < 66 → (s.fn g).msix = true → (s.fn g).pend.getLsbD v = true → (s.fn g).mask.getLsbD v = false →
        (g, v) ∈ s'.irqs ∧ (s'.fn g).pend.getLsbD v = false))) ∧
    (FnThere s f → HostUp s → Leaves (.flr f) s (fun s' => s'.fn f = { flr := true } ∧ s'.slots = s.slots ∧
      s'.kwr = s.kwr ∧ s'.pendBits = s.pendBits ∧ s'.mem = s.mem ∧ (f ≠ 0 → s'.vfs = s.vfs ∧ ∀ g, g ≠ f → s'.fn g = s.fn g) ∧
      (f = 0 → s'.vfs = false ∧ ∀ g, g ≠ 0 → s'.fn g = {}))) ∧
    (¬FnThere s f → exec (.flr f) s = .next s) ∧
    Leaves (.flrComplete f) s (fun s' => s'.fn f = { s.fn f with flr := false } ∧ ∀ g, g ≠ f → s'.fn g = s.fn g) ∧
    (FnThere s f → HostUp s → (s.fn f).flr = false →
      Leaves (.configurationRequest f (.msix true)) s (fun s' => (s'.fn f).msix = true ∧ (s'.fn f).mask = (s.fn f).mask ∧ s'.slots = s.slots ∧
        (∀ v, v < 66 → (s.fn f).pend.getLsbD v = true → (s.fn f).mask.getLsbD v = false → (f, v) ∈ s'.irqs ∧ (s'.fn f).pend.getLsbD v = false)) ∧
      Leaves (.configurationRequest f (.msix false)) s (fun s' => s'.fn f = { s.fn f with msix := false } ∧ s'.irqs = s.irqs)) ∧
    (HostUp s → (s.fn 0).flr = false → ∀ on, Leaves (.configurationRequest 0 (.vf on)) s (fun s' => s'.vfs = on ∧ s'.fn 0 = s.fn 0 ∧ s'.slots = s.slots ∧
      ∀ g, g ≠ 0 → s'.fn g = if on then s.fn g else {})) ∧
    (let lost (s' : State) : Prop := s'.mem = [] ∧ s'.slots = [] ∧ s'.mainPower = false ∧ s'.boot.ready = false ∧ s'.flash.bytes = s.flash.bytes ∧
       s'.host = s.host ∧ ∀ c t, (s'.core c).live t = false ∧ (s'.core c).scratch = []
     Leaves .mainPowerLoss s (fun s' => lost s' ∧ s'.present = s.present) ∧ Leaves .surpriseRemoval s (fun s' => lost s' ∧ s'.present = false))

/-- Starts, the link and the functions: R401, R402, R410 to R412, R415, R417, R423, R424, R429. -/
def Obligations.StartsAndFunctions : Prop := Starts ∧ LinkAndFunctions

/-- R403, R416, R417, R422, R424: the reset of a die ends every instance on it and keeps the retirements; when it completes its cores are up again;
RSTSTAT names the dies that were reset until it is read; two errors within a day retire a core at the next start, and AER counts each (log 134);
telemetry. -/
def Obligations.DieResetsAndTelemetry : Prop :=
  (∀ (s : State) (d : Nat), DeviceUp s → d < 4 →
    ((s.die d).resetting = false → s.slots = [] → Leaves (.diereset (BitVec.ofNat 32 (d + 1)) true) s (fun s' =>
      (s'.die d).resetting = true ∧ s'.rstBusy = true ∧ s'.mem = s.mem ∧ s'.poison = s.poison ∧
        (∀ c, c / 52 = d → c < 208 → s'.core c = { retired := (s.core c).retired, outNext := (s.core c).outNext, errs := (s.core c).errs }) ∧
        (∀ e, e ≠ d → (s'.die e).resetting = (s.die e).resetting))) ∧
    (∀ v : W32, v = 0 ∨ 4 < v.toNat → ∀ b, exec (.diereset v b) s = .next s) ∧
    Leaves .rststatRead s (fun s' => (∃ r, s'.replies = s.replies ++ [r] ∧
      r.data = [(if s.rstBusy then 2 ^ 31 else 0) + (if (s.die 0).wasReset then 1 else 0) + (if (s.die 1).wasReset then 2 else 0) +
        (if (s.die 2).wasReset then 4 else 0) + (if (s.die 3).wasReset then 8 else 0)]) ∧
      ∀ e, (s'.die e).wasReset = false ∧ { s'.die e with wasReset := false } = { s.die e with wasReset := false })) ∧
  (∀ (s : State) (d : Nat), d < 4 → (s.die d).resetting = true → s.parts = [] → Leaves (.dieResetComplete d) s (fun s' =>
    (s'.die d).resetting = false ∧ (s'.die d).wasReset = true ∧ (s'.rstBusy = true ↔ ∃ e, e < 4 ∧ e ≠ d ∧ (s.die e).resetting = true) ∧
      ∀ c, c / 52 = d → c < 208 → (s'.core c).fwEntry = Config.fwEntry ∧ (s'.core c).fwRestore = Config.fwRestore)) ∧
  (∀ (s : State) (c d : Nat),
    (c < 208 → Leaves (.uncorrectableError c false) s (fun s' => s'.aer = s.aer + 1 ∧
      { s' with cores := [], aer := s.aer } = { s with cores := [] } ∧ (∀ e, e ≠ c → s'.core e = s.core e) ∧
      ((∃ e ∈ (s.core c).errs, s.ptime < e + 86400000000000) → (s'.core c).outNext = true) ∧
      ((∀ e ∈ (s.core c).errs, e + 86400000000000 ≤ s.ptime) → (s'.core c).outNext = (s.core c).outNext ∧ (s'.core c).errs = [s.ptime]))) ∧
    exec (.droopEvent d) s = .next (s.updDie d (fun x => { x with droops := x.droops + 1 })) ∧
    (s.mainPower = true → s.present = true → Leaves .telemetryRefresh s (fun s' => s'.cores = s.cores ∧ s'.mem = s.mem ∧ s'.slots = s.slots ∧
      ∀ e, e < 4 → (s.die e).ecc.toNat ≤ (s'.die e).ecc.toNat ∧ (s'.die e).droops = (s.die e).droops)) ∧
    (∀ p, p < 2 → ∀ up, Leaves (.portLinkChange p up) s (fun s' => (∀ i, i < 2 → s'.portsUp.getLsbD i = if i = p then up else s.portsUp.getLsbD i) ∧
      { s' with portsUp := 0 } = { s with portsUp := 0 })))

/-! ### Frames, fabric, services -/

namespace Sys2Proof.Claims

/-- The field of a queue pair's entry (R405). -/
def qpField (s : State) (qp off n : Nat) : Nat := s.devNat (s.qpbase.toNat + 64 * qp + off) n

/-- Queue pair `qp` is served: it exists, its STATE is 1 (R405, R407). -/
def QpUp (s : State) (qp : Nat) : Prop :=
  s.boot.ready = true ∧ s.boot.recovery = false ∧ qp < 4096 ∧ qp < s.qpcount.toNat ∧ qpField s qp 0 1 = 1

/-- The tables map the 64 KiB around `va` to device memory at `e`'s frame, and no page of it is poisoned or migrating; `e` is the leaf at `ea`
(R386 to R388, R396). -/
def PageAt (s : State) (pasid va ea : Nat) (wr : Bool) : Prop :=
  let e := s.devNat ea 8
  (∃ own, Chain s pasid va own ea) ∧ va < 2 ^ 52 ∧ va / 2 ^ 48 ≠ 15 ∧ e % 4 = 3 ∧ plain e ∧ e / 16 % 4 = 0 ∧ frame e % 65536 = 0 ∧
    frame e + 65536 ≤ Config.hbmSize ∧ (wr = true → e / 4 % 2 = 1 ∧ e / 2 ^ 8 % 2 = 0) ∧ frame e / 65536 ∉ s.poison

/-- A frame goes out of the port and to the destination and UDP port of its stream's entry, with the 90 kHz media clock of its instant (R425). That the
clock has no offset is the model's choice (log 116). -/
def SentTo (s : State) (n : Nat) (m : Sent) : Prop :=
  let row := s.devRead (s.strbase.toNat + 128 * n) 128
  m.port = num row 0 4 / 4 % 2 ∧ m.dest = (row.drop 32).take 16 ∧ m.udp = num row 48 2 ∧ m.rtp = m.instant * 9 / 100000 % 2 ^ 32

/-- The path MTU of a queue pair: 256 bytes for code 1, doubled with each up to 5 (R404, R405); other codes count as the nearest (log 114). -/
def mtu (s : State) (qp : Nat) : Nat := 128 * 2 ^ max 1 (min 5 (qpField s qp 2 1))

/-- The packets of `n` bytes. -/
def packets (s : State) (qp n : Nat) : Nat := max 1 ((n + mtu s qp - 1) / mtu s qp)

/-- The number that the next packet of the peer must have: EPSN, counted on by what has been taken since (R405, log 114). -/
def nextPsn (s : State) (qp : Nat) : Nat := (qpField s qp 36 4 + (Map.get {} s.qps qp).taken) % 2 ^ 24

/-- A packet as the queue pair of request `r` sends it (R403 to R406). -/
def PacketOf (s : State) (r : RdmaReq) (p : Pkt) : Prop :=
  p.port = qpField s r.qp 1 1 % 2 ∧ p.dqpn = qpField s r.qp 4 4 % 2 ^ 24 ∧ p.dip = qpField s r.qp 8 16 ∧ p.dmac = qpField s r.qp 24 6 ∧
    p.write = r.write ∧ p.rkey = r.rkey ∧ p.len ≤ mtu s r.qp

/-- The port of a queue pair. -/
def portOf (s : State) (qp : Nat) : Nat := qpField s qp 1 1 % 2

/-- A port keeps packets back while the priority of RDMA is paused, or others wait there already (R403, log 99). -/
def Waits (s : State) (port : Nat) : Prop :=
  (Map.get 0 s.paused port).getLsbD (Config.rdmaPriority % 8) = true ∨ ∃ x ∈ s.held, x.port = port

/-- `s'` sends what request `r` of `n` bytes still has to send, the first packet from byte `r.done` on; where its port `holds` them, they wait. -/
def Sends (s s' : State) (r : RdmaReq) (n : Nat) (holds : Prop) : Prop :=
  ∃ p ps, (¬holds → s'.pkts = s.pkts ++ p :: ps ∧ s'.held = s.held) ∧ (holds → s'.pkts = s.pkts ∧ s'.held = s.held ++ p :: ps) ∧ ps.length + 1 = packets s r.qp (n - r.done) ∧ (∀ x ∈ p :: ps, PacketOf s r x) ∧ p.addr = r.addr + r.done ∧
    p.psn = (r.psn + r.done / mtu s r.qp) % 2 ^ 24 ∧ p.len = min (mtu s r.qp) (n - r.done)

/-- An answer to the peer of a queue pair joins the others. -/
def Answers (s s' : State) (qp : Nat) (ok : Bool) (data : List Nat) : Prop := s'.replies = s.replies ++ [{ req := qp, ok := ok, data := data }]

/-- A service's answer, and its connection and transcript afterwards (R414). -/
def Served (s s' : State) (mctp : Bool) (code : Nat) (args : List Nat) (x : Spdm) (data : List Nat) : Prop :=
  let key := if mctp then 1 else 0
  s'.svcs = s.svcs ++ [{ req := code + 256 * key, ok := true, data := data }] ∧
    Map.find s'.spdm key = some { x with transcript := x.transcript ++ code :: (args ++ data) } ∧ { s' with svcs := [], spdm := [] } = { s with svcs := [], spdm := [] }

end Sys2Proof.Claims

/-- R408, R425 to R429: a FRAME commits its buffer for an instant of the grid, is BADPKT off the grid or for a stream that is not enabled, LATE within
500 µs; a committed frame is sent from 100 ns before its instant and completes with OK; without one the last frame is sent again through WARP,
if SUBST is set, and counted; PTP keeps LOCKED and OFFSET. That the first frame of a stream waits for LOCKED, and that a committed frame of a stream disabled since
is LATE, is the model's reading (log 86). -/
def Obligations.FrameOutput : Prop :=
  (∀ (s : State) (q : Nat) (p : LaPkt) (bs : List Byte) (r : StreamRow),
    let n := num bs 32 4
    let t := num bs 24 8
    let x := s.stream n
    AtIssue s q p bs 8 →
    (s.streamRow? n = none → Leaves (.framePacket q) s (fun s' => Completes s s' q bs 4)) ∧
    (s.streamRow? n = some r →
      (((t : Int) - r.epoch) % r.period ≠ 0 → Leaves (.framePacket q) s (fun s' => Completes s s' q bs 4)) ∧
      (((t : Int) - r.epoch) % r.period = 0 → x.next = none → s.locked = false → Leaves (.framePacket q) s (fun s' =>
        (s'.slot q).pkt = some p ∧ (s'.slot q).commit = (s.slot q).commit ∧ s'.streams = s.streams)) ∧
      (((t : Int) - r.epoch) % r.period = 0 → x.next.isSome ∨ s.locked = true →
        (s.ptime + 500000 < t → Leaves (.framePacket q) s (fun s' => (s'.slot q).phase = .frame ∧ (s'.slot q).pkt = some p ∧ ∃ f,
          (s'.stream n).frames = x.frames ++ [f] ∧ (s'.stream n).last = some f ∧ f.buf = num bs 16 8 ∧ f.instant = t ∧ f.slot = some q ∧
            f.pasid = (s.slot q).pasid ∧ f.part = (s.slot q).part)) ∧
        (t ≤ s.ptime + 500000 → Leaves (.framePacket q) s (fun s' => Completes s s' q bs 8 ∧ s'.streams = s.streams))))) ∧
  (∀ (s : State) (n q : Nat) (f : Frame) (pk : LaPkt) (bs : List Byte),
    let x := s.stream n
    let y := s.slot q
    x.frames = [f] → f.slot = some q → y.pkt = some pk → pk.bytes = some bs → y.bound = true → y.launch = none → y.record = none → y.stack = [] →
    (s.ptime + 100 < f.instant → exec (.frameEmit n) s = .next s) ∧
    (f.instant ≤ s.ptime + 100 → s.streamRow? n = none → Leaves (.frameEmit n) s (fun s' => Completes s s' q bs 8 ∧ s'.sent = s.sent ∧
      (s'.stream n).frames = [])) ∧
    (∀ r, f.instant ≤ s.ptime + 100 → s.streamRow? n = some r → x.next = some f.instant → ((f.instant : Int) - r.epoch) % r.period = 0 →
      Leaves (.frameEmit n) s (fun s' => Completes s s' q bs 0 ∧ (s'.stream n).frames = [] ∧ (s'.stream n).next = some (f.instant + r.period) ∧
        ∃ m, s'.sent = s.sent ++ [m] ∧ m.stream = n ∧ m.instant = f.instant ∧ SentTo s n m ∧ m.bytes.length = r.height * r.rowBytes ∧
          ∀ row i y, row < r.height → i < r.rowBytes → let va := f.buf + row * r.pitch + i / 256 * 256
            s.lookup f.pasid va = some y → f.pasid = 0 ∨ f.part = y.part →
            m.bytes.getD (row * r.rowBytes + i) 0 = (s.readLoc { y.at va with addr := (y.at va).addr + i % 256 } 1).headD 0))) ∧
  (∀ (s : State) (n nx : Nat) (f : Frame) (r : StreamRow),
    let x := s.stream n
    let a := s.strbase.toNat + 128 * n + 28
    s.streamRow? n = some r → x.next = some nx → x.last = some f → ((nx : Int) - r.epoch) % r.period = 0 →
    (s.ptime + 500000 < nx → exec (.frameSubstitute n) s = .next s) ∧
    (nx ≤ s.ptime + 500000 → (∀ g ∈ x.frames, g.instant ≠ nx) → Leaves (.frameSubstitute n) s (fun s' => (s'.stream n).next = some (nx + r.period) ∧
      (r.subst = false → s'.sent = s.sent ∧ s'.mem = s.mem) ∧
      (r.subst = true → s'.devNat a 4 = (s.devNat a 4 + 1) % 2 ^ 32 ∧ ∃ m, s'.sent = s.sent ++ [m] ∧ m.stream = n ∧ m.instant = nx ∧ SentTo s n m)))) ∧
  (∀ (s : State) (port : Nat) (o : Int),
    (s.boot.ready = true → Leaves (.ptpMessage port o) s (fun s' => s'.offset.toInt = max (-8388608) (min 8388607 o) ∧ s.ptime ≤ s'.ptime ∧
      s'.inTol = (if -50 ≤ o ∧ o ≤ 50 then min 16 (s.inTol + 1) else 0) ∧ (s'.locked = true ↔ s'.inTol = 16) ∧ s'.mem = s.mem)) ∧
    (s.boot.ready = false → exec (.ptpMessage port o) s = .next s))

/-- R395, R403 to R407: an inbound request with the queue pair's key is performed in the mapped page and answered, with another key refused and nothing
is written; a SEND must have the next packet number; a copy to a peer window goes out in path-MTU packets when the window and its queue pair admit it,
and fails otherwise; acknowledgements and responses move it on piece by piece; a request is sent again 1 ms after it was sent or after a NAK, seven times
each, and then its queue pair enters STATE 2. While a port's priority is paused, or after a mark until the next answer or the timer, its packets wait. How packet numbers
count on, and that they repeat an answer, is the model's choice (log 114), and so are: a SEND counts in WVER (log 89); a response piece of another length
is ignored (log 91); when packets wait, and one request for each command (log 99). -/
def Obligations.RemoteAccesses : Prop :=
  (∀ (s : State) (qp ea : Nat) (va : W64) (bs : List Byte),
    let pasid := qpField s qp 56 4 % 2 ^ 20
    let key : W32 := BitVec.ofNat 32 (qpField s qp 60 4)
    let a := frame (s.devNat ea 8) + va.toNat % 65536
    let n := bs.length
    let nothing (i : Instr) : Prop := Leaves i s (fun s' => Answers s s' qp false [] ∧ s'.mem = s.mem)
    let idle (i : Instr) : Prop := Leaves i s (fun s' => { s' with qps := [] } = { s with qps := [] } ∧ Map.find s'.qps qp = none)
    let took (s' : State) : Prop := (Map.get {} s'.qps qp).taken = (Map.get {} s.qps qp).taken + packets s qp n
    (¬QpUp s qp → ∀ k len psn, idle (.rdmaWrite qp k va bs) ∧ idle (.rdmaRead qp k va len) ∧ idle (.send qp psn bs)) ∧
    (QpUp s qp →
      (∀ k, k ≠ key → nothing (.rdmaWrite qp k va bs) ∧ ∀ len, nothing (.rdmaRead qp k va len)) ∧
      (0 < n → va.toNat % 65536 + n ≤ 65536 → PageAt s pasid va.toNat ea true → Leaves (.rdmaWrite qp key va bs) s (fun s' =>
        Answers s s' qp true [] ∧ (∀ i, i < n → Map.get 0 s'.mem (a + i) = bs.getD i 0) ∧
          (∀ i, i < a ∨ a + n ≤ i → i < ea ∨ ea + 8 ≤ i → Map.get 0 s'.mem i = Map.get 0 s.mem i) ∧
          (ea + 8 ≤ a ∨ a + n ≤ ea → s'.devNat ea 8 / 2 ^ 52 = (s.devNat ea 8 / 2 ^ 52 + 1) % 2 ^ 12 ∧ s'.devNat ea 8 / 2 ^ 6 % 2 = 1))) ∧
      (∀ len, 0 < len → va.toNat % 65536 + len ≤ 65536 → PageAt s pasid va.toNat ea false → Leaves (.rdmaRead qp key va len) s (fun s' =>
        s'.mem = s.mem ∧ ∃ data, Answers s s' qp true data ∧ data.length = len ∧ ∀ i, i < len → data.getD i 0 = (Map.get 0 s.mem (a + i)).toNat)) ∧
      (∀ psn : W32, psn.toNat % 2 ^ 24 ≠ nextPsn s qp → let ahead := (psn.toNat + 2 ^ 24 - nextPsn s qp) % 2 ^ 24
        Leaves (.send qp psn bs) s (fun s' => Answers s s' qp (decide (2 ^ 23 ≤ ahead)) [] ∧ s'.mem = s.mem ∧ s'.qps = s.qps)) ∧
      (4080 < n → ∀ psn : W32, psn.toNat % 2 ^ 24 = nextPsn s qp → nothing (.send qp psn bs)) ∧
      (∀ psn : W32, let m := qpField s qp 48 4
        let buf := qpField s qp 40 8 + 4096 * (qpField s qp 52 4 % m)
        let b := frame (s.devNat ea 8) + buf % 65536
        let t := s.qpbase.toNat + 64 * qp
        psn.toNat % 2 ^ 24 = nextPsn s qp → n ≤ 4080 → (∃ e, m = 2 ^ e) → 16 ≤ m → m ≤ 4096 → buf % 4096 = 0 → PageAt s pasid buf ea true → 0 < n →
        (ea + 8 ≤ b ∨ b + 4096 ≤ ea) → (t + 64 ≤ b ∨ b + 4096 ≤ t) → (t + 64 ≤ ea ∨ ea + 8 ≤ t) → Leaves (.send qp psn bs) s (fun s' =>
          Answers s s' qp true [] ∧ (∀ i, i < n → Map.get 0 s'.mem (b + i) = bs.getD i 0) ∧ s'.devNat (b + 4080) 4 = n ∧
            s'.devNat (b + 4084) 4 = psn.toNat ∧ s'.devNat (b + 4088) 4 = s.ptime / 1024 % 2 ^ 32 ∧
            qpField s' qp 52 4 = (qpField s qp 52 4 + 1) % 2 ^ 32 ∧ took s' ∧
            s'.devNat ea 8 / 2 ^ 52 = (s.devNat ea 8 / 2 ^ 52 + 1) % 2 ^ 12 ∧ s'.devNat ea 8 / 2 ^ 6 % 2 = 1)))) ∧
  (∀ (s : State) (c : Nat) (m : Cmd) (x : Xlat),
    let k := s.core c
    let va := m.a.toNat
    let n := m.c.toNat
    let e := s.pwbase.toNat + 32 * (va / 2 ^ 40 % 256)
    let ctl := s.devNat e 4
    let qp := s.devNat (e + 4) 4
    let admits := va / 2 ^ 40 % 256 < s.pwcount.toNat ∧ ctl % 2 = 1 ∧ ctl / 2 % 2 = 1 ∧ s.devNat (e + 28) 4 % 2 ^ 20 = m.pasid ∧
      va % 2 ^ 40 + n ≤ s.devNat (e + 16) 8 ∧ qp < 4096 ∧ qp < s.qpcount.toNat ∧ qpField s qp 0 1 = 1
    c < 208 → k.cmd? m.id = some m → k.startable m = true → m.op = 0xA3 → m.fn % 4 = 3 → m.desc = [] → n ≠ 0 → va / 2 ^ 48 = 15 → m.b.toNat / 2 ^ 48 ≠ 15 →
    m.moves = [{ src := .glob m.b.toNat, dst := .glob va, n := n }] →
    ((m.b.toNat + n - 1) / 2 ^ 48 = 15 ∨ ¬admits → Leaves (.copyStart c m.id) s (fun s' => ∃ m', CmdIs s' c m.id m' ∧ m'.fails = some m.a ∧ m'.started = false ∧
      s'.mem = s.mem ∧ s'.rdma = s.rdma ∧ s'.pkts = s.pkts)) ∧
    ((m.b.toNat + n - 1) / 2 ^ 48 ≠ 15 → va % 2 ^ 40 + n ≤ 2 ^ 40 → admits → 16 ∣ n → m.xs = .idle →
      (∀ i, i < n → findTlb m.src m.pasid (m.b.toNat + i) false = some x ∧ findTlb m.src m.pasid (va + i) true = none) → x.loc.host = false →
      Leaves (.copyStart c m.id) s (fun s' => (∃ m', CmdIs s' c m.id m' ∧ m'.started = true ∧ m'.fails = m.fails) ∧ s'.mem = s.mem ∧
        ∃ r, s'.rdma = s.rdma ++ [r] ∧ r.qp = qp ∧ r.addr = s.devNat (e + 8) 8 + va % 2 ^ 40 ∧ r.rkey.toNat = s.devNat (e + 24) 4 ∧ r.core = c ∧ r.cmd = m.id ∧
          r.write = true ∧ r.done = 0 ∧ r.retries = 0 ∧ r.rnr = 0 ∧ r.since = s.ptime ∧
          r.psn = (qpField s qp 32 4 + (Map.get {} s.qps qp).sent) % 2 ^ 24 ∧
          (Map.get {} s'.qps qp).sent = (Map.get {} s.qps qp).sent + packets s qp n ∧
          Sends s s' r n (Waits s (portOf s qp) ∨ Map.get 0 s.marks (portOf s qp) ≠ 0)))) ∧
  (∀ (s : State) (qp : Nat) (r : RdmaReq) (m : Cmd) (bs : List Byte),
    let data := m.data.flatMap (fun d => d.getD [])
    let piece := (data.drop r.done).take (mtu s qp)
    let moved (l : List Byte) (got : List Byte) (s' : State) : Prop :=
      s'.rdma = if m.c.toNat ≤ r.done + l.length then [] else [{ r with done := r.done + l.length, got := got, since := s.ptime, retries := 0, rnr := 0 }]
    r.qp = qp → CmdIs s r.core r.cmd m → m.id = r.cmd → s.rdma = [r] →
    (r.write = true → Leaves (.rdmaAck qp) s (fun s' => moved piece [] s' ∧ s'.mem = s.mem ∧ Map.get 0 s'.marks (portOf s qp) = 0 ∧
      (∀ i, i < piece.length → Map.get 0 s'.remote (qp * 2 ^ 64 + r.addr + r.done + i) = piece.getD i 0) ∧
      ∀ j, j < qp * 2 ^ 64 + r.addr + r.done ∨ qp * 2 ^ 64 + r.addr + r.done + piece.length ≤ j → Map.get 0 s'.remote j = Map.get 0 s.remote j)) ∧
    (r.write = false → bs.length = min (mtu s qp) (m.c.toNat - r.done) → Leaves (.rdmaReadResponse qp bs) s (fun s' => moved bs (r.got ++ bs) s' ∧
      s'.mem = s.mem ∧ ∃ m', CmdIs s' r.core r.cmd m' ∧ m'.data.length = m.chunks.length ∧ ∀ i h, m.chunks[i]? = some h →
        m'.data[i]? = some (let b := ((r.got ++ bs).drop (16 * i)).take h.n; if b.length = h.n then some b else none))) ∧
    (r.write = false → bs.length ≠ min (mtu s qp) (m.c.toNat - r.done) → Map.get 0 s.marks (portOf s qp) = 0 →
      exec (.rdmaReadResponse qp bs) s = .next s) ∧
    (let port := portOf s qp
     let again (r' : RdmaReq) (holds : Prop) (s' : State) : Prop := s'.rdma = [r'] ∧ s'.mem = s.mem ∧ Sends s s' r' m.c.toNat holds
     let timed : RdmaReq := { r with retries := r.retries + 1, since := s.ptime }
     let rnr : RdmaReq := { r with rnr := r.rnr + 1, since := s.ptime }
     let broken (s' : State) : Prop := s'.rdma = [] ∧ s'.devNat (s.qpbase.toNat + 64 * qp) 1 = 2 ∧ Map.find s'.qps qp = none ∧
       ∃ m', CmdIs s' r.core r.cmd m' ∧ m'.fails.isSome
     (s.ptime < r.since + 1000000 → exec (.rdmaAckTimeout qp) s = .next s) ∧
       (r.since + 1000000 ≤ s.ptime → (∃ x ∈ s.held, x.port = port) → Leaves (.rdmaAckTimeout qp) s (fun s' =>
         Map.get 0 s'.marks port = 0 ∧ s'.mem = s.mem ∧ (s'.rdma = [r] ∨ s'.rdma = [{ r with since := s.ptime }]))) ∧
       (r.since + 1000000 ≤ s.ptime → (∀ x ∈ s.held, x.port ≠ port) → (r.retries < 7 → Leaves (.rdmaAckTimeout qp) s (again timed (Waits s port))) ∧
         (7 ≤ r.retries → Leaves (.rdmaAckTimeout qp) s broken)) ∧
       (let holds := Waits s port ∨ Map.get 0 s.marks port ≠ 0
        Leaves (.rdmaNak qp) s (fun s' => broken s' ∨ (r.retries < 7 ∧ again timed holds s') ∨ (r.rnr < 7 ∧ again rnr holds s'))))) ∧
  (∀ (s : State) (port pr : Nat) (b : Bool), port < 2 →
    (pr < 8 → Leaves (.pfcPauseFrame port pr b) s (fun s' => ∀ o i, i < 8 →
      (Map.get 0 s'.paused o).getLsbD i = if o = port ∧ i = pr then b else (Map.get 0 s.paused o).getLsbD i)) ∧
    (Map.get 0 s.marks port = 0 → Leaves (.pfcPauseFrame port (Config.rdmaPriority % 8) false) s (fun s' =>
      s'.held = s.held.filter (fun x => x.port != port) ∧ s'.pkts = s.pkts ++ s.held.filter (fun x => x.port == port))) ∧
    Leaves (.ecnMark port) s (fun s' => ∀ o, Map.get 0 s'.marks o = Map.get 0 s.marks o + if o = port then 1 else 0))

/-- R399, R409, R411, R413 to R415, R423: identity, attestation and the side-band port. A request out of its order is refused. The codes of the answers are
the model's, from the standards that the rules name (log 60), and so are the form in which a transcript is signed (log 113), the firmware update in two requests
(log 77), and that a new image stands beside the flash (log 115), but in recovery takes its place at once. -/
def Obligations.Services : Prop :=
  (∀ (s : State) (mctp : Bool), (if mctp then s.present = true else HostUp s) →
    let x := Map.get ({} : Spdm) s.spdm (if mctp then 1 else 0)
    let at_ := Config.certAt % 0x200000
    let certs := Map.getRange 0 s.flash.bytes (0x3E00000 + at_) (min Config.certLen (0x200000 - at_))
    let nats (l : List Byte) : List Nat := l.map BitVec.toNat
    let signed (l : List Nat) : List Nat := nats (identitySign s.fresh (l.flatMap (leBytes 32)))
    let refused (i : Instr) (code : Nat) : Prop := Leaves i s (fun s' =>
      s'.svcs = s.svcs ++ [{ req := code + if mctp then 256 else 0, ok := false }] ∧ s'.spdm = s.spdm)
    Leaves (.getVersion mctp) s (fun s' => Served s s' mctp 0x84 [] { version := true } [0x13]) ∧
    (x.version = true → Leaves (.getCapabilities mctp) s (fun s' => Served s s' mctp 0xE1 [] { x with caps := true } [0x16])) ∧
    (x.version = false → refused (.getCapabilities mctp) 0xE1) ∧
    (x.caps = true → Leaves (.negotiateAlgorithms mctp true true) s (fun s' => Served s s' mctp 0xE3 [] { x with algs := true } [])) ∧
    (∀ a b, x.caps = false ∨ a = false ∨ b = false → refused (.negotiateAlgorithms mctp a b) 0xE3) ∧
    (x.algs = true →
      Leaves (.getDigests mctp) s (fun s' => Served s s' mctp 0x81 [] x (nats (sha512 certs))) ∧
      (∀ off len, off < certs.length → Leaves (.getCertificate mctp 0 off len) s (fun s' =>
        Served s s' mctp 0x82 [0, off, len] x (nats ((certs.drop off).take len)))) ∧
      (∀ slot off len, slot ≠ 0 → refused (.getCertificate mctp slot off len) 0x82) ∧
      (∀ nonce, Leaves (.challenge mctp 0 nonce) s (fun s' => Served s.tickFresh s' mctp 0x83 [0, nonce] x (signed (x.transcript ++ [0x83, 0, nonce])))) ∧
      (∀ nonce, let d := nats (sha512 s.flash.image)
        Leaves (.getMeasurements mctp 2 nonce) s (fun s' => Served s.tickFresh s' mctp 0xE0 [2, nonce] x
          (d ++ signed (x.transcript ++ [0xE0, 2, nonce] ++ d)))) ∧
      (∀ block nonce, 6 ≤ block → block ≠ 255 → refused (.getMeasurements mctp block nonce) 0xE0)) ∧
    (x.algs = false → refused (.getDigests mctp) 0x81 ∧ (∀ a b c, refused (.getCertificate mctp a b c) 0x82) ∧
      (∀ a b, refused (.challenge mctp a b) 0x83) ∧ ∀ a b, refused (.getMeasurements mctp a b) 0xE0)) ∧
  (∀ s : State,
    let svc (i : Instr) (req : Nat) (ok : Bool) (data : List Nat) : Prop :=
      exec i s = .next { s with svcs := s.svcs ++ [{ req := req, ok := ok, data := data }] }
    (HostUp s → svc (.doeDiscovery 0) 0 true [1, 0, 1] ∧ svc (.doeDiscovery 1) 0 true [1, 1, 0]) ∧
    (s.present = true → svc .pldmType0Request 0x1000 true [0, 2, 5] ∧
      (s.mainPower = true → (∀ d, d < 4 → svc (.pldmSensorRead d) 0x1002 true [(s.die d).temp.toNat]) ∧
        svc (.pldmSensorRead 4) 0x1002 true [s.power.toNat] ∧
        svc (.pldmSensorRead 5) 0x1002 true [(if s.boot.ready then 2 ^ 31 else 0) + (if s.boot.recovery then 2 ^ 30 else 0) + s.boot.start.toNat * 2 ^ 28 +
          s.boot.fails.toNat * 2 ^ 24 + s.boot.phase.toNat * 2 ^ 16 + s.boot.error.toNat]) ∧
      (s.mainPower = false → ∀ d, svc (.pldmSensorRead d) 0x1002 false []) ∧
      (∀ c img, s.flash.updating = none → exec (.pldmFirmwareUpdate false c img) s = .next { s with
        flash := { s.flash with updating := some false }, svcs := s.svcs ++ [{ req := 0x1005, ok := true }] }) ∧
      (∀ c img, s.flash.updating = some true → svc (.pldmFirmwareUpdate false c img) 0x1005 false []) ∧
      (∀ img, s.flash.updating = some false → imageForm img = true → s.flash.svnMin.toNat ≤ num img 8 4 → img.length ≤ 0x2000000 →
        Leaves (.pldmFirmwareUpdate false 1 img) s (fun s' => s'.flash.updating = none ∧ s'.mem = s.mem ∧
          (s.boot.recovery = false → s'.flash.pend = some img ∧ s'.flash.bytes = s.flash.bytes) ∧
          (s.boot.recovery = true → s'.flash.pend = s.flash.pend ∧ ∀ i, i < img.length → Map.get 0 s'.flash.bytes i = img.getD i 0))) ∧
      (∀ img, s.flash.updating = some false → imageForm img = true → s.flash.svnMin.toNat ≤ num img 8 4 → img.length ≤ 0x1E00000 →
        Leaves (.pldmFirmwareUpdate false 2 img) s (fun s' => s'.flash.updating = none ∧ s'.mem = s.mem ∧
          (∀ i, i < img.length → Map.get 0 s'.flash.bytes (0x2000000 + i) = img.getD i 0) ∧
          ∀ j, j < 0x2000000 ∨ 0x2000000 + img.length ≤ j → Map.get 0 s'.flash.bytes j = Map.get 0 s.flash.bytes j))))

/-! ### The machine as a whole -/

namespace Sys2Proof.Claims

def head (u : Bool) (g : BitVec 3) (n : Bool) : Head := { u := u, g := g, n := n }

/-- Device, host and peer memory are in the canonical form: addresses strictly rising, no byte equal to what an unlisted one reads as. -/
def Canonical (s : State) : Prop :=
  Map.wf Config.blank s.mem = true ∧ Map.wf Config.blank s.host = true ∧ Map.wf Config.blank s.remote = true

/-- What an instruction that computes registers cannot touch, whether it completes, waits or traps: memory, the other cores, the scratchpad, the
groups, the registers of other threads, and, of its own thread, every register but its destination, predicates but those it writes, and the
link, hold, group and save registers; flags are only raised. -/
def ComputeFrame (i : Instr) (s : State) (t : Nat) (dst : Nat → Bool) (pred : Nat → Bool) : Prop :=
  let c := s.cur.core
  let x := s.curThread t
  s.cur.set = [t] → c < 208 → x.sub = none → ∀ s', exec i s = .next s' →
    let y := (s'.core c).thread t
    s'.mem = s.mem ∧ s'.host = s.host ∧ s'.remote = s.remote ∧ (∀ d, d ≠ c → s'.core d = s.core d) ∧
    (s'.core c).scratch = s.curCore.scratch ∧ (s'.core c).lines = s.curCore.lines ∧ (s'.core c).groups = s.curCore.groups ∧
    (∀ u, u ≠ t → let a := (s'.core c).thread u; let b := s.curCore.thread u
      a.v = b.v ∧ a.tags = b.tags ∧ a.p = b.p ∧ a.pc = b.pc ∧ a.lk = b.lk ∧ a.fpf = b.fpf ∧ a.st = b.st ∧ a.level = b.level) ∧
    (∀ r, dst r = false → y.reg r = x.reg r ∧ y.tag r = x.tag r) ∧ (∀ n, pred n = false → y.pred n = x.pred n) ∧
    y.lk = x.lk ∧ y.hold0 = x.hold0 ∧ y.hold1 = x.hold1 ∧ y.hold2 = x.hold2 ∧ y.hold3 = x.hold3 ∧ y.grp = x.grp ∧ y.save = x.save ∧
    y.sscr0 = x.sscr0 ∧ y.sscr1 = x.sscr1 ∧ y.sscr2 = x.sscr2 ∧ y.rgrant = x.rgrant ∧ y.rcause = x.rcause ∧ y.arr0 = x.arr0 ∧
    y.fpf &&& x.fpf = x.fpf ∧ y.status &&& x.status = x.status

/-- The register-computing instructions of the W form, with whether they write an x-pair. -/
def wideOf : List ((WForm → Instr) × (WForm → Bool)) :=
  let ty (f : WForm) : Bool := is64 f.ty
  let no (_ : WForm) : Bool := false
  [(.add, ty), (.sub, ty), (.mul, ty), (.div, ty), (.rem, ty), (.min, ty), (.max, ty), (.absd, ty), (.and, ty), (.or, ty), (.xor, ty), (.andn, ty),
   (.shl, ty), (.shr, ty), (.sar, ty), (.rotl, ty), (.bfx, no), (.bitop, fun f => decide (3 ≤ f.var) && f.ty == 9), (.permb, no), (.mov, no),
   (.movx, fun _ => true), (.fadd, no), (.fsub, no), (.fmul, no), (.fmin, no), (.fmax, no), (.funary, no), (.fspecial, no), (.fclass, no),
   (.hadd2, no), (.hmul2, no), (.hmin2, no), (.hmax2, no), (.cvt, ty), (.pack2, no), (.unpack, no), (.bfpd, no), (.tagset, no), (.tagget, no)]

/-- Those of the V and I forms; each writes the one register D. -/
def computeV : List (VForm → Instr) :=
  [.mad, .madhiI, .madhiN, .sad, .funnel, .bfi, .sel, .ffma, .hfma2, .bfma2, .hdot2, .bdot2, .idot4, .idot4n]
def computeI : List (IForm → Instr) := [.addi, .muli, .andi, .ori, .xori, .shi, .movi, .movih, .fmuli]

end Sys2Proof.Claims

/-- The worked encodings of the spec's chapters 9 to 13 read as the statements that they stand for. -/
def Obligations.WorkedEncodingsDecode : Prop :=
  decode 0x1038508117E81400 = some (.add ⟨head false 3 true, 5, 4, 4, 0x0BF, 0x081, 1, 0⟩) ∧
  decode 0x5300812285800000 = some (.ffma ⟨head false 0 false, 8, 9, 10, 11, 0, 0, 0, 0⟩) ∧
  decode 0x2B0050C008000003 = some (.shi ⟨head false 0 false, 5, 6, 0, 0x8000003⟩) ∧
  decode 0x0120000030000000 = some (.bra ⟨head false 2 false, 6, 0, 0⟩) ∧
  decode 0x9900604004400100 = some (.st32 ⟨head false 0 false, 6, 2, 0, 2, 1, 0x100⟩) ∧
  decode 0x9D00504003940000 = some (.cas ⟨head false 0 false, 5, 2, 0, 7, 0x050, 0, 0, 0⟩) ∧
  decode 0x8D80000000000002 = some (.rget ⟨head true 0 false, 0, 0, 0, 2⟩) ∧
  decode 0xD000000800848000 = some (.mfs ⟨head false 0 false, 0, 2, 0, 0x109, 0⟩)

/-- R165 to R176, R185: the word of every legal instruction, every field at every value that it admits, reads back as the instruction; a word that
reads as an instruction is that instruction's word, so no bit is dropped either way. -/
def Obligations.DecodeAndEncodeAgree : Prop :=
  (∀ (i : Instr) (w : W64), WellFormed i → encode i = some w → decode w = some i) ∧
  (∀ (i : Instr) (w : W64), decode w = some i → WellFormed i ∧ encode i = some w)

/-- R17, R168, R182, R185: a step issues the first open port: the instruction at the PC of the threads that stand there still, inside their block or behind a
right header, executes on them; a word that is none traps ILLEGAL with the word in %tval. With no port open, an event of the agenda executes. -/
def Obligations.StepRunsDecodedInstruction : Prop :=
  (∀ (s : State) (p : Port) (ps : List Port) (w : W64),
    let k := s.core p.core
    let set := p.set.filter (fun t => s.ready p.core t && (k.thread t).pc == p.pc && (k.thread t).blk == p.blk)
    let issued (pc h0 h : W64) : State := { s with ports := ps, cur := { p with set := set, pc := pc, blk := some (h0, h), word := w,
                                                                                last := pc == h0 + 8 * (h.extractLsb' 52 8).setWidth 64 } }
    s.ports = p :: ps → set ≠ [] →
    (∀ h0 h, p.blk = some (h0, h) → k.fetch p.pc = some w →
      (∀ i, decode w = some i → step s = exec i (issued p.pc h0 h)) ∧
      (decode w = none → step s = .next (set.foldl (fun s t => s.trap p.core t .illegal p.pc w) ((issued p.pc h0 h).issued p.core p.phrase set)))) ∧
    (∀ h, p.blk = none → p.pc.toNat % 8 = 0 → k.fetch p.pc = some h → headerOk h = .ok → (∀ t ∈ set, (k.thread t).vec = false) →
      k.fetch (p.pc + 8) = some w →
      (∀ i, decode w = some i → step s = exec i (issued (p.pc + 8) p.pc h)) ∧
      (decode w = none → step s = .next (set.foldl (fun s t => s.trap p.core t .illegal (p.pc + 8) w) ((issued (p.pc + 8) p.pc h).issued p.core p.phrase set))))) ∧
  (∀ (s : State) (i : Instr) (as : List Act), s.ports = [] → s.agenda = .event i :: as → encode i = none → step s = exec i { s with agenda := as })

/-- What reset leaves where the spec gives it: no thread lives and no instance runs, the status registers of the device are 0, every memory
reads 0 (a byte that nothing has written: log 2). -/
def Obligations.ResetState : Prop :=
  let s := State.reset
  Canonical s ∧ (∀ a, Map.get 0 s.mem a = 0) ∧
  (∀ c t, (s.core c).live t = false ∧ (s.core c).inst = none ∧ (s.core c).evt = 0 ∧ (s.core c).tickIv = 0 ∧ (s.core c).sphase = 0 ∧ (s.core c).clock = 0) ∧
  (∀ q, (s.slot q).bound = false ∧ (s.slot q).prio = 0) ∧ (∀ d, (s.die d).fqsize = 0 ∧ (s.die d).fqhead = 0 ∧ (s.die d).fqtail = 0 ∧ (s.die d).droops = 0) ∧
  (∀ i, Map.get 0 s.kwr i = 0) ∧ s.pendBits = [] ∧ s.ptbase = 0 ∧ s.invva = 0 ∧ s.invlen = 0 ∧ s.inv = none ∧ s.mig.busy = false ∧
  s.partcount = 0 ∧ s.strcount = 0 ∧ s.pwcount = 0 ∧ s.qpcount = 0 ∧ s.boot.ready = false ∧ s.boot.fails = 0 ∧ s.locked = false ∧ s.portsUp = 0

/-- A step keeps device, host and peer memory in the canonical form (the model's form of R8's memories: log 2). -/
def Obligations.StepsKeepMemoryCanonical : Prop := ∀ s s' : State, Canonical s → step s = .next s' → Canonical s'

/-- R41, R56, R57, R188: the frame of the instructions that compute registers, in every outcome. -/
def Obligations.ComputeLeavesTheRest : Prop :=
  (∀ e ∈ wideOf, ∀ (f : WForm) (s : State) (t : Nat),
    ComputeFrame (e.1 f) s t (fun r => r == f.d.toNat || (e.2 f && r == f.d.toNat + 1)) (fun _ => false)) ∧
  (∀ i ∈ computeV, ∀ (f : VForm) (s : State) (t : Nat), ComputeFrame (i f) s t (fun r => r == f.d.toNat) (fun _ => false)) ∧
  (∀ i ∈ computeI, ∀ (f : IForm) (s : State) (t : Nat), ComputeFrame (i f) s t (fun r => r == f.d.toNat) (fun _ => false)) ∧
  (∀ (f : WForm) (s : State) (t : Nat), ComputeFrame (.setp f) s t (fun _ => false) (fun n => n == f.d.toNat % 8) ∧
    ComputeFrame (.plogic f) s t (fun _ => false) (fun n => n == f.d.toNat % 8) ∧
    ComputeFrame (.addc f) s t (fun r => r == f.d.toNat) (fun n => n == (f.fn.extractLsb' 3 3).toNat) ∧
    ComputeFrame (.subb f) s t (fun r => r == f.d.toNat) (fun n => n == (f.fn.extractLsb' 3 3).toNat))
end

