-- ==== Sys2Proof/Laws/Arms.lean ====
section
/-! SUPPORT. Which meaning each instruction has: one equation per arm of `exec`, so that no proof unfolds the whole match. -/

set_option Elab.async false

namespace Sys2Proof.Machine
open Sys2Proof

theorem exec_nop (f : VForm) (s : State) : exec (.nop f) s = execNop f s := rfl
theorem exec_bra (f : CForm) (s : State) : exec (.bra f) s = execBra f s := rfl
theorem exec_call (f : CForm) (s : State) : exec (.call f) s = execCall f s := rfl
theorem exec_jmpi (f : CForm) (s : State) : exec (.jmpi f) s = execJmpi f s := rfl
theorem exec_calli (f : CForm) (s : State) : exec (.calli f) s = execCalli f s := rfl
theorem exec_ret (f : CForm) (s : State) : exec (.ret f) s = execRet f s := rfl
theorem exec_exit (f : CForm) (s : State) : exec (.exit f) s = execExit f s := rfl
theorem exec_yield (f : CForm) (s : State) : exec (.yield f) s = execYield f s := rfl
theorem exec_trap (f : IForm) (s : State) : exec (.trap f) s = execTrap f s := rfl
theorem exec_brk (f : IForm) (s : State) : exec (.brk f) s = execBrk f s := rfl
theorem exec_holdx (f : CForm) (s : State) : exec (.holdx f) s = execHoldx f s := rfl
theorem exec_sleep (f : IForm) (s : State) : exec (.sleep f) s = execSleep f s := rfl
theorem exec_add (f : WForm) (s : State) : exec (.add f) s = execAdd f s := rfl
theorem exec_sub (f : WForm) (s : State) : exec (.sub f) s = execSub f s := rfl
theorem exec_mul (f : WForm) (s : State) : exec (.mul f) s = execMul f s := rfl
theorem exec_mad (f : VForm) (s : State) : exec (.mad f) s = execMad f s := rfl
theorem exec_madhiI (f : VForm) (s : State) : exec (.madhiI f) s = execMadhiI f s := rfl
theorem exec_madhiN (f : VForm) (s : State) : exec (.madhiN f) s = execMadhiN f s := rfl
theorem exec_div (f : WForm) (s : State) : exec (.div f) s = execDiv f s := rfl
theorem exec_rem (f : WForm) (s : State) : exec (.rem f) s = execRem f s := rfl
theorem exec_min (f : WForm) (s : State) : exec (.min f) s = execMin f s := rfl
theorem exec_max (f : WForm) (s : State) : exec (.max f) s = execMax f s := rfl
theorem exec_absd (f : WForm) (s : State) : exec (.absd f) s = execAbsd f s := rfl
theorem exec_addi (f : IForm) (s : State) : exec (.addi f) s = execAddi f s := rfl
theorem exec_muli (f : IForm) (s : State) : exec (.muli f) s = execMuli f s := rfl
theorem exec_addc (f : WForm) (s : State) : exec (.addc f) s = execAddc f s := rfl
theorem exec_subb (f : WForm) (s : State) : exec (.subb f) s = execSubb f s := rfl
theorem exec_sad (f : VForm) (s : State) : exec (.sad f) s = execSad f s := rfl
theorem exec_and (f : WForm) (s : State) : exec (.and f) s = execAnd f s := rfl
theorem exec_or (f : WForm) (s : State) : exec (.or f) s = execOr f s := rfl
theorem exec_xor (f : WForm) (s : State) : exec (.xor f) s = execXor f s := rfl
theorem exec_andn (f : WForm) (s : State) : exec (.andn f) s = execAndn f s := rfl
theorem exec_shl (f : WForm) (s : State) : exec (.shl f) s = execShl f s := rfl
theorem exec_shr (f : WForm) (s : State) : exec (.shr f) s = execShr f s := rfl
theorem exec_sar (f : WForm) (s : State) : exec (.sar f) s = execSar f s := rfl
theorem exec_rotl (f : WForm) (s : State) : exec (.rotl f) s = execRotl f s := rfl
theorem exec_andi (f : IForm) (s : State) : exec (.andi f) s = execAndi f s := rfl
theorem exec_ori (f : IForm) (s : State) : exec (.ori f) s = execOri f s := rfl
theorem exec_xori (f : IForm) (s : State) : exec (.xori f) s = execXori f s := rfl
theorem exec_shi (f : IForm) (s : State) : exec (.shi f) s = execShi f s := rfl
theorem exec_funnel (f : VForm) (s : State) : exec (.funnel f) s = execFunnel f s := rfl
theorem exec_bfx (f : WForm) (s : State) : exec (.bfx f) s = execBfx f s := rfl
theorem exec_bfi (f : VForm) (s : State) : exec (.bfi f) s = execBfi f s := rfl
theorem exec_bitop (f : WForm) (s : State) : exec (.bitop f) s = execBitop f s := rfl
theorem exec_setp (f : WForm) (s : State) : exec (.setp f) s = execSetp f s := rfl
theorem exec_setpi (f : IForm) (s : State) : exec (.setpi f) s = execSetpi f s := rfl
theorem exec_plogic (f : WForm) (s : State) : exec (.plogic f) s = execPlogic f s := rfl
theorem exec_sel (f : VForm) (s : State) : exec (.sel f) s = execSel f s := rfl
theorem exec_pmov (f : WForm) (s : State) : exec (.pmov f) s = execPmov f s := rfl
theorem exec_vote (f : WForm) (s : State) : exec (.vote f) s = execVote f s := rfl
theorem exec_matchG (f : WForm) (s : State) : exec (.matchG f) s = execMatchG f s := rfl
theorem exec_permb (f : WForm) (s : State) : exec (.permb f) s = execPermb f s := rfl
theorem exec_lea (f : WForm) (s : State) : exec (.lea f) s = execLea f s := rfl
theorem exec_movi (f : IForm) (s : State) : exec (.movi f) s = execMovi f s := rfl
theorem exec_movih (f : IForm) (s : State) : exec (.movih f) s = execMovih f s := rfl
theorem exec_mov (f : WForm) (s : State) : exec (.mov f) s = execMov f s := rfl
theorem exec_movx (f : WForm) (s : State) : exec (.movx f) s = execMovx f s := rfl
theorem exec_fadd (f : WForm) (s : State) : exec (.fadd f) s = execFadd f s := rfl
theorem exec_fsub (f : WForm) (s : State) : exec (.fsub f) s = execFsub f s := rfl
theorem exec_fmul (f : WForm) (s : State) : exec (.fmul f) s = execFmul f s := rfl
theorem exec_ffma (f : VForm) (s : State) : exec (.ffma f) s = execFfma f s := rfl
theorem exec_fmin (f : WForm) (s : State) : exec (.fmin f) s = execFmin f s := rfl
theorem exec_fmax (f : WForm) (s : State) : exec (.fmax f) s = execFmax f s := rfl
theorem exec_funary (f : WForm) (s : State) : exec (.funary f) s = execFunary f s := rfl
theorem exec_fspecial (f : WForm) (s : State) : exec (.fspecial f) s = execFspecial f s := rfl
theorem exec_fclass (f : WForm) (s : State) : exec (.fclass f) s = execFclass f s := rfl
theorem exec_fmuli (f : IForm) (s : State) : exec (.fmuli f) s = execFmuli f s := rfl
theorem exec_hadd2 (f : WForm) (s : State) : exec (.hadd2 f) s = execHadd2 f s := rfl
theorem exec_hmul2 (f : WForm) (s : State) : exec (.hmul2 f) s = execHmul2 f s := rfl
theorem exec_hfma2 (f : VForm) (s : State) : exec (.hfma2 f) s = execHfma2 f s := rfl
theorem exec_bfma2 (f : VForm) (s : State) : exec (.bfma2 f) s = execBfma2 f s := rfl
theorem exec_hmin2 (f : WForm) (s : State) : exec (.hmin2 f) s = execHmin2 f s := rfl
theorem exec_hmax2 (f : WForm) (s : State) : exec (.hmax2 f) s = execHmax2 f s := rfl
theorem exec_hdot2 (f : VForm) (s : State) : exec (.hdot2 f) s = execHdot2 f s := rfl
theorem exec_bdot2 (f : VForm) (s : State) : exec (.bdot2 f) s = execBdot2 f s := rfl
theorem exec_idot4 (f : VForm) (s : State) : exec (.idot4 f) s = execIdot4 f s := rfl
theorem exec_idot4n (f : VForm) (s : State) : exec (.idot4n f) s = execIdot4n f s := rfl
theorem exec_cvt (f : WForm) (s : State) : exec (.cvt f) s = execCvt f s := rfl
theorem exec_pack2 (f : WForm) (s : State) : exec (.pack2 f) s = execPack2 f s := rfl
theorem exec_unpack (f : WForm) (s : State) : exec (.unpack f) s = execUnpack f s := rfl
theorem exec_bfpq (f : WForm) (s : State) : exec (.bfpq f) s = execBfpq f s := rfl
theorem exec_bfpd (f : WForm) (s : State) : exec (.bfpd f) s = execBfpd f s := rfl
theorem exec_tagset (f : WForm) (s : State) : exec (.tagset f) s = execTagset f s := rfl
theorem exec_tagget (f : WForm) (s : State) : exec (.tagget f) s = execTagget f s := rfl
theorem exec_reduce (f : WForm) (s : State) : exec (.reduce f) s = execReduce f s := rfl
theorem exec_scan (f : WForm) (s : State) : exec (.scan f) s = execScan f s := rfl
theorem exec_join (f : IForm) (s : State) : exec (.join f) s = execJoin f s := rfl
theorem exec_leave (f : IForm) (s : State) : exec (.leave f) s = execLeave f s := rfl
theorem exec_bara (f : IForm) (s : State) : exec (.bara f) s = execBara f s := rfl
theorem exec_bars (f : IForm) (s : State) : exec (.bars f) s = execBars f s := rfl
theorem exec_barw (f : IForm) (s : State) : exec (.barw f) s = execBarw f s := rfl
theorem exec_lend (f : IForm) (s : State) : exec (.lend f) s = execLend f s := rfl
theorem exec_recruit (f : EForm) (s : State) : exec (.recruit f) s = execRecruit f s := rfl
theorem exec_iter (f : WForm) (s : State) : exec (.iter f) s = execIter f s := rfl
theorem exec_contrib (f : WForm) (s : State) : exec (.contrib f) s = execContrib f s := rfl
theorem exec_rjoin (f : IForm) (s : State) : exec (.rjoin f) s = execRjoin f s := rfl
theorem exec_reclaim (f : IForm) (s : State) : exec (.reclaim f) s = execReclaim f s := rfl
theorem exec_rget (f : IForm) (s : State) : exec (.rget f) s = execRget f s := rfl
theorem exec_rput (f : IForm) (s : State) : exec (.rput f) s = execRput f s := rfl
theorem exec_dispense (f : WForm) (s : State) : exec (.dispense f) s = execDispense f s := rfl
theorem exec_ld8 (f : MForm) (s : State) : exec (.ld8 f) s = execLd8 f s := rfl
theorem exec_ld8s (f : MForm) (s : State) : exec (.ld8s f) s = execLd8s f s := rfl
theorem exec_ld16 (f : MForm) (s : State) : exec (.ld16 f) s = execLd16 f s := rfl
theorem exec_ld16s (f : MForm) (s : State) : exec (.ld16s f) s = execLd16s f s := rfl
theorem exec_ld32 (f : MForm) (s : State) : exec (.ld32 f) s = execLd32 f s := rfl
theorem exec_ld64 (f : MForm) (s : State) : exec (.ld64 f) s = execLd64 f s := rfl
theorem exec_ld128 (f : MForm) (s : State) : exec (.ld128 f) s = execLd128 f s := rfl
theorem exec_st8 (f : MForm) (s : State) : exec (.st8 f) s = execSt8 f s := rfl
theorem exec_st16 (f : MForm) (s : State) : exec (.st16 f) s = execSt16 f s := rfl
theorem exec_st32 (f : MForm) (s : State) : exec (.st32 f) s = execSt32 f s := rfl
theorem exec_st64 (f : MForm) (s : State) : exec (.st64 f) s = execSt64 f s := rfl
theorem exec_st128 (f : MForm) (s : State) : exec (.st128 f) s = execSt128 f s := rfl
theorem exec_atom (f : WForm) (s : State) : exec (.atom f) s = execAtom f s := rfl
theorem exec_cas (f : VForm) (s : State) : exec (.cas f) s = execCas f s := rfl
theorem exec_fence (f : SForm) (s : State) : exec (.fence f) s = execFence f s := rfl
theorem exec_ntdrain (f : SForm) (s : State) : exec (.ntdrain f) s = execNtdrain f s := rfl
theorem exec_rmap (f : EForm) (s : State) : exec (.rmap f) s = execRmap f s := rfl
theorem exec_runmap (f : EForm) (s : State) : exec (.runmap f) s = execRunmap f s := rfl
theorem exec_wback (f : EForm) (s : State) : exec (.wback f) s = execWback f s := rfl
theorem exec_cpy (f : EForm) (s : State) : exec (.cpy f) s = execCpy f s := rfl
theorem exec_cpyd (f : EForm) (s : State) : exec (.cpyd f) s = execCpyd f s := rfl
theorem exec_acpy (f : EForm) (s : State) : exec (.acpy f) s = execAcpy f s := rfl
theorem exec_gatom (f : EForm) (s : State) : exec (.gatom f) s = execGatom f s := rfl
theorem exec_semwaitTake (f : EForm) (s : State) : exec (.semwaitTake f) s = execSemwaitTake f s := rfl
theorem exec_semwaitEq (f : EForm) (s : State) : exec (.semwaitEq f) s = execSemwaitEq f s := rfl
theorem exec_sempost (f : EForm) (s : State) : exec (.sempost f) s = execSempost f s := rfl
theorem exec_tbinit (f : EForm) (s : State) : exec (.tbinit f) s = execTbinit f s := rfl
theorem exec_tbwait (f : EForm) (s : State) : exec (.tbwait f) s = execTbwait f s := rfl
theorem exec_tbtest (f : EForm) (s : State) : exec (.tbtest f) s = execTbtest f s := rfl
theorem exec_sjoin (f : EForm) (s : State) : exec (.sjoin f) s = execSjoin f s := rfl
theorem exec_sleave (f : EForm) (s : State) : exec (.sleave f) s = execSleave f s := rfl
theorem exec_mfence (f : EForm) (s : State) : exec (.mfence f) s = execMfence f s := rfl
theorem exec_mma (f : EForm) (s : State) : exec (.mma f) s = execMma f s := rfl
theorem exec_mwait (f : EForm) (s : State) : exec (.mwait f) s = execMwait f s := rfl
theorem exec_mprogProg (f : EForm) (s : State) : exec (.mprogProg f) s = execMprogProg f s := rfl
theorem exec_mprogCopy (f : EForm) (s : State) : exec (.mprogCopy f) s = execMprogCopy f s := rfl
theorem exec_mprogLast (f : EForm) (s : State) : exec (.mprogLast f) s = execMprogLast f s := rfl
theorem exec_mstop (f : EForm) (s : State) : exec (.mstop f) s = execMstop f s := rfl
theorem exec_mresume (f : EForm) (s : State) : exec (.mresume f) s = execMresume f s := rfl
theorem exec_mresumeLoad (f : EForm) (s : State) : exec (.mresumeLoad f) s = execMresumeLoad f s := rfl
theorem exec_mresumeTick (f : EForm) (s : State) : exec (.mresumeTick f) s = execMresumeTick f s := rfl
theorem exec_aclr (f : EForm) (s : State) : exec (.aclr f) s = execAclr f s := rfl
theorem exec_cvclr (f : EForm) (s : State) : exec (.cvclr f) s = execCvclr f s := rfl
theorem exec_cvpath (f : EForm) (s : State) : exec (.cvpath f) s = execCvpath f s := rfl
theorem exec_cvscan (f : EForm) (s : State) : exec (.cvscan f) s = execCvscan f s := rfl
theorem exec_cvbox (f : WForm) (s : State) : exec (.cvbox f) s = execCvbox f s := rfl
theorem exec_cvstop (f : EForm) (s : State) : exec (.cvstop f) s = execCvstop f s := rfl
theorem exec_cvresume (f : EForm) (s : State) : exec (.cvresume f) s = execCvresume f s := rfl
theorem exec_cvsaveImg (f : EForm) (s : State) : exec (.cvsaveImg f) s = execCvsaveImg f s := rfl
theorem exec_cvsaveCtl (f : EForm) (s : State) : exec (.cvsaveCtl f) s = execCvsaveCtl f s := rfl
theorem exec_cvsaveQ (f : EForm) (s : State) : exec (.cvsaveQ f) s = execCvsaveQ f s := rfl
theorem exec_cvloadImg (f : EForm) (s : State) : exec (.cvloadImg f) s = execCvloadImg f s := rfl
theorem exec_cvloadCtl (f : EForm) (s : State) : exec (.cvloadCtl f) s = execCvloadCtl f s := rfl
theorem exec_cvloadQ (f : EForm) (s : State) : exec (.cvloadQ f) s = execCvloadQ f s := rfl
theorem exec_mfs (f : SForm) (s : State) : exec (.mfs f) s = execMfs f s := rfl
theorem exec_mts (f : SForm) (s : State) : exec (.mts f) s = execMts f s := rfl
theorem exec_eret (f : SForm) (s : State) : exec (.eret f) s = execEret f s := rfl
theorem exec_wfi (f : SForm) (s : State) : exec (.wfi f) s = execWfi f s := rfl
theorem exec_qbind (f : SForm) (s : State) : exec (.qbind f) s = execQbind f s := rfl
theorem exec_qunbind (f : SForm) (s : State) : exec (.qunbind f) s = execQunbind f s := rfl
theorem exec_kpend (f : SForm) (s : State) : exec (.kpend f) s = execKpend f s := rfl
theorem exec_ipi (f : SForm) (s : State) : exec (.ipi f) s = execIpi f s := rfl
theorem exec_iflush (f : SForm) (s : State) : exec (.iflush f) s = execIflush f s := rfl
theorem exec_evtWrite (f : SForm) (s : State) : exec (.evtWrite f) s = execEvtWrite f s := rfl
theorem exec_bcntWrite (f : SForm) (s : State) : exec (.bcntWrite f) s = execBcntWrite f s := rfl
theorem exec_tctxWrite (f : SForm) (s : State) : exec (.tctxWrite f) s = execTctxWrite f s := rfl
theorem exec_tsaveWrite (f : SForm) (s : State) : exec (.tsaveWrite f) s = execTsaveWrite f s := rfl
theorem exec_tloadWrite (f : SForm) (s : State) : exec (.tloadWrite f) s = execTloadWrite f s := rfl
theorem exec_sphaseWrite (f : SForm) (s : State) : exec (.sphaseWrite f) s = execSphaseWrite f s := rfl
theorem exec_dump (core : Nat) (s : State) : exec (.dump core) s = execDump core s := rfl
theorem exec_dumpd (core : Nat) (s : State) : exec (.dumpd core) s = execDumpd core s := rfl
theorem exec_load (core : Nat) (s : State) : exec (.load core) s = execLoad core s := rfl
theorem exec_run (core : Nat) (s : State) : exec (.run core) s = execRun core s := rfl
theorem exec_free (core : Nat) (s : State) : exec (.free core) s = execFree core s := rfl
theorem exec_dumpImageWrite (core : Nat) (s : State) : exec (.dumpImageWrite core) s = execDumpImageWrite core s := rfl
theorem exec_preemptDelivery (core : Nat) (s : State) : exec (.preemptDelivery core) s = execPreemptDelivery core s := rfl
theorem exec_segmentGuard (core slot : Nat) (s : State) : exec (.segmentGuard core slot) s = execSegmentGuard core slot s := rfl
theorem exec_threadAgeGuard (core slot : Nat) (s : State) : exec (.threadAgeGuard core slot) s = execThreadAgeGuard core slot s := rfl
theorem exec_holdTimeout (core tid : Nat) (s : State) : exec (.holdTimeout core tid) s = execHoldTimeout core tid s := rfl
theorem exec_sleepExpire (core tid : Nat) (s : State) : exec (.sleepExpire core tid) s = execSleepExpire core tid s := rfl
theorem exec_yieldExpire (core tid : Nat) (s : State) : exec (.yieldExpire core tid) s = execYieldExpire core tid s := rfl
theorem exec_bartimeout (core tid : Nat) (s : State) : exec (.bartimeout core tid) s = execBartimeout core tid s := rfl
theorem exec_subordinateKill (core tid : Nat) (s : State) : exec (.subordinateKill core tid) s = execSubordinateKill core tid s := rfl
theorem exec_loadDataReturn (core tid : Nat) (s : State) : exec (.loadDataReturn core tid) s = execLoadDataReturn core tid s := rfl
theorem exec_lineFillComplete (core line : Nat) (memErr : Bool) (s : State) : exec (.lineFillComplete core line memErr) s = execLineFillComplete core line memErr s := rfl
theorem exec_lineWritebackComplete (core line : Nat) (memErr : Bool) (s : State) : exec (.lineWritebackComplete core line memErr) s = execLineWritebackComplete core line memErr s := rfl
theorem exec_forwardedWritePerform (core region : Nat) (memErr : Bool) (s : State) : exec (.forwardedWritePerform core region memErr) s = execForwardedWritePerform core region memErr s := rfl
theorem exec_ntWriteback (core line : Nat) (memErr : Bool) (s : State) : exec (.ntWriteback core line memErr) s = execNtWriteback core line memErr s := rfl
theorem exec_promotionRequest (core : Nat) (s : State) : exec (.promotionRequest core) s = execPromotionRequest core s := rfl
theorem exec_icacheFill (core line : Nat) (memErr : Bool) (s : State) : exec (.icacheFill core line memErr) s = execIcacheFill core line memErr s := rfl
theorem exec_copyStart (core id : Nat) (s : State) : exec (.copyStart core id) s = execCopyStart core id s := rfl
theorem exec_copyRetire (core id : Nat) (memErr : Bool) (s : State) : exec (.copyRetire core id memErr) s = execCopyRetire core id memErr s := rfl
theorem exec_semwaitSucceed (core id : Nat) (memErr : Bool) (s : State) : exec (.semwaitSucceed core id memErr) s = execSemwaitSucceed core id memErr s := rfl
theorem exec_sempostPerform (core id : Nat) (memErr : Bool) (s : State) : exec (.sempostPerform core id memErr) s = execSempostPerform core id memErr s := rfl
theorem exec_dispenserClaim (core disp : Nat) (s : State) : exec (.dispenserClaim core disp) s = execDispenserClaim core disp s := rfl
theorem exec_shareRevocation (core : Nat) (s : State) : exec (.shareRevocation core) s = execShareRevocation core s := rfl
theorem exec_matrixOpStart (core : Nat) (s : State) : exec (.matrixOpStart core) s = execMatrixOpStart core s := rfl
theorem exec_matrixKblock (core : Nat) (s : State) : exec (.matrixKblock core) s = execMatrixKblock core s := rfl
theorem exec_matrixOpEnd (core : Nat) (s : State) : exec (.matrixOpEnd core) s = execMatrixOpEnd core s := rfl
theorem exec_covCommandStart (core : Nat) (s : State) : exec (.covCommandStart core) s = execCovCommandStart core s := rfl
theorem exec_covPathRecord (core : Nat) (s : State) : exec (.covPathRecord core) s = execCovPathRecord core s := rfl
theorem exec_pageWalkComplete (die idx : Nat) (s : State) : exec (.pageWalkComplete die idx) s = execPageWalkComplete die idx s := rfl
theorem exec_fqheadWrite (die : Nat) (value : W32) (s : State) : exec (.fqheadWrite die value) s = execFqheadWrite die value s := rfl
theorem exec_frespRetry (die : Nat) (token : W32) (s : State) : exec (.frespRetry die token) s = execFrespRetry die token s := rfl
theorem exec_frespFail (die : Nat) (token : W32) (s : State) : exec (.frespFail die token) s = execFrespFail die token s := rfl
theorem exec_invcmd (value : W64) (s : State) : exec (.invcmd value) s = execInvcmd value s := rfl
theorem exec_invalidationComplete (s : State) : exec (.invalidationComplete) s = execInvalidationComplete s := rfl
theorem exec_miggo (value : W32) (s : State) : exec (.miggo value) s = execMiggo value s := rfl
theorem exec_migrationRound (s : State) : exec (.migrationRound) s = execMigrationRound s := rfl
theorem exec_atsTranslationCompletion (idx hostPage : Nat) (readable writable : Bool) (s : State) : exec (.atsTranslationCompletion idx hostPage readable writable) s = execAtsTranslationCompletion idx hostPage readable writable s := rfl
theorem exec_priResponse (idx : Nat) (success : Bool) (s : State) : exec (.priResponse idx success) s = execPriResponse idx success s := rfl
theorem exec_atsInvalidateRequest (pasid va len : Nat) (s : State) : exec (.atsInvalidateRequest pasid va len) s = execAtsInvalidateRequest pasid va len s := rfl
theorem exec_kwrWrite (func off size : Nat) (value : W64) (s : State) : exec (.kwrWrite func off size value) s = execKwrWrite func off size value s := rfl
theorem exec_queueLookahead (slot : Nat) (memErr : Bool) (s : State) : exec (.queueLookahead slot memErr) s = execQueueLookahead slot memErr s := rfl
theorem exec_launchPacket (slot : Nat) (memErr : Bool) (s : State) : exec (.launchPacket slot memErr) s = execLaunchPacket slot memErr s := rfl
theorem exec_callPacket (slot : Nat) (s : State) : exec (.callPacket slot) s = execCallPacket slot s := rfl
theorem exec_returnPacket (slot : Nat) (s : State) : exec (.returnPacket slot) s = execReturnPacket slot s := rfl
theorem exec_joinPacket (slot : Nat) (s : State) : exec (.joinPacket slot) s = execJoinPacket slot s := rfl
theorem exec_condPacket (slot : Nat) (memErr : Bool) (s : State) : exec (.condPacket slot memErr) s = execCondPacket slot memErr s := rfl
theorem exec_signalPacket (slot : Nat) (memErr : Bool) (s : State) : exec (.signalPacket slot memErr) s = execSignalPacket slot memErr s := rfl
theorem exec_waitPacket (slot : Nat) (s : State) : exec (.waitPacket slot) s = execWaitPacket slot s := rfl
theorem exec_waitSatisfied (slot : Nat) (memErr : Bool) (s : State) : exec (.waitSatisfied slot memErr) s = execWaitSatisfied slot memErr s := rfl
theorem exec_waitTimeout (slot : Nat) (s : State) : exec (.waitTimeout slot) s = execWaitTimeout slot s := rfl
theorem exec_framePacket (slot : Nat) (s : State) : exec (.framePacket slot) s = execFramePacket slot s := rfl
theorem exec_nopPacket (slot : Nat) (s : State) : exec (.nopPacket slot) s = execNopPacket slot s := rfl
theorem exec_instanceEnd (core : Nat) (s : State) : exec (.instanceEnd core) s = execInstanceEnd core s := rfl
theorem exec_coreAllocation (core : Nat) (s : State) : exec (.coreAllocation core) s = execCoreAllocation core s := rfl
theorem exec_launchWatchdog (slot : Nat) (s : State) : exec (.launchWatchdog slot) s = execLaunchWatchdog slot s := rfl
theorem exec_tick (cc : Nat) (s : State) : exec (.tick cc) s = execTick cc s := rfl
theorem exec_gangTick (part : Nat) (s : State) : exec (.gangTick part) s = execGangTick part s := rfl
theorem exec_saveDeadline (part : Nat) (s : State) : exec (.saveDeadline part) s = execSaveDeadline part s := rfl
theorem exec_prestop (part : Nat) (s : State) : exec (.prestop part) s = execPrestop part s := rfl
theorem exec_parkThreshold (core : Nat) (s : State) : exec (.parkThreshold core) s = execParkThreshold core s := rfl
theorem exec_apply (value : W32) (s : State) : exec (.apply value) s = execApply value s := rfl
theorem exec_activate (value : W32) (s : State) : exec (.activate value) s = execActivate value s := rfl
theorem exec_diereset (value : W32) (directoryAnswers : Bool) (s : State) : exec (.diereset value directoryAnswers) s = execDiereset value directoryAnswers s := rfl
theorem exec_rststatRead (s : State) : exec (.rststatRead) s = execRststatRead s := rfl
theorem exec_mmioRegisterWrite (func off size : Nat) (value : W64) (s : State) : exec (.mmioRegisterWrite func off size value) s = execMmioRegisterWrite func off size value s := rfl
theorem exec_bar2Access (write : Bool) (addr : Nat) (bytes : List Byte) (s : State) : exec (.bar2Access write addr bytes) s = execBar2Access write addr bytes s := rfl
theorem exec_telemetryRefresh (s : State) : exec (.telemetryRefresh) s = execTelemetryRefresh s := rfl
theorem exec_frameEmit (stream : Nat) (s : State) : exec (.frameEmit stream) s = execFrameEmit stream s := rfl
theorem exec_frameSubstitute (stream : Nat) (s : State) : exec (.frameSubstitute stream) s = execFrameSubstitute stream s := rfl
theorem exec_bootctlWarmStart (s : State) : exec (.bootctlWarmStart) s = execBootctlWarmStart s := rfl
theorem exec_bootctlColdStart (s : State) : exec (.bootctlColdStart) s = execBootctlColdStart s := rfl
theorem exec_powerOn (s : State) : exec (.powerOn) s = execPowerOn s := rfl
theorem exec_fundamentalReset (s : State) : exec (.fundamentalReset) s = execFundamentalReset s := rfl
theorem exec_hotReset (s : State) : exec (.hotReset) s = execHotReset s := rfl
theorem exec_linkDown (s : State) : exec (.linkDown) s = execLinkDown s := rfl
theorem exec_flr (func : Nat) (s : State) : exec (.flr func) s = execFlr func s := rfl
theorem exec_surpriseRemoval (s : State) : exec (.surpriseRemoval) s = execSurpriseRemoval s := rfl
theorem exec_startTimeout (s : State) : exec (.startTimeout) s = execStartTimeout s := rfl
theorem exec_rdmaWrite (qp : Nat) (rkey : W32) (va : W64) (bytes : List Byte) (s : State) : exec (.rdmaWrite qp rkey va bytes) s = execRdmaWrite qp rkey va bytes s := rfl
theorem exec_rdmaRead (qp : Nat) (rkey : W32) (va : W64) (len : Nat) (s : State) : exec (.rdmaRead qp rkey va len) s = execRdmaRead qp rkey va len s := rfl
theorem exec_send (qp : Nat) (psn : W32) (bytes : List Byte) (s : State) : exec (.send qp psn bytes) s = execSend qp psn bytes s := rfl
theorem exec_rdmaAck (qp : Nat) (s : State) : exec (.rdmaAck qp) s = execRdmaAck qp s := rfl
theorem exec_rdmaReadResponse (qp : Nat) (bytes : List Byte) (s : State) : exec (.rdmaReadResponse qp bytes) s = execRdmaReadResponse qp bytes s := rfl
theorem exec_rdmaNak (qp : Nat) (s : State) : exec (.rdmaNak qp) s = execRdmaNak qp s := rfl
theorem exec_rdmaAckTimeout (qp : Nat) (s : State) : exec (.rdmaAckTimeout qp) s = execRdmaAckTimeout qp s := rfl
theorem exec_ptpMessage (port : Nat) (offset : Int) (s : State) : exec (.ptpMessage port offset) s = execPtpMessage port offset s := rfl
theorem exec_doeDiscovery (index : Nat) (s : State) : exec (.doeDiscovery index) s = execDoeDiscovery index s := rfl
theorem exec_getVersion (mctp : Bool) (s : State) : exec (.getVersion mctp) s = execGetVersion mctp s := rfl
theorem exec_getCapabilities (mctp : Bool) (s : State) : exec (.getCapabilities mctp) s = execGetCapabilities mctp s := rfl
theorem exec_negotiateAlgorithms (mctp offersP521 offersSha512 : Bool) (s : State) : exec (.negotiateAlgorithms mctp offersP521 offersSha512) s = execNegotiateAlgorithms mctp offersP521 offersSha512 s := rfl
theorem exec_getDigests (mctp : Bool) (s : State) : exec (.getDigests mctp) s = execGetDigests mctp s := rfl
theorem exec_getCertificate (mctp : Bool) (slot off len : Nat) (s : State) : exec (.getCertificate mctp slot off len) s = execGetCertificate mctp slot off len s := rfl
theorem exec_challenge (mctp : Bool) (slot : Nat) (nonce : Nat) (s : State) : exec (.challenge mctp slot nonce) s = execChallenge mctp slot nonce s := rfl
theorem exec_getMeasurements (mctp : Bool) (block : Nat) (nonce : Nat) (s : State) : exec (.getMeasurements mctp block nonce) s = execGetMeasurements mctp block nonce s := rfl
theorem exec_pldmType0Request (s : State) : exec (.pldmType0Request) s = execPldmType0Request s := rfl
theorem exec_pldmSensorRead (sensor : Nat) (s : State) : exec (.pldmSensorRead sensor) s = execPldmSensorRead sensor s := rfl
theorem exec_pldmFirmwareUpdate (pcie : Bool) (component : Nat) (image : List Byte) (s : State) : exec (.pldmFirmwareUpdate pcie component image) s = execPldmFirmwareUpdate pcie component image s := rfl
theorem exec_ready (s : State) : exec (.ready) s = execReady s := rfl
theorem exec_linkUp (s : State) : exec (.linkUp) s = execLinkUp s := rfl
theorem exec_flrComplete (func : Nat) (s : State) : exec (.flrComplete func) s = execFlrComplete func s := rfl
theorem exec_dieResetComplete (die : Nat) (s : State) : exec (.dieResetComplete die) s = execDieResetComplete die s := rfl
theorem exec_configurationRequest (func : Nat) (write : ConfigWrite) (s : State) : exec (.configurationRequest func write) s = execConfigurationRequest func write s := rfl
theorem exec_windowAccessAccepted (core tid : Nat) (s : State) : exec (.windowAccessAccepted core tid) s = execWindowAccessAccepted core tid s := rfl
theorem exec_portLinkChange (port : Nat) (up : Bool) (s : State) : exec (.portLinkChange port up) s = execPortLinkChange port up s := rfl
theorem exec_pfcPauseFrame (port priority : Nat) (pause : Bool) (s : State) : exec (.pfcPauseFrame port priority pause) s = execPfcPauseFrame port priority pause s := rfl
theorem exec_ecnMark (port : Nat) (s : State) : exec (.ecnMark port) s = execEcnMark port s := rfl
theorem exec_mainPowerLoss (s : State) : exec (.mainPowerLoss) s = execMainPowerLoss s := rfl
theorem exec_uncorrectableError (core : Nat) (fatal : Bool) (s : State) : exec (.uncorrectableError core fatal) s = execUncorrectableError core fatal s := rfl
theorem exec_droopEvent (die : Nat) (s : State) : exec (.droopEvent die) s = execDroopEvent die s := rfl

end Sys2Proof.Machine
end

