-- ==== Sys2Proof/Laws/Encoding.lean ====
section
/-! SUPPORT. Every field of a form comes back from its word (R170 to R176). -/

set_option Elab.async false

namespace Sys2Proof.Laws
open Sys2Proof

/-- A field that lies below the upper part of a word. -/
theorem fld_low {n m : Nat} (hi : BitVec n) (lo : BitVec m) (start len : Nat) (h : start + len ≤ m) :
    (hi ++ lo).extractLsb' start len = lo.extractLsb' start len := by
  apply BitVec.eq_of_getLsbD_eq
  intro i hi'
  simp only [BitVec.getLsbD_extractLsb', BitVec.getLsbD_append]
  rw [if_pos (show start + i < m by omega)]

/-- A field that lies above the lower part of a word. -/
theorem fld_high {n m : Nat} (hi : BitVec n) (lo : BitVec m) (start len : Nat) (h : m ≤ start) :
    (hi ++ lo).extractLsb' start len = hi.extractLsb' (start - m) len := by
  apply BitVec.eq_of_getLsbD_eq
  intro i hi'
  simp only [BitVec.getLsbD_extractLsb', BitVec.getLsbD_append]
  rw [if_neg (show ¬start + i < m by omega)]
  congr 2
  omega

theorem fld_whole {n : Nat} (x : BitVec n) : x.extractLsb' 0 n = x := by
  apply BitVec.eq_of_getLsbD_eq
  intro i hi
  simp [hi]

theorem bit_ofBit (b : Bool) : (ofBit b).getLsbD 0 = b := by cases b <;> rfl

theorem bit_low {n m : Nat} (hi : BitVec n) (lo : BitVec m) (i : Nat) (h : i < m) : (hi ++ lo).getLsbD i = lo.getLsbD i := by
  simp [BitVec.getLsbD_append, h]

theorem bit_high {n m : Nat} (hi : BitVec n) (lo : BitVec m) (i : Nat) (h : m ≤ i) :
    (hi ++ lo).getLsbD i = hi.getLsbD (i - m) := by
  simp [BitVec.getLsbD_append, Nat.not_lt.2 h]

/-- W form. -/
theorem getW_putW (op : BitVec 8) (f : WForm) : getW (putW op f) = f := by
  have h_d : fld (putW op f) 44 7 = f.d := by
    unfold fld putW
    rw [fld_high _ _ _ _ (by decide), fld_high _ _ _ _ (by decide), fld_high _ _ _ _ (by decide),
      fld_high _ _ _ _ (by decide), fld_high _ _ _ _ (by decide), fld_high _ _ _ _ (by decide),
      fld_low _ _ _ _ (by decide)]
    exact fld_whole _
  have h_a : fld (putW op f) 37 7 = f.a := by
    unfold fld putW
    rw [fld_high _ _ _ _ (by decide), fld_high _ _ _ _ (by decide), fld_high _ _ _ _ (by decide),
      fld_high _ _ _ _ (by decide), fld_high _ _ _ _ (by decide), fld_low _ _ _ _ (by decide)]
    exact fld_whole _
  have h_b : fld (putW op f) 30 7 = f.b := by
    unfold fld putW
    rw [fld_high _ _ _ _ (by decide), fld_high _ _ _ _ (by decide), fld_high _ _ _ _ (by decide),
      fld_high _ _ _ _ (by decide), fld_low _ _ _ _ (by decide)]
    exact fld_whole _
  have h_ra : fld (putW op f) 21 9 = f.ra := by
    unfold fld putW
    rw [fld_high _ _ _ _ (by decide), fld_high _ _ _ _ (by decide), fld_high _ _ _ _ (by decide),
      fld_low _ _ _ _ (by decide)]
    exact fld_whole _
  have h_rb : fld (putW op f) 12 9 = f.rb := by
    unfold fld putW
    rw [fld_high _ _ _ _ (by decide), fld_high _ _ _ _ (by decide), fld_low _ _ _ _ (by decide)]
    exact fld_whole _
  have h_edge : fld (putW op f) 10 2 = f.edge := by
    unfold fld putW
    rw [fld_high _ _ _ _ (by decide), fld_low _ _ _ _ (by decide)]
    exact fld_whole _
  have h_fn : fld (putW op f) 0 10 = f.fn := by
    unfold fld putW
    rw [fld_low _ _ _ _ (by decide)]
    exact fld_whole _
  have h_u : bitAt (putW op f) 55 = f.h.u := by
    unfold bitAt putW headBits
    rw [bit_high _ _ _ (by decide), bit_high _ _ _ (by decide), bit_high _ _ _ (by decide), bit_high _ _ _ (by decide),
      bit_high _ _ _ (by decide), bit_high _ _ _ (by decide), bit_high _ _ _ (by decide), bit_high _ _ _ (by decide),
      bit_high _ _ _ (by decide), bit_low _ _ _ (by decide)]
    exact bit_ofBit _
  have h_g : fld (putW op f) 52 3 = f.h.g := by
    unfold fld putW headBits
    rw [fld_high _ _ _ _ (by decide), fld_high _ _ _ _ (by decide), fld_high _ _ _ _ (by decide),
      fld_high _ _ _ _ (by decide), fld_high _ _ _ _ (by decide), fld_high _ _ _ _ (by decide),
      fld_high _ _ _ _ (by decide), fld_high _ _ _ _ (by decide), fld_low _ _ _ _ (by decide)]
    exact fld_whole _
  have h_n : bitAt (putW op f) 51 = f.h.n := by
    unfold bitAt putW headBits
    rw [bit_high _ _ _ (by decide), bit_high _ _ _ (by decide), bit_high _ _ _ (by decide), bit_high _ _ _ (by decide),
      bit_high _ _ _ (by decide), bit_high _ _ _ (by decide), bit_high _ _ _ (by decide), bit_low _ _ _ (by decide)]
    exact bit_ofBit _
  unfold getW getHead
  rw [h_d, h_a, h_b, h_ra, h_rb, h_edge, h_fn, h_u, h_g, h_n]

theorem opOf_putW (op : BitVec 8) (f : WForm) : opOf (putW op f) = op.toNat := by
  have : fld (putW op f) 56 8 = op := by
    unfold fld putW headBits
    rw [fld_high _ _ _ _ (by decide), fld_high _ _ _ _ (by decide), fld_high _ _ _ _ (by decide),
      fld_high _ _ _ _ (by decide), fld_high _ _ _ _ (by decide), fld_high _ _ _ _ (by decide),
      fld_high _ _ _ _ (by decide), fld_high _ _ _ _ (by decide), fld_high _ _ _ _ (by decide),
      fld_high _ _ _ _ (by decide)]
    exact fld_whole _
  unfold opOf
  rw [this]

/-- V form. -/
theorem getV_putV (op : BitVec 8) (f : VForm) : getV (putV op f) = f := by
  have h_d : fld (putV op f) 44 7 = f.d := by
    unfold fld putV
    rw [fld_high _ _ _ _ (by decide), fld_high _ _ _ _ (by decide), fld_high _ _ _ _ (by decide),
      fld_high _ _ _ _ (by decide), fld_high _ _ _ _ (by decide), fld_high _ _ _ _ (by decide),
      fld_high _ _ _ _ (by decide), fld_high _ _ _ _ (by decide), fld_low _ _ _ _ (by decide)]
    exact fld_whole _
  have h_a : fld (putV op f) 37 7 = f.a := by
    unfold fld putV
    rw [fld_high _ _ _ _ (by decide), fld_high _ _ _ _ (by decide), fld_high _ _ _ _ (by decide),
      fld_high _ _ _ _ (by decide), fld_high _ _ _ _ (by decide), fld_high _ _ _ _ (by decide),
      fld_high _ _ _ _ (by decide), fld_low _ _ _ _ (by decide)]
    exact fld_whole _
  have h_b : fld (putV op f) 30 7 = f.b := by
    unfold fld putV
    rw [fld_high _ _ _ _ (by decide), fld_high _ _ _ _ (by decide), fld_high _ _ _ _ (by decide),
      fld_high _ _ _ _ (by decide), fld_high _ _ _ _ (by decide), fld_high _ _ _ _ (by decide),
      fld_low _ _ _ _ (by decide)]
    exact fld_whole _
  have h_c : fld (putV op f) 23 7 = f.c := by
    unfold fld putV
    rw [fld_high _ _ _ _ (by decide), fld_high _ _ _ _ (by decide), fld_high _ _ _ _ (by decide),
      fld_high _ _ _ _ (by decide), fld_high _ _ _ _ (by decide), fld_low _ _ _ _ (by decide)]
    exact fld_whole _
  have h_ra : fld (putV op f) 14 9 = f.ra := by
    unfold fld putV
    rw [fld_high _ _ _ _ (by decide), fld_high _ _ _ _ (by decide), fld_high _ _ _ _ (by decide),
      fld_high _ _ _ _ (by decide), fld_low _ _ _ _ (by decide)]
    exact fld_whole _
  have h_rb : fld (putV op f) 5 9 = f.rb := by
    unfold fld putV
    rw [fld_high _ _ _ _ (by decide), fld_high _ _ _ _ (by decide), fld_high _ _ _ _ (by decide),
      fld_low _ _ _ _ (by decide)]
    exact fld_whole _
  have h_rcs : fld (putV op f) 3 2 = f.rcs := by
    unfold fld putV
    rw [fld_high _ _ _ _ (by decide), fld_high _ _ _ _ (by decide), fld_low _ _ _ _ (by decide)]
    exact fld_whole _
  have h_edge : fld (putV op f) 1 2 = f.edge := by
    unfold fld putV
    rw [fld_high _ _ _ _ (by decide), fld_low _ _ _ _ (by decide)]
    exact fld_whole _
  have h_u : bitAt (putV op f) 55 = f.h.u := by
    unfold bitAt putV headBits
    rw [bit_high _ _ _ (by decide), bit_high _ _ _ (by decide), bit_high _ _ _ (by decide), bit_high _ _ _ (by decide),
      bit_high _ _ _ (by decide), bit_high _ _ _ (by decide), bit_high _ _ _ (by decide), bit_high _ _ _ (by decide),
      bit_high _ _ _ (by decide), bit_high _ _ _ (by decide), bit_high _ _ _ (by decide), bit_low _ _ _ (by decide)]
    exact bit_ofBit _
  have h_g : fld (putV op f) 52 3 = f.h.g := by
    unfold fld putV headBits
    rw [fld_high _ _ _ _ (by decide), fld_high _ _ _ _ (by decide), fld_high _ _ _ _ (by decide),
      fld_high _ _ _ _ (by decide), fld_high _ _ _ _ (by decide), fld_high _ _ _ _ (by decide),
      fld_high _ _ _ _ (by decide), fld_high _ _ _ _ (by decide), fld_high _ _ _ _ (by decide),
      fld_high _ _ _ _ (by decide), fld_low _ _ _ _ (by decide)]
    exact fld_whole _
  have h_n : bitAt (putV op f) 51 = f.h.n := by
    unfold bitAt putV headBits
    rw [bit_high _ _ _ (by decide), bit_high _ _ _ (by decide), bit_high _ _ _ (by decide), bit_high _ _ _ (by decide),
      bit_high _ _ _ (by decide), bit_high _ _ _ (by decide), bit_high _ _ _ (by decide), bit_high _ _ _ (by decide),
      bit_high _ _ _ (by decide), bit_low _ _ _ (by decide)]
    exact bit_ofBit _
  unfold getV getHead
  rw [h_d, h_a, h_b, h_c, h_ra, h_rb, h_rcs, h_edge, h_u, h_g, h_n]

theorem opOf_putV (op : BitVec 8) (f : VForm) : opOf (putV op f) = op.toNat := by
  have : fld (putV op f) 56 8 = op := by
    unfold fld putV headBits
    rw [fld_high _ _ _ _ (by decide), fld_high _ _ _ _ (by decide), fld_high _ _ _ _ (by decide),
      fld_high _ _ _ _ (by decide), fld_high _ _ _ _ (by decide), fld_high _ _ _ _ (by decide),
      fld_high _ _ _ _ (by decide), fld_high _ _ _ _ (by decide), fld_high _ _ _ _ (by decide),
      fld_high _ _ _ _ (by decide), fld_high _ _ _ _ (by decide), fld_high _ _ _ _ (by decide)]
    exact fld_whole _
  unfold opOf
  rw [this]

/-- I form. -/
theorem getI_putI (op : BitVec 8) (f : IForm) : getI (putI op f) = f := by
  have h_d : fld (putI op f) 44 7 = f.d := by
    unfold fld putI
    rw [fld_high _ _ _ _ (by decide), fld_high _ _ _ _ (by decide), fld_high _ _ _ _ (by decide),
      fld_low _ _ _ _ (by decide)]
    exact fld_whole _
  have h_a : fld (putI op f) 37 7 = f.a := by
    unfold fld putI
    rw [fld_high _ _ _ _ (by decide), fld_high _ _ _ _ (by decide), fld_low _ _ _ _ (by decide)]
    exact fld_whole _
  have h_ra : fld (putI op f) 28 9 = f.ra := by
    unfold fld putI
    rw [fld_high _ _ _ _ (by decide), fld_low _ _ _ _ (by decide)]
    exact fld_whole _
  have h_imm : fld (putI op f) 0 28 = f.imm := by
    unfold fld putI
    rw [fld_low _ _ _ _ (by decide)]
    exact fld_whole _
  have h_u : bitAt (putI op f) 55 = f.h.u := by
    unfold bitAt putI headBits
    rw [bit_high _ _ _ (by decide), bit_high _ _ _ (by decide), bit_high _ _ _ (by decide), bit_high _ _ _ (by decide),
      bit_high _ _ _ (by decide), bit_high _ _ _ (by decide), bit_low _ _ _ (by decide)]
    exact bit_ofBit _
  have h_g : fld (putI op f) 52 3 = f.h.g := by
    unfold fld putI headBits
    rw [fld_high _ _ _ _ (by decide), fld_high _ _ _ _ (by decide), fld_high _ _ _ _ (by decide),
      fld_high _ _ _ _ (by decide), fld_high _ _ _ _ (by decide), fld_low _ _ _ _ (by decide)]
    exact fld_whole _
  have h_n : bitAt (putI op f) 51 = f.h.n := by
    unfold bitAt putI headBits
    rw [bit_high _ _ _ (by decide), bit_high _ _ _ (by decide), bit_high _ _ _ (by decide), bit_high _ _ _ (by decide),
      bit_low _ _ _ (by decide)]
    exact bit_ofBit _
  unfold getI getHead
  rw [h_d, h_a, h_ra, h_imm, h_u, h_g, h_n]

theorem opOf_putI (op : BitVec 8) (f : IForm) : opOf (putI op f) = op.toNat := by
  have : fld (putI op f) 56 8 = op := by
    unfold fld putI headBits
    rw [fld_high _ _ _ _ (by decide), fld_high _ _ _ _ (by decide), fld_high _ _ _ _ (by decide),
      fld_high _ _ _ _ (by decide), fld_high _ _ _ _ (by decide), fld_high _ _ _ _ (by decide),
      fld_high _ _ _ _ (by decide)]
    exact fld_whole _
  unfold opOf
  rw [this]

/-- M form. -/
theorem getM_putM (op : BitVec 8) (f : MForm) : getM (putM op f) = f := by
  have h_d : fld (putM op f) 44 7 = f.d := by
    unfold fld putM
    rw [fld_high _ _ _ _ (by decide), fld_high _ _ _ _ (by decide), fld_high _ _ _ _ (by decide),
      fld_high _ _ _ _ (by decide), fld_high _ _ _ _ (by decide), fld_low _ _ _ _ (by decide)]
    exact fld_whole _
  have h_b : fld (putM op f) 37 7 = f.b := by
    unfold fld putM
    rw [fld_high _ _ _ _ (by decide), fld_high _ _ _ _ (by decide), fld_high _ _ _ _ (by decide),
      fld_high _ _ _ _ (by decide), fld_low _ _ _ _ (by decide)]
    exact fld_whole _
  have h_rd : fld (putM op f) 28 9 = f.rd := by
    unfold fld putM
    rw [fld_high _ _ _ _ (by decide), fld_high _ _ _ _ (by decide), fld_high _ _ _ _ (by decide),
      fld_low _ _ _ _ (by decide)]
    exact fld_whole _
  have h_ord : fld (putM op f) 25 3 = f.ord := by
    unfold fld putM
    rw [fld_high _ _ _ _ (by decide), fld_high _ _ _ _ (by decide), fld_low _ _ _ _ (by decide)]
    exact fld_whole _
  have h_sco : fld (putM op f) 22 3 = f.sco := by
    unfold fld putM
    rw [fld_high _ _ _ _ (by decide), fld_low _ _ _ _ (by decide)]
    exact fld_whole _
  have h_off : fld (putM op f) 0 22 = f.off := by
    unfold fld putM
    rw [fld_low _ _ _ _ (by decide)]
    exact fld_whole _
  have h_u : bitAt (putM op f) 55 = f.h.u := by
    unfold bitAt putM headBits
    rw [bit_high _ _ _ (by decide), bit_high _ _ _ (by decide), bit_high _ _ _ (by decide), bit_high _ _ _ (by decide),
      bit_high _ _ _ (by decide), bit_high _ _ _ (by decide), bit_high _ _ _ (by decide), bit_high _ _ _ (by decide),
      bit_low _ _ _ (by decide)]
    exact bit_ofBit _
  have h_g : fld (putM op f) 52 3 = f.h.g := by
    unfold fld putM headBits
    rw [fld_high _ _ _ _ (by decide), fld_high _ _ _ _ (by decide), fld_high _ _ _ _ (by decide),
      fld_high _ _ _ _ (by decide), fld_high _ _ _ _ (by decide), fld_high _ _ _ _ (by decide),
      fld_high _ _ _ _ (by decide), fld_low _ _ _ _ (by decide)]
    exact fld_whole _
  have h_n : bitAt (putM op f) 51 = f.h.n := by
    unfold bitAt putM headBits
    rw [bit_high _ _ _ (by decide), bit_high _ _ _ (by decide), bit_high _ _ _ (by decide), bit_high _ _ _ (by decide),
      bit_high _ _ _ (by decide), bit_high _ _ _ (by decide), bit_low _ _ _ (by decide)]
    exact bit_ofBit _
  unfold getM getHead
  rw [h_d, h_b, h_rd, h_ord, h_sco, h_off, h_u, h_g, h_n]

theorem opOf_putM (op : BitVec 8) (f : MForm) : opOf (putM op f) = op.toNat := by
  have : fld (putM op f) 56 8 = op := by
    unfold fld putM headBits
    rw [fld_high _ _ _ _ (by decide), fld_high _ _ _ _ (by decide), fld_high _ _ _ _ (by decide),
      fld_high _ _ _ _ (by decide), fld_high _ _ _ _ (by decide), fld_high _ _ _ _ (by decide),
      fld_high _ _ _ _ (by decide), fld_high _ _ _ _ (by decide), fld_high _ _ _ _ (by decide)]
    exact fld_whole _
  unfold opOf
  rw [this]

/-- C form. -/
theorem getC_putC (op : BitVec 8) (f : CForm) : getC (putC op f) = f := by
  have h_off : fld (putC op f) 27 24 = f.off := by
    unfold fld putC
    rw [fld_high _ _ _ _ (by decide), fld_high _ _ _ _ (by decide), fld_high _ _ _ _ (by decide),
      fld_low _ _ _ _ (by decide)]
    exact fld_whole _
  have h_tag : fld (putC op f) 19 8 = f.tag := by
    unfold fld putC
    rw [fld_high _ _ _ _ (by decide), fld_high _ _ _ _ (by decide), fld_low _ _ _ _ (by decide)]
    exact fld_whole _
  have h_a : fld (putC op f) 12 7 = f.a := by
    unfold fld putC
    rw [fld_high _ _ _ _ (by decide), fld_low _ _ _ _ (by decide)]
    exact fld_whole _
  have h_u : bitAt (putC op f) 55 = f.h.u := by
    unfold bitAt putC headBits
    rw [bit_high _ _ _ (by decide), bit_high _ _ _ (by decide), bit_high _ _ _ (by decide), bit_high _ _ _ (by decide),
      bit_high _ _ _ (by decide), bit_high _ _ _ (by decide), bit_low _ _ _ (by decide)]
    exact bit_ofBit _
  have h_g : fld (putC op f) 52 3 = f.h.g := by
    unfold fld putC headBits
    rw [fld_high _ _ _ _ (by decide), fld_high _ _ _ _ (by decide), fld_high _ _ _ _ (by decide),
      fld_high _ _ _ _ (by decide), fld_high _ _ _ _ (by decide), fld_low _ _ _ _ (by decide)]
    exact fld_whole _
  have h_n : bitAt (putC op f) 51 = f.h.n := by
    unfold bitAt putC headBits
    rw [bit_high _ _ _ (by decide), bit_high _ _ _ (by decide), bit_high _ _ _ (by decide), bit_high _ _ _ (by decide),
      bit_low _ _ _ (by decide)]
    exact bit_ofBit _
  unfold getC getHead
  rw [h_off, h_tag, h_a, h_u, h_g, h_n]

theorem opOf_putC (op : BitVec 8) (f : CForm) : opOf (putC op f) = op.toNat := by
  have : fld (putC op f) 56 8 = op := by
    unfold fld putC headBits
    rw [fld_high _ _ _ _ (by decide), fld_high _ _ _ _ (by decide), fld_high _ _ _ _ (by decide),
      fld_high _ _ _ _ (by decide), fld_high _ _ _ _ (by decide), fld_high _ _ _ _ (by decide),
      fld_high _ _ _ _ (by decide)]
    exact fld_whole _
  unfold opOf
  rw [this]

/-- E form. -/
theorem getE_putE (op : BitVec 8) (f : EForm) : getE (putE op f) = f := by
  have h_fn : fld (putE op f) 46 5 = f.fn := by
    unfold fld putE
    rw [fld_high _ _ _ _ (by decide), fld_high _ _ _ _ (by decide), fld_high _ _ _ _ (by decide),
      fld_high _ _ _ _ (by decide), fld_high _ _ _ _ (by decide), fld_high _ _ _ _ (by decide),
      fld_high _ _ _ _ (by decide), fld_high _ _ _ _ (by decide), fld_low _ _ _ _ (by decide)]
    exact fld_whole _
  have h_sig : bitAt (putE op f) 45 = f.sig := by
    unfold bitAt putE
    rw [bit_high _ _ _ (by decide), bit_high _ _ _ (by decide), bit_high _ _ _ (by decide), bit_high _ _ _ (by decide),
      bit_high _ _ _ (by decide), bit_high _ _ _ (by decide), bit_high _ _ _ (by decide), bit_low _ _ _ (by decide)]
    exact bit_ofBit _
  have h_tb : fld (putE op f) 41 4 = f.tb := by
    unfold fld putE
    rw [fld_high _ _ _ _ (by decide), fld_high _ _ _ _ (by decide), fld_high _ _ _ _ (by decide),
      fld_high _ _ _ _ (by decide), fld_high _ _ _ _ (by decide), fld_high _ _ _ _ (by decide),
      fld_low _ _ _ _ (by decide)]
    exact fld_whole _
  have h_a : fld (putE op f) 34 7 = f.a := by
    unfold fld putE
    rw [fld_high _ _ _ _ (by decide), fld_high _ _ _ _ (by decide), fld_high _ _ _ _ (by decide),
      fld_high _ _ _ _ (by decide), fld_high _ _ _ _ (by decide), fld_low _ _ _ _ (by decide)]
    exact fld_whole _
  have h_b : fld (putE op f) 27 7 = f.b := by
    unfold fld putE
    rw [fld_high _ _ _ _ (by decide), fld_high _ _ _ _ (by decide), fld_high _ _ _ _ (by decide),
      fld_high _ _ _ _ (by decide), fld_low _ _ _ _ (by decide)]
    exact fld_whole _
  have h_c : fld (putE op f) 20 7 = f.c := by
    unfold fld putE
    rw [fld_high _ _ _ _ (by decide), fld_high _ _ _ _ (by decide), fld_high _ _ _ _ (by decide),
      fld_low _ _ _ _ (by decide)]
    exact fld_whole _
  have h_wait : bitAt (putE op f) 19 = f.wait := by
    unfold bitAt putE
    rw [bit_high _ _ _ (by decide), bit_high _ _ _ (by decide), bit_low _ _ _ (by decide)]
    exact bit_ofBit _
  have h_wid : fld (putE op f) 15 4 = f.wid := by
    unfold fld putE
    rw [fld_high _ _ _ _ (by decide), fld_low _ _ _ _ (by decide)]
    exact fld_whole _
  have h_x : fld (putE op f) 0 15 = f.x := by
    unfold fld putE
    rw [fld_low _ _ _ _ (by decide)]
    exact fld_whole _
  have h_u : bitAt (putE op f) 55 = f.h.u := by
    unfold bitAt putE headBits
    rw [bit_high _ _ _ (by decide), bit_high _ _ _ (by decide), bit_high _ _ _ (by decide), bit_high _ _ _ (by decide),
      bit_high _ _ _ (by decide), bit_high _ _ _ (by decide), bit_high _ _ _ (by decide), bit_high _ _ _ (by decide),
      bit_high _ _ _ (by decide), bit_high _ _ _ (by decide), bit_high _ _ _ (by decide), bit_low _ _ _ (by decide)]
    exact bit_ofBit _
  have h_g : fld (putE op f) 52 3 = f.h.g := by
    unfold fld putE headBits
    rw [fld_high _ _ _ _ (by decide), fld_high _ _ _ _ (by decide), fld_high _ _ _ _ (by decide),
      fld_high _ _ _ _ (by decide), fld_high _ _ _ _ (by decide), fld_high _ _ _ _ (by decide),
      fld_high _ _ _ _ (by decide), fld_high _ _ _ _ (by decide), fld_high _ _ _ _ (by decide),
      fld_high _ _ _ _ (by decide), fld_low _ _ _ _ (by decide)]
    exact fld_whole _
  have h_n : bitAt (putE op f) 51 = f.h.n := by
    unfold bitAt putE headBits
    rw [bit_high _ _ _ (by decide), bit_high _ _ _ (by decide), bit_high _ _ _ (by decide), bit_high _ _ _ (by decide),
      bit_high _ _ _ (by decide), bit_high _ _ _ (by decide), bit_high _ _ _ (by decide), bit_high _ _ _ (by decide),
      bit_high _ _ _ (by decide), bit_low _ _ _ (by decide)]
    exact bit_ofBit _
  unfold getE getHead
  rw [h_fn, h_sig, h_tb, h_a, h_b, h_c, h_wait, h_wid, h_x, h_u, h_g, h_n]

theorem opOf_putE (op : BitVec 8) (f : EForm) : opOf (putE op f) = op.toNat := by
  have : fld (putE op f) 56 8 = op := by
    unfold fld putE headBits
    rw [fld_high _ _ _ _ (by decide), fld_high _ _ _ _ (by decide), fld_high _ _ _ _ (by decide),
      fld_high _ _ _ _ (by decide), fld_high _ _ _ _ (by decide), fld_high _ _ _ _ (by decide),
      fld_high _ _ _ _ (by decide), fld_high _ _ _ _ (by decide), fld_high _ _ _ _ (by decide),
      fld_high _ _ _ _ (by decide), fld_high _ _ _ _ (by decide), fld_high _ _ _ _ (by decide)]
    exact fld_whole _
  unfold opOf
  rw [this]

/-- S form. -/
theorem getS_putS (op : BitVec 8) (f : SForm) : getS (putS op f) = f := by
  have h_fn : fld (putS op f) 41 10 = f.fn := by
    unfold fld putS
    rw [fld_high _ _ _ _ (by decide), fld_high _ _ _ _ (by decide), fld_high _ _ _ _ (by decide),
      fld_high _ _ _ _ (by decide), fld_low _ _ _ _ (by decide)]
    exact fld_whole _
  have h_d : fld (putS op f) 34 7 = f.d := by
    unfold fld putS
    rw [fld_high _ _ _ _ (by decide), fld_high _ _ _ _ (by decide), fld_high _ _ _ _ (by decide),
      fld_low _ _ _ _ (by decide)]
    exact fld_whole _
  have h_a : fld (putS op f) 27 7 = f.a := by
    unfold fld putS
    rw [fld_high _ _ _ _ (by decide), fld_high _ _ _ _ (by decide), fld_low _ _ _ _ (by decide)]
    exact fld_whole _
  have h_sys : fld (putS op f) 15 12 = f.sys := by
    unfold fld putS
    rw [fld_high _ _ _ _ (by decide), fld_low _ _ _ _ (by decide)]
    exact fld_whole _
  have h_imm : fld (putS op f) 0 15 = f.imm := by
    unfold fld putS
    rw [fld_low _ _ _ _ (by decide)]
    exact fld_whole _
  have h_u : bitAt (putS op f) 55 = f.h.u := by
    unfold bitAt putS headBits
    rw [bit_high _ _ _ (by decide), bit_high _ _ _ (by decide), bit_high _ _ _ (by decide), bit_high _ _ _ (by decide),
      bit_high _ _ _ (by decide), bit_high _ _ _ (by decide), bit_high _ _ _ (by decide), bit_low _ _ _ (by decide)]
    exact bit_ofBit _
  have h_g : fld (putS op f) 52 3 = f.h.g := by
    unfold fld putS headBits
    rw [fld_high _ _ _ _ (by decide), fld_high _ _ _ _ (by decide), fld_high _ _ _ _ (by decide),
      fld_high _ _ _ _ (by decide), fld_high _ _ _ _ (by decide), fld_high _ _ _ _ (by decide),
      fld_low _ _ _ _ (by decide)]
    exact fld_whole _
  have h_n : bitAt (putS op f) 51 = f.h.n := by
    unfold bitAt putS headBits
    rw [bit_high _ _ _ (by decide), bit_high _ _ _ (by decide), bit_high _ _ _ (by decide), bit_high _ _ _ (by decide),
      bit_high _ _ _ (by decide), bit_low _ _ _ (by decide)]
    exact bit_ofBit _
  unfold getS getHead
  rw [h_fn, h_d, h_a, h_sys, h_imm, h_u, h_g, h_n]

theorem opOf_putS (op : BitVec 8) (f : SForm) : opOf (putS op f) = op.toNat := by
  have : fld (putS op f) 56 8 = op := by
    unfold fld putS headBits
    rw [fld_high _ _ _ _ (by decide), fld_high _ _ _ _ (by decide), fld_high _ _ _ _ (by decide),
      fld_high _ _ _ _ (by decide), fld_high _ _ _ _ (by decide), fld_high _ _ _ _ (by decide),
      fld_high _ _ _ _ (by decide), fld_high _ _ _ _ (by decide)]
    exact fld_whole _
  unfold opOf
  rw [this]

theorem bit0_putV (op : BitVec 8) (f : VForm) : bitAt (putV op f) 0 = false := by
  unfold bitAt putV
  rw [bit_low _ _ _ (by decide)]
  rfl
theorem low_putC (op : BitVec 8) (f : CForm) : fld (putC op f) 0 12 = 0 := by
  unfold fld putC
  rw [fld_low _ _ _ _ (by decide)]
  rfl
/-- FN[1:0] of an E-form word, which tells variants of one opcode apart (R285, R292, R294). -/
theorem variant_putE (op : BitVec 8) (f : EForm) : fld (putE op f) 46 2 = f.fn.extractLsb' 0 2 := by
  unfold fld putE
  rw [fld_high _ _ _ _ (by decide), fld_high _ _ _ _ (by decide), fld_high _ _ _ _ (by decide),
      fld_high _ _ _ _ (by decide), fld_high _ _ _ _ (by decide), fld_high _ _ _ _ (by decide),
      fld_high _ _ _ _ (by decide), fld_high _ _ _ _ (by decide), fld_low _ _ _ _ (by decide)]

end Sys2Proof.Laws
end

