-- ==== Sys2Proof/Laws/Map.lean ====
section
/-! SUPPORT. What the operations on a sparse store do: reads after writes, and that every write keeps the canonical form. -/

set_option Elab.async false

namespace Sys2Proof.Laws
open Sys2Proof

variable {α : Type}

/-! ### Reads after writes -/

@[simp] theorem get_put_same (d : α) (m : Map α) (i : Nat) (x : α) : Map.get d (Map.put m i x) i = x := by
  induction m with
  | nil => simp [Map.put, Map.get]
  | cons e m ih =>
    obtain ⟨k, v⟩ := e
    simp only [Map.put]
    split
    · simp [Map.get]
    · split
      · simp [Map.get]
      · simp [Map.get, *]

theorem get_put_other (d : α) (m : Map α) (i j : Nat) (x : α) (h : j ≠ i) : Map.get d (Map.put m i x) j = Map.get d m j := by
  induction m with
  | nil => simp [Map.put, Map.get, h]
  | cons e m ih =>
    obtain ⟨k, v⟩ := e
    simp only [Map.put]
    split
    · simp [Map.get, h]
    · split
      · subst i
        simp [Map.get, h]
      · simp only [Map.get, ih]

theorem get_put (d : α) (m : Map α) (i j : Nat) (x : α) :
    Map.get d (Map.put m i x) j = if j = i then x else Map.get d m j := by
  split
  · subst j
    simp
  · exact get_put_other d m i j x ‹_›

@[simp] theorem put_put (m : Map α) (i : Nat) (x y : α) : Map.put (Map.put m i x) i y = Map.put m i y := by
  induction m with
  | nil => simp [Map.put]
  | cons e m ih =>
    obtain ⟨k, v⟩ := e
    by_cases h₁ : i < k
    · simp [Map.put, h₁]
    · by_cases h₂ : i = k
      · subst i
        simp [Map.put]
      · simp [Map.put, h₁, h₂, ih]

theorem find_put (m : Map α) (i j : Nat) (x : α) :
    Map.find (Map.put m i x) j = if j = i then some x else Map.find m j := by
  induction m with
  | nil => simp [Map.put, Map.find]
  | cons e m ih =>
    obtain ⟨k, v⟩ := e
    simp only [Map.put]
    split
    · simp [Map.find]
    · split
      · subst i
        by_cases h : j = k <;> simp [Map.find, h]
      · by_cases h : j = k
        · subst j
          simp [Map.find, Ne.symm ‹¬i = k›]
        · simp [Map.find, h, ih]

theorem get_erase (d : α) (m : Map α) (i j : Nat) :
    Map.get d (Map.erase m i) j = if j = i then d else Map.get d m j := by
  induction m with
  | nil => simp [Map.erase, Map.get]
  | cons e m ih =>
    obtain ⟨k, v⟩ := e
    by_cases h : i = k
    · subst i
      by_cases h' : j = k
      · subst j
        simpa [Map.erase] using ih
      · simpa [Map.erase, Map.get, h'] using ih
    · by_cases h' : j = k
      · subst j
        simp [Map.erase, Map.get, h, Ne.symm h]
      · simp [Map.erase, Map.get, h, h', ih]

/-- Reading a store after a write: the value written at its key, every other key as before. -/
theorem get_set [DecidableEq α] (d : α) (m : Map α) (i j : Nat) (x : α) :
    Map.get d (Map.set d m i x) j = if j = i then x else Map.get d m j := by
  unfold Map.set
  split
  · subst x
    exact get_erase d m i j
  · exact get_put d m i j x

theorem get_setRange_out [DecidableEq α] (d : α) (xs : List α) (m : Map α) (i j : Nat) (h : j < i ∨ i + xs.length ≤ j) :
    Map.get d (Map.setRange d m i xs) j = Map.get d m j := by
  induction xs generalizing m i with
  | nil => rfl
  | cons x xs ih =>
    simp only [List.length_cons] at h
    rw [Map.setRange, ih _ _ (by omega), get_set, if_neg (by omega)]

theorem get_setRange_in [DecidableEq α] (d : α) (xs : List α) (m : Map α) (i n : Nat) (h : n < xs.length) :
    Map.get d (Map.setRange d m i xs) (i + n) = xs.getD n d := by
  induction xs generalizing m i n with
  | nil => simp at h
  | cons x xs ih =>
    rw [Map.setRange]
    cases n with
    | zero => rw [get_setRange_out _ _ _ _ _ (by omega), get_set]; simp
    | succ n =>
      have := ih (Map.set d m i x) (i + 1) n (by simpa using h)
      simpa [Nat.add_assoc, Nat.add_comm 1 n] using this

@[simp] theorem getRange_length (d : α) (m : Map α) (i n : Nat) : (Map.getRange d m i n).length = n := by
  induction n generalizing i with
  | zero => rfl
  | succ n ih => simp [Map.getRange, ih]

theorem getRange_getD (d e : α) (m : Map α) (i n j : Nat) (h : j < n) : (Map.getRange d m i n).getD j e = Map.get d m (i + j) := by
  induction n generalizing i j with
  | zero => omega
  | succ n ih =>
    cases j with
    | zero => simp [Map.getRange]
    | succ j =>
      have := ih (i + 1) j (by omega)
      simpa [Map.getRange, Nat.add_assoc, Nat.add_comm 1 j] using this

/-- Reading back a range that was just written. -/
theorem getRange_setRange [DecidableEq α] (d : α) (xs : List α) (m : Map α) (i : Nat) :
    Map.getRange d (Map.setRange d m i xs) i xs.length = xs := by
  apply List.ext_getElem
  · simp
  · intro n h₁ h₂
    have a := getRange_getD d d (Map.setRange d m i xs) i xs.length n h₂
    rw [get_setRange_in d xs m i n h₂] at a
    simp only [List.getD_eq_getElem?_getD, List.getElem?_eq_getElem h₁, List.getElem?_eq_getElem h₂, Option.getD_some] at a
    exact a

/-! ### The canonical form -/

theorem sorted_cons (k : Nat) (v : α) (m : Map α) :
    Map.sorted ((k, v) :: m) = true ↔ (∀ e ∈ m, k < e.1) ∧ Map.sorted m = true := by
  induction m generalizing k v with
  | nil => simp [Map.sorted]
  | cons e m ih =>
    obtain ⟨k', v'⟩ := e
    simp only [Map.sorted, Bool.and_eq_true, decide_eq_true_eq, ih, List.mem_cons, forall_eq_or_imp]
    constructor
    · rintro ⟨h, h', h''⟩
      exact ⟨⟨h, fun e he => Nat.lt_trans h (h' e he)⟩, h', h''⟩
    · rintro ⟨⟨h, -⟩, h', h''⟩
      exact ⟨h, h', h''⟩

theorem wf_iff [DecidableEq α] (d : α) (m : Map α) : Map.wf d m = true ↔ Map.sorted m = true ∧ ∀ e ∈ m, e.2 ≠ d := by
  simp [Map.wf]

theorem wf_cons [DecidableEq α] (d : α) (k : Nat) (v : α) (m : Map α) :
    Map.wf d ((k, v) :: m) = true ↔ (∀ e ∈ m, k < e.1) ∧ v ≠ d ∧ Map.wf d m = true := by
  simp only [wf_iff, sorted_cons, List.mem_cons, forall_eq_or_imp]
  constructor
  · rintro ⟨⟨a, b⟩, c, e⟩
    exact ⟨a, c, b, e⟩
  · rintro ⟨a, c, b, e⟩
    exact ⟨⟨a, b⟩, c, e⟩

theorem mem_put (m : Map α) (i : Nat) (x : α) (e : Nat × α) (h : e ∈ Map.put m i x) : e = (i, x) ∨ e ∈ m := by
  induction m with
  | nil => simpa [Map.put] using h
  | cons a m ih =>
    obtain ⟨k, v⟩ := a
    simp only [Map.put] at h
    split at h
    · simpa using h
    · split at h
      · rcases List.mem_cons.1 h with h | h
        · exact .inl h
        · exact .inr (List.mem_cons_of_mem _ h)
      · rcases List.mem_cons.1 h with h | h
        · exact .inr (by simp [h])
        · rcases ih h with h | h
          · exact .inl h
          · exact .inr (List.mem_cons_of_mem _ h)

theorem mem_erase (m : Map α) (i : Nat) (e : Nat × α) (h : e ∈ Map.erase m i) : e ∈ m := by
  induction m with
  | nil => exact h
  | cons a m ih =>
    obtain ⟨k, v⟩ := a
    simp only [Map.erase] at h
    split at h
    · exact List.mem_cons_of_mem _ (ih h)
    · rcases List.mem_cons.1 h with h | h
      · simp [h]
      · exact List.mem_cons_of_mem _ (ih h)

theorem wf_put [DecidableEq α] (d : α) (m : Map α) (i : Nat) (x : α) (h : Map.wf d m = true) (hx : x ≠ d) :
    Map.wf d (Map.put m i x) = true := by
  induction m with
  | nil => simp [Map.put, hx, Map.wf, Map.sorted]
  | cons a m ih =>
    obtain ⟨k, v⟩ := a
    obtain ⟨h₁, h₂, h₃⟩ := (wf_cons d k v m).1 h
    simp only [Map.put]
    split
    · rename_i hlt
      refine (wf_cons d i x _).2 ⟨?_, hx, h⟩
      intro e he
      rcases List.mem_cons.1 he with he | he
      · simpa [he] using hlt
      · exact Nat.lt_trans hlt (h₁ e he)
    · split
      · subst i
        exact (wf_cons d k x m).2 ⟨h₁, hx, h₃⟩
      · refine (wf_cons d k v _).2 ⟨?_, h₂, ih h₃⟩
        intro e he
        rcases mem_put m i x e he with he | he
        · subst e
          show k < i
          omega
        · exact h₁ e he

theorem wf_erase [DecidableEq α] (d : α) (m : Map α) (i : Nat) (h : Map.wf d m = true) : Map.wf d (Map.erase m i) = true := by
  induction m with
  | nil => rfl
  | cons a m ih =>
    obtain ⟨k, v⟩ := a
    obtain ⟨h₁, h₂, h₃⟩ := (wf_cons d k v m).1 h
    simp only [Map.erase]
    split
    · exact ih h₃
    · exact (wf_cons d k v _).2 ⟨fun e he => h₁ e (mem_erase m i e he), h₂, ih h₃⟩

/-- A write keeps the canonical form. -/
theorem wf_set [DecidableEq α] (d : α) (m : Map α) (i : Nat) (x : α) (h : Map.wf d m = true) :
    Map.wf d (Map.set d m i x) = true := by
  unfold Map.set
  split
  · exact wf_erase d m i h
  · exact wf_put d m i x h ‹_›

/-- A write of several values keeps the canonical form. -/
theorem wf_setRange [DecidableEq α] (d : α) (xs : List α) (m : Map α) (i : Nat) (h : Map.wf d m = true) :
    Map.wf d (Map.setRange d m i xs) = true := by
  induction xs generalizing m i with
  | nil => exact h
  | cons x xs ih => exact ih _ _ (wf_set d m i x h)

/-- Taking entries out keeps the canonical form. -/
theorem wf_filter [DecidableEq α] (d : α) (p : Nat × α → Bool) (m : Map α) (h : Map.wf d m = true) :
    Map.wf d (m.filter p) = true := by
  induction m with
  | nil => rfl
  | cons a m ih =>
    obtain ⟨k, v⟩ := a
    obtain ⟨h₁, h₂, h₃⟩ := (wf_cons d k v m).1 h
    rw [List.filter_cons]
    split
    · exact (wf_cons d k v _).2 ⟨fun e he => h₁ e (List.mem_filter.1 he |>.1), h₂, ih h₃⟩
    · exact ih h₃

/-- Equal reads make equal stores: the canonical form is canonical. -/
theorem ext_get [DecidableEq α] (d : α) (m n : Map α) (hm : Map.wf d m = true) (hn : Map.wf d n = true)
    (h : ∀ i, Map.get d m i = Map.get d n i) : m = n := by
  have above : ∀ (m : Map α) (i : Nat), (∀ e ∈ m, i < e.1) → Map.get d m i = d := by
    intro m i
    induction m with
    | nil => intro _; rfl
    | cons a m ih =>
      intro hi
      have h₀ : i < a.1 := hi a (by simp)
      obtain ⟨k, v⟩ := a
      simp only [Map.get]
      rw [if_neg (Nat.ne_of_lt h₀)]
      exact ih fun e he => hi e (List.mem_cons_of_mem _ he)
  induction m generalizing n with
  | nil =>
    cases n with
    | nil => rfl
    | cons b n =>
      obtain ⟨k, v⟩ := b
      obtain ⟨-, h₂, -⟩ := (wf_cons d k v n).1 hn
      exact absurd (by simpa [Map.get] using (h k).symm) h₂
  | cons a m ih =>
    obtain ⟨k, v⟩ := a
    obtain ⟨h₁, h₂, h₃⟩ := (wf_cons d k v m).1 hm
    cases n with
    | nil => exact absurd (by simpa [Map.get] using h k) h₂
    | cons b n =>
      obtain ⟨k', v'⟩ := b
      obtain ⟨g₁, g₂, g₃⟩ := (wf_cons d k' v' n).1 hn
      rcases Nat.lt_trichotomy k k' with hk | hk | hk
      · have := h k
        simp only [Map.get, if_true, if_neg (Nat.ne_of_lt hk)] at this
        rw [above n k fun e he => Nat.lt_trans hk (g₁ e he)] at this
        exact absurd this h₂
      · subst k'
        have hv : v = v' := by simpa [Map.get] using h k
        subst hv
        congr 1
        refine ih n h₃ g₃ fun i => ?_
        by_cases hi : i = k
        · subst i
          rw [above m k h₁, above n k g₁]
        · simpa [Map.get, hi] using h i
      · have := h k'
        simp only [Map.get, if_true, if_neg (Nat.ne_of_lt hk)] at this
        rw [above m k' fun e he => Nat.lt_trans hk (h₁ e he)] at this
        exact absurd this.symm g₂

end Sys2Proof.Laws
end

