-- ==== Sys2Proof/Laws/State.lean ====
section
/-! SUPPORT. One lemma per field per update of State, Core and Thread, so that no proof unfolds a record update. -/

namespace Sys2Proof.Machine
open Sys2Proof.Laws


/-! ### State: updates of one part -/

@[simp] theorem State.updDie_cores (s : State) (c : Nat) (g : Die → Die) : (s.updDie c g).cores = s.cores := rfl
@[simp] theorem State.updSlot_cores (s : State) (c : Nat) (g : Slot → Slot) : (s.updSlot c g).cores = s.cores := rfl
@[simp] theorem State.tickFresh_cores (s : State) : s.tickFresh.cores = s.cores := rfl
@[simp] theorem State.updCore_dies (s : State) (c : Nat) (g : Core → Core) : (s.updCore c g).dies = s.dies := rfl
@[simp] theorem State.updSlot_dies (s : State) (c : Nat) (g : Slot → Slot) : (s.updSlot c g).dies = s.dies := rfl
@[simp] theorem State.tickFresh_dies (s : State) : s.tickFresh.dies = s.dies := rfl
@[simp] theorem State.updCore_mem (s : State) (c : Nat) (g : Core → Core) : (s.updCore c g).mem = s.mem := rfl
@[simp] theorem State.updDie_mem (s : State) (c : Nat) (g : Die → Die) : (s.updDie c g).mem = s.mem := rfl
@[simp] theorem State.updSlot_mem (s : State) (c : Nat) (g : Slot → Slot) : (s.updSlot c g).mem = s.mem := rfl
@[simp] theorem State.tickFresh_mem (s : State) : s.tickFresh.mem = s.mem := rfl
@[simp] theorem State.updCore_host (s : State) (c : Nat) (g : Core → Core) : (s.updCore c g).host = s.host := rfl
@[simp] theorem State.updDie_host (s : State) (c : Nat) (g : Die → Die) : (s.updDie c g).host = s.host := rfl
@[simp] theorem State.updSlot_host (s : State) (c : Nat) (g : Slot → Slot) : (s.updSlot c g).host = s.host := rfl
@[simp] theorem State.tickFresh_host (s : State) : s.tickFresh.host = s.host := rfl
@[simp] theorem State.updCore_remote (s : State) (c : Nat) (g : Core → Core) : (s.updCore c g).remote = s.remote := rfl
@[simp] theorem State.updDie_remote (s : State) (c : Nat) (g : Die → Die) : (s.updDie c g).remote = s.remote := rfl
@[simp] theorem State.updSlot_remote (s : State) (c : Nat) (g : Slot → Slot) : (s.updSlot c g).remote = s.remote := rfl
@[simp] theorem State.tickFresh_remote (s : State) : s.tickFresh.remote = s.remote := rfl
@[simp] theorem State.updCore_poison (s : State) (c : Nat) (g : Core → Core) : (s.updCore c g).poison = s.poison := rfl
@[simp] theorem State.updDie_poison (s : State) (c : Nat) (g : Die → Die) : (s.updDie c g).poison = s.poison := rfl
@[simp] theorem State.updSlot_poison (s : State) (c : Nat) (g : Slot → Slot) : (s.updSlot c g).poison = s.poison := rfl
@[simp] theorem State.tickFresh_poison (s : State) : s.tickFresh.poison = s.poison := rfl
@[simp] theorem State.updCore_interrupted (s : State) (c : Nat) (g : Core → Core) : (s.updCore c g).interrupted = s.interrupted := rfl
@[simp] theorem State.updDie_interrupted (s : State) (c : Nat) (g : Die → Die) : (s.updDie c g).interrupted = s.interrupted := rfl
@[simp] theorem State.updSlot_interrupted (s : State) (c : Nat) (g : Slot → Slot) : (s.updSlot c g).interrupted = s.interrupted := rfl
@[simp] theorem State.tickFresh_interrupted (s : State) : s.tickFresh.interrupted = s.interrupted := rfl
@[simp] theorem State.updCore_ptbase (s : State) (c : Nat) (g : Core → Core) : (s.updCore c g).ptbase = s.ptbase := rfl
@[simp] theorem State.updDie_ptbase (s : State) (c : Nat) (g : Die → Die) : (s.updDie c g).ptbase = s.ptbase := rfl
@[simp] theorem State.updSlot_ptbase (s : State) (c : Nat) (g : Slot → Slot) : (s.updSlot c g).ptbase = s.ptbase := rfl
@[simp] theorem State.tickFresh_ptbase (s : State) : s.tickFresh.ptbase = s.ptbase := rfl
@[simp] theorem State.updCore_invva (s : State) (c : Nat) (g : Core → Core) : (s.updCore c g).invva = s.invva := rfl
@[simp] theorem State.updDie_invva (s : State) (c : Nat) (g : Die → Die) : (s.updDie c g).invva = s.invva := rfl
@[simp] theorem State.updSlot_invva (s : State) (c : Nat) (g : Slot → Slot) : (s.updSlot c g).invva = s.invva := rfl
@[simp] theorem State.tickFresh_invva (s : State) : s.tickFresh.invva = s.invva := rfl
@[simp] theorem State.updCore_invlen (s : State) (c : Nat) (g : Core → Core) : (s.updCore c g).invlen = s.invlen := rfl
@[simp] theorem State.updDie_invlen (s : State) (c : Nat) (g : Die → Die) : (s.updDie c g).invlen = s.invlen := rfl
@[simp] theorem State.updSlot_invlen (s : State) (c : Nat) (g : Slot → Slot) : (s.updSlot c g).invlen = s.invlen := rfl
@[simp] theorem State.tickFresh_invlen (s : State) : s.tickFresh.invlen = s.invlen := rfl
@[simp] theorem State.updCore_inv (s : State) (c : Nat) (g : Core → Core) : (s.updCore c g).inv = s.inv := rfl
@[simp] theorem State.updDie_inv (s : State) (c : Nat) (g : Die → Die) : (s.updDie c g).inv = s.inv := rfl
@[simp] theorem State.updSlot_inv (s : State) (c : Nat) (g : Slot → Slot) : (s.updSlot c g).inv = s.inv := rfl
@[simp] theorem State.tickFresh_inv (s : State) : s.tickFresh.inv = s.inv := rfl
@[simp] theorem State.updCore_mig (s : State) (c : Nat) (g : Core → Core) : (s.updCore c g).mig = s.mig := rfl
@[simp] theorem State.updDie_mig (s : State) (c : Nat) (g : Die → Die) : (s.updDie c g).mig = s.mig := rfl
@[simp] theorem State.updSlot_mig (s : State) (c : Nat) (g : Slot → Slot) : (s.updSlot c g).mig = s.mig := rfl
@[simp] theorem State.tickFresh_mig (s : State) : s.tickFresh.mig = s.mig := rfl
@[simp] theorem State.updCore_ats (s : State) (c : Nat) (g : Core → Core) : (s.updCore c g).ats = s.ats := rfl
@[simp] theorem State.updDie_ats (s : State) (c : Nat) (g : Die → Die) : (s.updDie c g).ats = s.ats := rfl
@[simp] theorem State.updSlot_ats (s : State) (c : Nat) (g : Slot → Slot) : (s.updSlot c g).ats = s.ats := rfl
@[simp] theorem State.tickFresh_ats (s : State) : s.tickFresh.ats = s.ats := rfl
@[simp] theorem State.updCore_pri (s : State) (c : Nat) (g : Core → Core) : (s.updCore c g).pri = s.pri := rfl
@[simp] theorem State.updDie_pri (s : State) (c : Nat) (g : Die → Die) : (s.updDie c g).pri = s.pri := rfl
@[simp] theorem State.updSlot_pri (s : State) (c : Nat) (g : Slot → Slot) : (s.updSlot c g).pri = s.pri := rfl
@[simp] theorem State.tickFresh_pri (s : State) : s.tickFresh.pri = s.pri := rfl
@[simp] theorem State.updCore_asked (s : State) (c : Nat) (g : Core → Core) : (s.updCore c g).asked = s.asked := rfl
@[simp] theorem State.updDie_asked (s : State) (c : Nat) (g : Die → Die) : (s.updDie c g).asked = s.asked := rfl
@[simp] theorem State.updSlot_asked (s : State) (c : Nat) (g : Slot → Slot) : (s.updSlot c g).asked = s.asked := rfl
@[simp] theorem State.tickFresh_asked (s : State) : s.tickFresh.asked = s.asked := rfl
@[simp] theorem State.updCore_kwr (s : State) (c : Nat) (g : Core → Core) : (s.updCore c g).kwr = s.kwr := rfl
@[simp] theorem State.updDie_kwr (s : State) (c : Nat) (g : Die → Die) : (s.updDie c g).kwr = s.kwr := rfl
@[simp] theorem State.updSlot_kwr (s : State) (c : Nat) (g : Slot → Slot) : (s.updSlot c g).kwr = s.kwr := rfl
@[simp] theorem State.tickFresh_kwr (s : State) : s.tickFresh.kwr = s.kwr := rfl
@[simp] theorem State.updCore_pendBits (s : State) (c : Nat) (g : Core → Core) : (s.updCore c g).pendBits = s.pendBits := rfl
@[simp] theorem State.updDie_pendBits (s : State) (c : Nat) (g : Die → Die) : (s.updDie c g).pendBits = s.pendBits := rfl
@[simp] theorem State.updSlot_pendBits (s : State) (c : Nat) (g : Slot → Slot) : (s.updSlot c g).pendBits = s.pendBits := rfl
@[simp] theorem State.tickFresh_pendBits (s : State) : s.tickFresh.pendBits = s.pendBits := rfl
@[simp] theorem State.updCore_slots (s : State) (c : Nat) (g : Core → Core) : (s.updCore c g).slots = s.slots := rfl
@[simp] theorem State.updDie_slots (s : State) (c : Nat) (g : Die → Die) : (s.updDie c g).slots = s.slots := rfl
@[simp] theorem State.tickFresh_slots (s : State) : s.tickFresh.slots = s.slots := rfl
@[simp] theorem State.updCore_lastServed (s : State) (c : Nat) (g : Core → Core) : (s.updCore c g).lastServed = s.lastServed := rfl
@[simp] theorem State.updDie_lastServed (s : State) (c : Nat) (g : Die → Die) : (s.updDie c g).lastServed = s.lastServed := rfl
@[simp] theorem State.updSlot_lastServed (s : State) (c : Nat) (g : Slot → Slot) : (s.updSlot c g).lastServed = s.lastServed := rfl
@[simp] theorem State.tickFresh_lastServed (s : State) : s.tickFresh.lastServed = s.lastServed := rfl
@[simp] theorem State.updCore_kept (s : State) (c : Nat) (g : Core → Core) : (s.updCore c g).kept = s.kept := rfl
@[simp] theorem State.updDie_kept (s : State) (c : Nat) (g : Die → Die) : (s.updDie c g).kept = s.kept := rfl
@[simp] theorem State.updSlot_kept (s : State) (c : Nat) (g : Slot → Slot) : (s.updSlot c g).kept = s.kept := rfl
@[simp] theorem State.tickFresh_kept (s : State) : s.tickFresh.kept = s.kept := rfl
@[simp] theorem State.updCore_partbase (s : State) (c : Nat) (g : Core → Core) : (s.updCore c g).partbase = s.partbase := rfl
@[simp] theorem State.updDie_partbase (s : State) (c : Nat) (g : Die → Die) : (s.updDie c g).partbase = s.partbase := rfl
@[simp] theorem State.updSlot_partbase (s : State) (c : Nat) (g : Slot → Slot) : (s.updSlot c g).partbase = s.partbase := rfl
@[simp] theorem State.tickFresh_partbase (s : State) : s.tickFresh.partbase = s.partbase := rfl
@[simp] theorem State.updCore_partcount (s : State) (c : Nat) (g : Core → Core) : (s.updCore c g).partcount = s.partcount := rfl
@[simp] theorem State.updDie_partcount (s : State) (c : Nat) (g : Die → Die) : (s.updDie c g).partcount = s.partcount := rfl
@[simp] theorem State.updSlot_partcount (s : State) (c : Nat) (g : Slot → Slot) : (s.updSlot c g).partcount = s.partcount := rfl
@[simp] theorem State.tickFresh_partcount (s : State) : s.tickFresh.partcount = s.partcount := rfl
@[simp] theorem State.updCore_fpbase (s : State) (c : Nat) (g : Core → Core) : (s.updCore c g).fpbase = s.fpbase := rfl
@[simp] theorem State.updDie_fpbase (s : State) (c : Nat) (g : Die → Die) : (s.updDie c g).fpbase = s.fpbase := rfl
@[simp] theorem State.updSlot_fpbase (s : State) (c : Nat) (g : Slot → Slot) : (s.updSlot c g).fpbase = s.fpbase := rfl
@[simp] theorem State.tickFresh_fpbase (s : State) : s.tickFresh.fpbase = s.fpbase := rfl
@[simp] theorem State.updCore_applystat (s : State) (c : Nat) (g : Core → Core) : (s.updCore c g).applystat = s.applystat := rfl
@[simp] theorem State.updDie_applystat (s : State) (c : Nat) (g : Die → Die) : (s.updDie c g).applystat = s.applystat := rfl
@[simp] theorem State.updSlot_applystat (s : State) (c : Nat) (g : Slot → Slot) : (s.updSlot c g).applystat = s.applystat := rfl
@[simp] theorem State.tickFresh_applystat (s : State) : s.tickFresh.applystat = s.applystat := rfl
@[simp] theorem State.updCore_actstat (s : State) (c : Nat) (g : Core → Core) : (s.updCore c g).actstat = s.actstat := rfl
@[simp] theorem State.updDie_actstat (s : State) (c : Nat) (g : Die → Die) : (s.updDie c g).actstat = s.actstat := rfl
@[simp] theorem State.updSlot_actstat (s : State) (c : Nat) (g : Slot → Slot) : (s.updSlot c g).actstat = s.actstat := rfl
@[simp] theorem State.tickFresh_actstat (s : State) : s.tickFresh.actstat = s.actstat := rfl
@[simp] theorem State.updCore_rstBusy (s : State) (c : Nat) (g : Core → Core) : (s.updCore c g).rstBusy = s.rstBusy := rfl
@[simp] theorem State.updDie_rstBusy (s : State) (c : Nat) (g : Die → Die) : (s.updDie c g).rstBusy = s.rstBusy := rfl
@[simp] theorem State.updSlot_rstBusy (s : State) (c : Nat) (g : Slot → Slot) : (s.updSlot c g).rstBusy = s.rstBusy := rfl
@[simp] theorem State.tickFresh_rstBusy (s : State) : s.tickFresh.rstBusy = s.rstBusy := rfl
@[simp] theorem State.updCore_strbase (s : State) (c : Nat) (g : Core → Core) : (s.updCore c g).strbase = s.strbase := rfl
@[simp] theorem State.updDie_strbase (s : State) (c : Nat) (g : Die → Die) : (s.updDie c g).strbase = s.strbase := rfl
@[simp] theorem State.updSlot_strbase (s : State) (c : Nat) (g : Slot → Slot) : (s.updSlot c g).strbase = s.strbase := rfl
@[simp] theorem State.tickFresh_strbase (s : State) : s.tickFresh.strbase = s.strbase := rfl
@[simp] theorem State.updCore_strcount (s : State) (c : Nat) (g : Core → Core) : (s.updCore c g).strcount = s.strcount := rfl
@[simp] theorem State.updDie_strcount (s : State) (c : Nat) (g : Die → Die) : (s.updDie c g).strcount = s.strcount := rfl
@[simp] theorem State.updSlot_strcount (s : State) (c : Nat) (g : Slot → Slot) : (s.updSlot c g).strcount = s.strcount := rfl
@[simp] theorem State.tickFresh_strcount (s : State) : s.tickFresh.strcount = s.strcount := rfl
@[simp] theorem State.updCore_parts (s : State) (c : Nat) (g : Core → Core) : (s.updCore c g).parts = s.parts := rfl
@[simp] theorem State.updDie_parts (s : State) (c : Nat) (g : Die → Die) : (s.updDie c g).parts = s.parts := rfl
@[simp] theorem State.updSlot_parts (s : State) (c : Nat) (g : Slot → Slot) : (s.updSlot c g).parts = s.parts := rfl
@[simp] theorem State.tickFresh_parts (s : State) : s.tickFresh.parts = s.parts := rfl
@[simp] theorem State.updCore_fmap (s : State) (c : Nat) (g : Core → Core) : (s.updCore c g).fmap = s.fmap := rfl
@[simp] theorem State.updDie_fmap (s : State) (c : Nat) (g : Die → Die) : (s.updDie c g).fmap = s.fmap := rfl
@[simp] theorem State.updSlot_fmap (s : State) (c : Nat) (g : Slot → Slot) : (s.updSlot c g).fmap = s.fmap := rfl
@[simp] theorem State.tickFresh_fmap (s : State) : s.tickFresh.fmap = s.fmap := rfl
@[simp] theorem State.updCore_gangs (s : State) (c : Nat) (g : Core → Core) : (s.updCore c g).gangs = s.gangs := rfl
@[simp] theorem State.updDie_gangs (s : State) (c : Nat) (g : Die → Die) : (s.updDie c g).gangs = s.gangs := rfl
@[simp] theorem State.updSlot_gangs (s : State) (c : Nat) (g : Slot → Slot) : (s.updSlot c g).gangs = s.gangs := rfl
@[simp] theorem State.tickFresh_gangs (s : State) : s.tickFresh.gangs = s.gangs := rfl
@[simp] theorem State.updCore_ptime (s : State) (c : Nat) (g : Core → Core) : (s.updCore c g).ptime = s.ptime := rfl
@[simp] theorem State.updDie_ptime (s : State) (c : Nat) (g : Die → Die) : (s.updDie c g).ptime = s.ptime := rfl
@[simp] theorem State.updSlot_ptime (s : State) (c : Nat) (g : Slot → Slot) : (s.updSlot c g).ptime = s.ptime := rfl
@[simp] theorem State.tickFresh_ptime (s : State) : s.tickFresh.ptime = s.ptime := rfl
@[simp] theorem State.updCore_locked (s : State) (c : Nat) (g : Core → Core) : (s.updCore c g).locked = s.locked := rfl
@[simp] theorem State.updDie_locked (s : State) (c : Nat) (g : Die → Die) : (s.updDie c g).locked = s.locked := rfl
@[simp] theorem State.updSlot_locked (s : State) (c : Nat) (g : Slot → Slot) : (s.updSlot c g).locked = s.locked := rfl
@[simp] theorem State.tickFresh_locked (s : State) : s.tickFresh.locked = s.locked := rfl
@[simp] theorem State.updCore_offset (s : State) (c : Nat) (g : Core → Core) : (s.updCore c g).offset = s.offset := rfl
@[simp] theorem State.updDie_offset (s : State) (c : Nat) (g : Die → Die) : (s.updDie c g).offset = s.offset := rfl
@[simp] theorem State.updSlot_offset (s : State) (c : Nat) (g : Slot → Slot) : (s.updSlot c g).offset = s.offset := rfl
@[simp] theorem State.tickFresh_offset (s : State) : s.tickFresh.offset = s.offset := rfl
@[simp] theorem State.updCore_inTol (s : State) (c : Nat) (g : Core → Core) : (s.updCore c g).inTol = s.inTol := rfl
@[simp] theorem State.updDie_inTol (s : State) (c : Nat) (g : Die → Die) : (s.updDie c g).inTol = s.inTol := rfl
@[simp] theorem State.updSlot_inTol (s : State) (c : Nat) (g : Slot → Slot) : (s.updSlot c g).inTol = s.inTol := rfl
@[simp] theorem State.tickFresh_inTol (s : State) : s.tickFresh.inTol = s.inTol := rfl
@[simp] theorem State.updCore_slew (s : State) (c : Nat) (g : Core → Core) : (s.updCore c g).slew = s.slew := rfl
@[simp] theorem State.updDie_slew (s : State) (c : Nat) (g : Die → Die) : (s.updDie c g).slew = s.slew := rfl
@[simp] theorem State.updSlot_slew (s : State) (c : Nat) (g : Slot → Slot) : (s.updSlot c g).slew = s.slew := rfl
@[simp] theorem State.tickFresh_slew (s : State) : s.tickFresh.slew = s.slew := rfl
@[simp] theorem State.updCore_power (s : State) (c : Nat) (g : Core → Core) : (s.updCore c g).power = s.power := rfl
@[simp] theorem State.updDie_power (s : State) (c : Nat) (g : Die → Die) : (s.updDie c g).power = s.power := rfl
@[simp] theorem State.updSlot_power (s : State) (c : Nat) (g : Slot → Slot) : (s.updSlot c g).power = s.power := rfl
@[simp] theorem State.tickFresh_power (s : State) : s.tickFresh.power = s.power := rfl
@[simp] theorem State.updCore_pump (s : State) (c : Nat) (g : Core → Core) : (s.updCore c g).pump = s.pump := rfl
@[simp] theorem State.updDie_pump (s : State) (c : Nat) (g : Die → Die) : (s.updDie c g).pump = s.pump := rfl
@[simp] theorem State.updSlot_pump (s : State) (c : Nat) (g : Slot → Slot) : (s.updSlot c g).pump = s.pump := rfl
@[simp] theorem State.tickFresh_pump (s : State) : s.tickFresh.pump = s.pump := rfl
@[simp] theorem State.updCore_inlet (s : State) (c : Nat) (g : Core → Core) : (s.updCore c g).inlet = s.inlet := rfl
@[simp] theorem State.updDie_inlet (s : State) (c : Nat) (g : Die → Die) : (s.updDie c g).inlet = s.inlet := rfl
@[simp] theorem State.updSlot_inlet (s : State) (c : Nat) (g : Slot → Slot) : (s.updSlot c g).inlet = s.inlet := rfl
@[simp] theorem State.tickFresh_inlet (s : State) : s.tickFresh.inlet = s.inlet := rfl
@[simp] theorem State.updCore_portsUp (s : State) (c : Nat) (g : Core → Core) : (s.updCore c g).portsUp = s.portsUp := rfl
@[simp] theorem State.updDie_portsUp (s : State) (c : Nat) (g : Die → Die) : (s.updDie c g).portsUp = s.portsUp := rfl
@[simp] theorem State.updSlot_portsUp (s : State) (c : Nat) (g : Slot → Slot) : (s.updSlot c g).portsUp = s.portsUp := rfl
@[simp] theorem State.tickFresh_portsUp (s : State) : s.tickFresh.portsUp = s.portsUp := rfl
@[simp] theorem State.updCore_boot (s : State) (c : Nat) (g : Core → Core) : (s.updCore c g).boot = s.boot := rfl
@[simp] theorem State.updDie_boot (s : State) (c : Nat) (g : Die → Die) : (s.updDie c g).boot = s.boot := rfl
@[simp] theorem State.updSlot_boot (s : State) (c : Nat) (g : Slot → Slot) : (s.updSlot c g).boot = s.boot := rfl
@[simp] theorem State.tickFresh_boot (s : State) : s.tickFresh.boot = s.boot := rfl
@[simp] theorem State.updCore_flash (s : State) (c : Nat) (g : Core → Core) : (s.updCore c g).flash = s.flash := rfl
@[simp] theorem State.updDie_flash (s : State) (c : Nat) (g : Die → Die) : (s.updDie c g).flash = s.flash := rfl
@[simp] theorem State.updSlot_flash (s : State) (c : Nat) (g : Slot → Slot) : (s.updSlot c g).flash = s.flash := rfl
@[simp] theorem State.tickFresh_flash (s : State) : s.tickFresh.flash = s.flash := rfl
@[simp] theorem State.updCore_pwbase (s : State) (c : Nat) (g : Core → Core) : (s.updCore c g).pwbase = s.pwbase := rfl
@[simp] theorem State.updDie_pwbase (s : State) (c : Nat) (g : Die → Die) : (s.updDie c g).pwbase = s.pwbase := rfl
@[simp] theorem State.updSlot_pwbase (s : State) (c : Nat) (g : Slot → Slot) : (s.updSlot c g).pwbase = s.pwbase := rfl
@[simp] theorem State.tickFresh_pwbase (s : State) : s.tickFresh.pwbase = s.pwbase := rfl
@[simp] theorem State.updCore_pwcount (s : State) (c : Nat) (g : Core → Core) : (s.updCore c g).pwcount = s.pwcount := rfl
@[simp] theorem State.updDie_pwcount (s : State) (c : Nat) (g : Die → Die) : (s.updDie c g).pwcount = s.pwcount := rfl
@[simp] theorem State.updSlot_pwcount (s : State) (c : Nat) (g : Slot → Slot) : (s.updSlot c g).pwcount = s.pwcount := rfl
@[simp] theorem State.tickFresh_pwcount (s : State) : s.tickFresh.pwcount = s.pwcount := rfl
@[simp] theorem State.updCore_qpbase (s : State) (c : Nat) (g : Core → Core) : (s.updCore c g).qpbase = s.qpbase := rfl
@[simp] theorem State.updDie_qpbase (s : State) (c : Nat) (g : Die → Die) : (s.updDie c g).qpbase = s.qpbase := rfl
@[simp] theorem State.updSlot_qpbase (s : State) (c : Nat) (g : Slot → Slot) : (s.updSlot c g).qpbase = s.qpbase := rfl
@[simp] theorem State.tickFresh_qpbase (s : State) : s.tickFresh.qpbase = s.qpbase := rfl
@[simp] theorem State.updCore_qpcount (s : State) (c : Nat) (g : Core → Core) : (s.updCore c g).qpcount = s.qpcount := rfl
@[simp] theorem State.updDie_qpcount (s : State) (c : Nat) (g : Die → Die) : (s.updDie c g).qpcount = s.qpcount := rfl
@[simp] theorem State.updSlot_qpcount (s : State) (c : Nat) (g : Slot → Slot) : (s.updSlot c g).qpcount = s.qpcount := rfl
@[simp] theorem State.tickFresh_qpcount (s : State) : s.tickFresh.qpcount = s.qpcount := rfl
@[simp] theorem State.updCore_rdma (s : State) (c : Nat) (g : Core → Core) : (s.updCore c g).rdma = s.rdma := rfl
@[simp] theorem State.updDie_rdma (s : State) (c : Nat) (g : Die → Die) : (s.updDie c g).rdma = s.rdma := rfl
@[simp] theorem State.updSlot_rdma (s : State) (c : Nat) (g : Slot → Slot) : (s.updSlot c g).rdma = s.rdma := rfl
@[simp] theorem State.tickFresh_rdma (s : State) : s.tickFresh.rdma = s.rdma := rfl
@[simp] theorem State.updCore_qps (s : State) (c : Nat) (g : Core → Core) : (s.updCore c g).qps = s.qps := rfl
@[simp] theorem State.updDie_qps (s : State) (c : Nat) (g : Die → Die) : (s.updDie c g).qps = s.qps := rfl
@[simp] theorem State.updSlot_qps (s : State) (c : Nat) (g : Slot → Slot) : (s.updSlot c g).qps = s.qps := rfl
@[simp] theorem State.tickFresh_qps (s : State) : s.tickFresh.qps = s.qps := rfl
@[simp] theorem State.updCore_pkts (s : State) (c : Nat) (g : Core → Core) : (s.updCore c g).pkts = s.pkts := rfl
@[simp] theorem State.updDie_pkts (s : State) (c : Nat) (g : Die → Die) : (s.updDie c g).pkts = s.pkts := rfl
@[simp] theorem State.updSlot_pkts (s : State) (c : Nat) (g : Slot → Slot) : (s.updSlot c g).pkts = s.pkts := rfl
@[simp] theorem State.tickFresh_pkts (s : State) : s.tickFresh.pkts = s.pkts := rfl
@[simp] theorem State.updCore_held (s : State) (c : Nat) (g : Core → Core) : (s.updCore c g).held = s.held := rfl
@[simp] theorem State.updDie_held (s : State) (c : Nat) (g : Die → Die) : (s.updDie c g).held = s.held := rfl
@[simp] theorem State.updSlot_held (s : State) (c : Nat) (g : Slot → Slot) : (s.updSlot c g).held = s.held := rfl
@[simp] theorem State.tickFresh_held (s : State) : s.tickFresh.held = s.held := rfl
@[simp] theorem State.updCore_replies (s : State) (c : Nat) (g : Core → Core) : (s.updCore c g).replies = s.replies := rfl
@[simp] theorem State.updDie_replies (s : State) (c : Nat) (g : Die → Die) : (s.updDie c g).replies = s.replies := rfl
@[simp] theorem State.updSlot_replies (s : State) (c : Nat) (g : Slot → Slot) : (s.updSlot c g).replies = s.replies := rfl
@[simp] theorem State.tickFresh_replies (s : State) : s.tickFresh.replies = s.replies := rfl
@[simp] theorem State.updCore_paused (s : State) (c : Nat) (g : Core → Core) : (s.updCore c g).paused = s.paused := rfl
@[simp] theorem State.updDie_paused (s : State) (c : Nat) (g : Die → Die) : (s.updDie c g).paused = s.paused := rfl
@[simp] theorem State.updSlot_paused (s : State) (c : Nat) (g : Slot → Slot) : (s.updSlot c g).paused = s.paused := rfl
@[simp] theorem State.tickFresh_paused (s : State) : s.tickFresh.paused = s.paused := rfl
@[simp] theorem State.updCore_marks (s : State) (c : Nat) (g : Core → Core) : (s.updCore c g).marks = s.marks := rfl
@[simp] theorem State.updDie_marks (s : State) (c : Nat) (g : Die → Die) : (s.updDie c g).marks = s.marks := rfl
@[simp] theorem State.updSlot_marks (s : State) (c : Nat) (g : Slot → Slot) : (s.updSlot c g).marks = s.marks := rfl
@[simp] theorem State.tickFresh_marks (s : State) : s.tickFresh.marks = s.marks := rfl
@[simp] theorem State.updCore_link (s : State) (c : Nat) (g : Core → Core) : (s.updCore c g).link = s.link := rfl
@[simp] theorem State.updDie_link (s : State) (c : Nat) (g : Die → Die) : (s.updDie c g).link = s.link := rfl
@[simp] theorem State.updSlot_link (s : State) (c : Nat) (g : Slot → Slot) : (s.updSlot c g).link = s.link := rfl
@[simp] theorem State.tickFresh_link (s : State) : s.tickFresh.link = s.link := rfl
@[simp] theorem State.updCore_mainPower (s : State) (c : Nat) (g : Core → Core) : (s.updCore c g).mainPower = s.mainPower := rfl
@[simp] theorem State.updDie_mainPower (s : State) (c : Nat) (g : Die → Die) : (s.updDie c g).mainPower = s.mainPower := rfl
@[simp] theorem State.updSlot_mainPower (s : State) (c : Nat) (g : Slot → Slot) : (s.updSlot c g).mainPower = s.mainPower := rfl
@[simp] theorem State.tickFresh_mainPower (s : State) : s.tickFresh.mainPower = s.mainPower := rfl
@[simp] theorem State.updCore_present (s : State) (c : Nat) (g : Core → Core) : (s.updCore c g).present = s.present := rfl
@[simp] theorem State.updDie_present (s : State) (c : Nat) (g : Die → Die) : (s.updDie c g).present = s.present := rfl
@[simp] theorem State.updSlot_present (s : State) (c : Nat) (g : Slot → Slot) : (s.updSlot c g).present = s.present := rfl
@[simp] theorem State.tickFresh_present (s : State) : s.tickFresh.present = s.present := rfl
@[simp] theorem State.updCore_vfs (s : State) (c : Nat) (g : Core → Core) : (s.updCore c g).vfs = s.vfs := rfl
@[simp] theorem State.updDie_vfs (s : State) (c : Nat) (g : Die → Die) : (s.updDie c g).vfs = s.vfs := rfl
@[simp] theorem State.updSlot_vfs (s : State) (c : Nat) (g : Slot → Slot) : (s.updSlot c g).vfs = s.vfs := rfl
@[simp] theorem State.tickFresh_vfs (s : State) : s.tickFresh.vfs = s.vfs := rfl
@[simp] theorem State.updCore_aer (s : State) (c : Nat) (g : Core → Core) : (s.updCore c g).aer = s.aer := rfl
@[simp] theorem State.updDie_aer (s : State) (c : Nat) (g : Die → Die) : (s.updDie c g).aer = s.aer := rfl
@[simp] theorem State.updSlot_aer (s : State) (c : Nat) (g : Slot → Slot) : (s.updSlot c g).aer = s.aer := rfl
@[simp] theorem State.tickFresh_aer (s : State) : s.tickFresh.aer = s.aer := rfl
@[simp] theorem State.updCore_fns (s : State) (c : Nat) (g : Core → Core) : (s.updCore c g).fns = s.fns := rfl
@[simp] theorem State.updDie_fns (s : State) (c : Nat) (g : Die → Die) : (s.updDie c g).fns = s.fns := rfl
@[simp] theorem State.updSlot_fns (s : State) (c : Nat) (g : Slot → Slot) : (s.updSlot c g).fns = s.fns := rfl
@[simp] theorem State.tickFresh_fns (s : State) : s.tickFresh.fns = s.fns := rfl
@[simp] theorem State.updCore_irqs (s : State) (c : Nat) (g : Core → Core) : (s.updCore c g).irqs = s.irqs := rfl
@[simp] theorem State.updDie_irqs (s : State) (c : Nat) (g : Die → Die) : (s.updDie c g).irqs = s.irqs := rfl
@[simp] theorem State.updSlot_irqs (s : State) (c : Nat) (g : Slot → Slot) : (s.updSlot c g).irqs = s.irqs := rfl
@[simp] theorem State.tickFresh_irqs (s : State) : s.tickFresh.irqs = s.irqs := rfl
@[simp] theorem State.updCore_streams (s : State) (c : Nat) (g : Core → Core) : (s.updCore c g).streams = s.streams := rfl
@[simp] theorem State.updDie_streams (s : State) (c : Nat) (g : Die → Die) : (s.updDie c g).streams = s.streams := rfl
@[simp] theorem State.updSlot_streams (s : State) (c : Nat) (g : Slot → Slot) : (s.updSlot c g).streams = s.streams := rfl
@[simp] theorem State.tickFresh_streams (s : State) : s.tickFresh.streams = s.streams := rfl
@[simp] theorem State.updCore_sent (s : State) (c : Nat) (g : Core → Core) : (s.updCore c g).sent = s.sent := rfl
@[simp] theorem State.updDie_sent (s : State) (c : Nat) (g : Die → Die) : (s.updDie c g).sent = s.sent := rfl
@[simp] theorem State.updSlot_sent (s : State) (c : Nat) (g : Slot → Slot) : (s.updSlot c g).sent = s.sent := rfl
@[simp] theorem State.tickFresh_sent (s : State) : s.tickFresh.sent = s.sent := rfl
@[simp] theorem State.updCore_spdm (s : State) (c : Nat) (g : Core → Core) : (s.updCore c g).spdm = s.spdm := rfl
@[simp] theorem State.updDie_spdm (s : State) (c : Nat) (g : Die → Die) : (s.updDie c g).spdm = s.spdm := rfl
@[simp] theorem State.updSlot_spdm (s : State) (c : Nat) (g : Slot → Slot) : (s.updSlot c g).spdm = s.spdm := rfl
@[simp] theorem State.tickFresh_spdm (s : State) : s.tickFresh.spdm = s.spdm := rfl
@[simp] theorem State.updCore_svcs (s : State) (c : Nat) (g : Core → Core) : (s.updCore c g).svcs = s.svcs := rfl
@[simp] theorem State.updDie_svcs (s : State) (c : Nat) (g : Die → Die) : (s.updDie c g).svcs = s.svcs := rfl
@[simp] theorem State.updSlot_svcs (s : State) (c : Nat) (g : Slot → Slot) : (s.updSlot c g).svcs = s.svcs := rfl
@[simp] theorem State.tickFresh_svcs (s : State) : s.tickFresh.svcs = s.svcs := rfl
@[simp] theorem State.updCore_cur (s : State) (c : Nat) (g : Core → Core) : (s.updCore c g).cur = s.cur := rfl
@[simp] theorem State.updDie_cur (s : State) (c : Nat) (g : Die → Die) : (s.updDie c g).cur = s.cur := rfl
@[simp] theorem State.updSlot_cur (s : State) (c : Nat) (g : Slot → Slot) : (s.updSlot c g).cur = s.cur := rfl
@[simp] theorem State.tickFresh_cur (s : State) : s.tickFresh.cur = s.cur := rfl
@[simp] theorem State.updCore_ports (s : State) (c : Nat) (g : Core → Core) : (s.updCore c g).ports = s.ports := rfl
@[simp] theorem State.updDie_ports (s : State) (c : Nat) (g : Die → Die) : (s.updDie c g).ports = s.ports := rfl
@[simp] theorem State.updSlot_ports (s : State) (c : Nat) (g : Slot → Slot) : (s.updSlot c g).ports = s.ports := rfl
@[simp] theorem State.tickFresh_ports (s : State) : s.tickFresh.ports = s.ports := rfl
@[simp] theorem State.updCore_agenda (s : State) (c : Nat) (g : Core → Core) : (s.updCore c g).agenda = s.agenda := rfl
@[simp] theorem State.updDie_agenda (s : State) (c : Nat) (g : Die → Die) : (s.updDie c g).agenda = s.agenda := rfl
@[simp] theorem State.updSlot_agenda (s : State) (c : Nat) (g : Slot → Slot) : (s.updSlot c g).agenda = s.agenda := rfl
@[simp] theorem State.tickFresh_agenda (s : State) : s.tickFresh.agenda = s.agenda := rfl
@[simp] theorem State.updCore_fresh (s : State) (c : Nat) (g : Core → Core) : (s.updCore c g).fresh = s.fresh := rfl
@[simp] theorem State.updDie_fresh (s : State) (c : Nat) (g : Die → Die) : (s.updDie c g).fresh = s.fresh := rfl
@[simp] theorem State.updSlot_fresh (s : State) (c : Nat) (g : Slot → Slot) : (s.updSlot c g).fresh = s.fresh := rfl
@[simp] theorem State.updThread_dies (s : State) (c t : Nat) (g : Thread → Thread) : (s.updThread c t g).dies = s.dies := rfl
@[simp] theorem State.updThread_mem (s : State) (c t : Nat) (g : Thread → Thread) : (s.updThread c t g).mem = s.mem := rfl
@[simp] theorem State.updThread_host (s : State) (c t : Nat) (g : Thread → Thread) : (s.updThread c t g).host = s.host := rfl
@[simp] theorem State.updThread_remote (s : State) (c t : Nat) (g : Thread → Thread) : (s.updThread c t g).remote = s.remote := rfl
@[simp] theorem State.updThread_poison (s : State) (c t : Nat) (g : Thread → Thread) : (s.updThread c t g).poison = s.poison := rfl
@[simp] theorem State.updThread_interrupted (s : State) (c t : Nat) (g : Thread → Thread) : (s.updThread c t g).interrupted = s.interrupted := rfl
@[simp] theorem State.updThread_ptbase (s : State) (c t : Nat) (g : Thread → Thread) : (s.updThread c t g).ptbase = s.ptbase := rfl
@[simp] theorem State.updThread_invva (s : State) (c t : Nat) (g : Thread → Thread) : (s.updThread c t g).invva = s.invva := rfl
@[simp] theorem State.updThread_invlen (s : State) (c t : Nat) (g : Thread → Thread) : (s.updThread c t g).invlen = s.invlen := rfl
@[simp] theorem State.updThread_inv (s : State) (c t : Nat) (g : Thread → Thread) : (s.updThread c t g).inv = s.inv := rfl
@[simp] theorem State.updThread_mig (s : State) (c t : Nat) (g : Thread → Thread) : (s.updThread c t g).mig = s.mig := rfl
@[simp] theorem State.updThread_ats (s : State) (c t : Nat) (g : Thread → Thread) : (s.updThread c t g).ats = s.ats := rfl
@[simp] theorem State.updThread_pri (s : State) (c t : Nat) (g : Thread → Thread) : (s.updThread c t g).pri = s.pri := rfl
@[simp] theorem State.updThread_asked (s : State) (c t : Nat) (g : Thread → Thread) : (s.updThread c t g).asked = s.asked := rfl
@[simp] theorem State.updThread_kwr (s : State) (c t : Nat) (g : Thread → Thread) : (s.updThread c t g).kwr = s.kwr := rfl
@[simp] theorem State.updThread_pendBits (s : State) (c t : Nat) (g : Thread → Thread) : (s.updThread c t g).pendBits = s.pendBits := rfl
@[simp] theorem State.updThread_slots (s : State) (c t : Nat) (g : Thread → Thread) : (s.updThread c t g).slots = s.slots := rfl
@[simp] theorem State.updThread_lastServed (s : State) (c t : Nat) (g : Thread → Thread) : (s.updThread c t g).lastServed = s.lastServed := rfl
@[simp] theorem State.updThread_kept (s : State) (c t : Nat) (g : Thread → Thread) : (s.updThread c t g).kept = s.kept := rfl
@[simp] theorem State.updThread_partbase (s : State) (c t : Nat) (g : Thread → Thread) : (s.updThread c t g).partbase = s.partbase := rfl
@[simp] theorem State.updThread_partcount (s : State) (c t : Nat) (g : Thread → Thread) : (s.updThread c t g).partcount = s.partcount := rfl
@[simp] theorem State.updThread_fpbase (s : State) (c t : Nat) (g : Thread → Thread) : (s.updThread c t g).fpbase = s.fpbase := rfl
@[simp] theorem State.updThread_applystat (s : State) (c t : Nat) (g : Thread → Thread) : (s.updThread c t g).applystat = s.applystat := rfl
@[simp] theorem State.updThread_actstat (s : State) (c t : Nat) (g : Thread → Thread) : (s.updThread c t g).actstat = s.actstat := rfl
@[simp] theorem State.updThread_rstBusy (s : State) (c t : Nat) (g : Thread → Thread) : (s.updThread c t g).rstBusy = s.rstBusy := rfl
@[simp] theorem State.updThread_strbase (s : State) (c t : Nat) (g : Thread → Thread) : (s.updThread c t g).strbase = s.strbase := rfl
@[simp] theorem State.updThread_strcount (s : State) (c t : Nat) (g : Thread → Thread) : (s.updThread c t g).strcount = s.strcount := rfl
@[simp] theorem State.updThread_parts (s : State) (c t : Nat) (g : Thread → Thread) : (s.updThread c t g).parts = s.parts := rfl
@[simp] theorem State.updThread_fmap (s : State) (c t : Nat) (g : Thread → Thread) : (s.updThread c t g).fmap = s.fmap := rfl
@[simp] theorem State.updThread_gangs (s : State) (c t : Nat) (g : Thread → Thread) : (s.updThread c t g).gangs = s.gangs := rfl
@[simp] theorem State.updThread_ptime (s : State) (c t : Nat) (g : Thread → Thread) : (s.updThread c t g).ptime = s.ptime := rfl
@[simp] theorem State.updThread_locked (s : State) (c t : Nat) (g : Thread → Thread) : (s.updThread c t g).locked = s.locked := rfl
@[simp] theorem State.updThread_offset (s : State) (c t : Nat) (g : Thread → Thread) : (s.updThread c t g).offset = s.offset := rfl
@[simp] theorem State.updThread_inTol (s : State) (c t : Nat) (g : Thread → Thread) : (s.updThread c t g).inTol = s.inTol := rfl
@[simp] theorem State.updThread_slew (s : State) (c t : Nat) (g : Thread → Thread) : (s.updThread c t g).slew = s.slew := rfl
@[simp] theorem State.updThread_power (s : State) (c t : Nat) (g : Thread → Thread) : (s.updThread c t g).power = s.power := rfl
@[simp] theorem State.updThread_pump (s : State) (c t : Nat) (g : Thread → Thread) : (s.updThread c t g).pump = s.pump := rfl
@[simp] theorem State.updThread_inlet (s : State) (c t : Nat) (g : Thread → Thread) : (s.updThread c t g).inlet = s.inlet := rfl
@[simp] theorem State.updThread_portsUp (s : State) (c t : Nat) (g : Thread → Thread) : (s.updThread c t g).portsUp = s.portsUp := rfl
@[simp] theorem State.updThread_boot (s : State) (c t : Nat) (g : Thread → Thread) : (s.updThread c t g).boot = s.boot := rfl
@[simp] theorem State.updThread_flash (s : State) (c t : Nat) (g : Thread → Thread) : (s.updThread c t g).flash = s.flash := rfl
@[simp] theorem State.updThread_pwbase (s : State) (c t : Nat) (g : Thread → Thread) : (s.updThread c t g).pwbase = s.pwbase := rfl
@[simp] theorem State.updThread_pwcount (s : State) (c t : Nat) (g : Thread → Thread) : (s.updThread c t g).pwcount = s.pwcount := rfl
@[simp] theorem State.updThread_qpbase (s : State) (c t : Nat) (g : Thread → Thread) : (s.updThread c t g).qpbase = s.qpbase := rfl
@[simp] theorem State.updThread_qpcount (s : State) (c t : Nat) (g : Thread → Thread) : (s.updThread c t g).qpcount = s.qpcount := rfl
@[simp] theorem State.updThread_rdma (s : State) (c t : Nat) (g : Thread → Thread) : (s.updThread c t g).rdma = s.rdma := rfl
@[simp] theorem State.updThread_qps (s : State) (c t : Nat) (g : Thread → Thread) : (s.updThread c t g).qps = s.qps := rfl
@[simp] theorem State.updThread_pkts (s : State) (c t : Nat) (g : Thread → Thread) : (s.updThread c t g).pkts = s.pkts := rfl
@[simp] theorem State.updThread_held (s : State) (c t : Nat) (g : Thread → Thread) : (s.updThread c t g).held = s.held := rfl
@[simp] theorem State.updThread_replies (s : State) (c t : Nat) (g : Thread → Thread) : (s.updThread c t g).replies = s.replies := rfl
@[simp] theorem State.updThread_paused (s : State) (c t : Nat) (g : Thread → Thread) : (s.updThread c t g).paused = s.paused := rfl
@[simp] theorem State.updThread_marks (s : State) (c t : Nat) (g : Thread → Thread) : (s.updThread c t g).marks = s.marks := rfl
@[simp] theorem State.updThread_link (s : State) (c t : Nat) (g : Thread → Thread) : (s.updThread c t g).link = s.link := rfl
@[simp] theorem State.updThread_mainPower (s : State) (c t : Nat) (g : Thread → Thread) : (s.updThread c t g).mainPower = s.mainPower := rfl
@[simp] theorem State.updThread_present (s : State) (c t : Nat) (g : Thread → Thread) : (s.updThread c t g).present = s.present := rfl
@[simp] theorem State.updThread_vfs (s : State) (c t : Nat) (g : Thread → Thread) : (s.updThread c t g).vfs = s.vfs := rfl
@[simp] theorem State.updThread_aer (s : State) (c t : Nat) (g : Thread → Thread) : (s.updThread c t g).aer = s.aer := rfl
@[simp] theorem State.updThread_fns (s : State) (c t : Nat) (g : Thread → Thread) : (s.updThread c t g).fns = s.fns := rfl
@[simp] theorem State.updThread_irqs (s : State) (c t : Nat) (g : Thread → Thread) : (s.updThread c t g).irqs = s.irqs := rfl
@[simp] theorem State.updThread_streams (s : State) (c t : Nat) (g : Thread → Thread) : (s.updThread c t g).streams = s.streams := rfl
@[simp] theorem State.updThread_sent (s : State) (c t : Nat) (g : Thread → Thread) : (s.updThread c t g).sent = s.sent := rfl
@[simp] theorem State.updThread_spdm (s : State) (c t : Nat) (g : Thread → Thread) : (s.updThread c t g).spdm = s.spdm := rfl
@[simp] theorem State.updThread_svcs (s : State) (c t : Nat) (g : Thread → Thread) : (s.updThread c t g).svcs = s.svcs := rfl
@[simp] theorem State.updThread_cur (s : State) (c t : Nat) (g : Thread → Thread) : (s.updThread c t g).cur = s.cur := rfl
@[simp] theorem State.updThread_ports (s : State) (c t : Nat) (g : Thread → Thread) : (s.updThread c t g).ports = s.ports := rfl
@[simp] theorem State.updThread_agenda (s : State) (c t : Nat) (g : Thread → Thread) : (s.updThread c t g).agenda = s.agenda := rfl
@[simp] theorem State.updThread_fresh (s : State) (c t : Nat) (g : Thread → Thread) : (s.updThread c t g).fresh = s.fresh := rfl

/-! ### Core: updates of a thread, a line, a group -/

@[simp] theorem Core.updThread_inst (k : Core) (t : Nat) (g : Thread → Thread) : (k.updThread t g).inst = k.inst := rfl
@[simp] theorem Core.setLine_inst (k : Core) (l : Nat) (x : Line) : (k.setLine l x).inst = k.inst := rfl
@[simp] theorem Core.setGroup_inst (k : Core) (g : Nat) (x : Group) : (k.setGroup g x).inst = k.inst := rfl
@[simp] theorem Core.setLine_threads (k : Core) (l : Nat) (x : Line) : (k.setLine l x).threads = k.threads := rfl
@[simp] theorem Core.setGroup_threads (k : Core) (g : Nat) (x : Group) : (k.setGroup g x).threads = k.threads := rfl
@[simp] theorem Core.updThread_phrases (k : Core) (t : Nat) (g : Thread → Thread) : (k.updThread t g).phrases = k.phrases := rfl
@[simp] theorem Core.setLine_phrases (k : Core) (l : Nat) (x : Line) : (k.setLine l x).phrases = k.phrases := rfl
@[simp] theorem Core.setGroup_phrases (k : Core) (g : Nat) (x : Group) : (k.setGroup g x).phrases = k.phrases := rfl
@[simp] theorem Core.updThread_rgetQ (k : Core) (t : Nat) (g : Thread → Thread) : (k.updThread t g).rgetQ = k.rgetQ := rfl
@[simp] theorem Core.setLine_rgetQ (k : Core) (l : Nat) (x : Line) : (k.setLine l x).rgetQ = k.rgetQ := rfl
@[simp] theorem Core.setGroup_rgetQ (k : Core) (g : Nat) (x : Group) : (k.setGroup g x).rgetQ = k.rgetQ := rfl
@[simp] theorem Core.updThread_rr (k : Core) (t : Nat) (g : Thread → Thread) : (k.updThread t g).rr = k.rr := rfl
@[simp] theorem Core.setLine_rr (k : Core) (l : Nat) (x : Line) : (k.setLine l x).rr = k.rr := rfl
@[simp] theorem Core.setGroup_rr (k : Core) (g : Nat) (x : Group) : (k.setGroup g x).rr = k.rr := rfl
@[simp] theorem Core.updThread_clock (k : Core) (t : Nat) (g : Thread → Thread) : (k.updThread t g).clock = k.clock := rfl
@[simp] theorem Core.setLine_clock (k : Core) (l : Nat) (x : Line) : (k.setLine l x).clock = k.clock := rfl
@[simp] theorem Core.setGroup_clock (k : Core) (g : Nat) (x : Group) : (k.setGroup g x).clock = k.clock := rfl
@[simp] theorem Core.updThread_tvec (k : Core) (t : Nat) (g : Thread → Thread) : (k.updThread t g).tvec = k.tvec := rfl
@[simp] theorem Core.setLine_tvec (k : Core) (l : Nat) (x : Line) : (k.setLine l x).tvec = k.tvec := rfl
@[simp] theorem Core.setGroup_tvec (k : Core) (g : Nat) (x : Group) : (k.setGroup g x).tvec = k.tvec := rfl
@[simp] theorem Core.updThread_fwEntry (k : Core) (t : Nat) (g : Thread → Thread) : (k.updThread t g).fwEntry = k.fwEntry := rfl
@[simp] theorem Core.setLine_fwEntry (k : Core) (l : Nat) (x : Line) : (k.setLine l x).fwEntry = k.fwEntry := rfl
@[simp] theorem Core.setGroup_fwEntry (k : Core) (g : Nat) (x : Group) : (k.setGroup g x).fwEntry = k.fwEntry := rfl
@[simp] theorem Core.updThread_fwRestore (k : Core) (t : Nat) (g : Thread → Thread) : (k.updThread t g).fwRestore = k.fwRestore := rfl
@[simp] theorem Core.setLine_fwRestore (k : Core) (l : Nat) (x : Line) : (k.setLine l x).fwRestore = k.fwRestore := rfl
@[simp] theorem Core.setGroup_fwRestore (k : Core) (g : Nat) (x : Group) : (k.setGroup g x).fwRestore = k.fwRestore := rfl
@[simp] theorem Core.updThread_sphase (k : Core) (t : Nat) (g : Thread → Thread) : (k.updThread t g).sphase = k.sphase := rfl
@[simp] theorem Core.setLine_sphase (k : Core) (l : Nat) (x : Line) : (k.setLine l x).sphase = k.sphase := rfl
@[simp] theorem Core.setGroup_sphase (k : Core) (g : Nat) (x : Group) : (k.setGroup g x).sphase = k.sphase := rfl
@[simp] theorem Core.updThread_sphaseSet (k : Core) (t : Nat) (g : Thread → Thread) : (k.updThread t g).sphaseSet = k.sphaseSet := rfl
@[simp] theorem Core.setLine_sphaseSet (k : Core) (l : Nat) (x : Line) : (k.setLine l x).sphaseSet = k.sphaseSet := rfl
@[simp] theorem Core.setGroup_sphaseSet (k : Core) (g : Nat) (x : Group) : (k.setGroup g x).sphaseSet = k.sphaseSet := rfl
@[simp] theorem Core.updThread_saving (k : Core) (t : Nat) (g : Thread → Thread) : (k.updThread t g).saving = k.saving := rfl
@[simp] theorem Core.setLine_saving (k : Core) (l : Nat) (x : Line) : (k.setLine l x).saving = k.saving := rfl
@[simp] theorem Core.setGroup_saving (k : Core) (g : Nat) (x : Group) : (k.setGroup g x).saving = k.saving := rfl
@[simp] theorem Core.updThread_restore (k : Core) (t : Nat) (g : Thread → Thread) : (k.updThread t g).restore = k.restore := rfl
@[simp] theorem Core.setLine_restore (k : Core) (l : Nat) (x : Line) : (k.setLine l x).restore = k.restore := rfl
@[simp] theorem Core.setGroup_restore (k : Core) (g : Nat) (x : Group) : (k.setGroup g x).restore = k.restore := rfl
@[simp] theorem Core.updThread_busy (k : Core) (t : Nat) (g : Thread → Thread) : (k.updThread t g).busy = k.busy := rfl
@[simp] theorem Core.setLine_busy (k : Core) (l : Nat) (x : Line) : (k.setLine l x).busy = k.busy := rfl
@[simp] theorem Core.setGroup_busy (k : Core) (g : Nat) (x : Group) : (k.setGroup g x).busy = k.busy := rfl
@[simp] theorem Core.updThread_groups (k : Core) (t : Nat) (g : Thread → Thread) : (k.updThread t g).groups = k.groups := rfl
@[simp] theorem Core.setLine_groups (k : Core) (l : Nat) (x : Line) : (k.setLine l x).groups = k.groups := rfl
@[simp] theorem Core.updThread_nextInc (k : Core) (t : Nat) (g : Thread → Thread) : (k.updThread t g).nextInc = k.nextInc := rfl
@[simp] theorem Core.setLine_nextInc (k : Core) (l : Nat) (x : Line) : (k.setLine l x).nextInc = k.nextInc := rfl
@[simp] theorem Core.setGroup_nextInc (k : Core) (g : Nat) (x : Group) : (k.setGroup g x).nextInc = k.nextInc := rfl
@[simp] theorem Core.updThread_scratch (k : Core) (t : Nat) (g : Thread → Thread) : (k.updThread t g).scratch = k.scratch := rfl
@[simp] theorem Core.setLine_scratch (k : Core) (l : Nat) (x : Line) : (k.setLine l x).scratch = k.scratch := rfl
@[simp] theorem Core.setGroup_scratch (k : Core) (g : Nat) (x : Group) : (k.setGroup g x).scratch = k.scratch := rfl
@[simp] theorem Core.updThread_staging (k : Core) (t : Nat) (g : Thread → Thread) : (k.updThread t g).staging = k.staging := rfl
@[simp] theorem Core.setLine_staging (k : Core) (l : Nat) (x : Line) : (k.setLine l x).staging = k.staging := rfl
@[simp] theorem Core.setGroup_staging (k : Core) (g : Nat) (x : Group) : (k.setGroup g x).staging = k.staging := rfl
@[simp] theorem Core.updThread_regions (k : Core) (t : Nat) (g : Thread → Thread) : (k.updThread t g).regions = k.regions := rfl
@[simp] theorem Core.setLine_regions (k : Core) (l : Nat) (x : Line) : (k.setLine l x).regions = k.regions := rfl
@[simp] theorem Core.setGroup_regions (k : Core) (g : Nat) (x : Group) : (k.setGroup g x).regions = k.regions := rfl
@[simp] theorem Core.updThread_lines (k : Core) (t : Nat) (g : Thread → Thread) : (k.updThread t g).lines = k.lines := rfl
@[simp] theorem Core.setGroup_lines (k : Core) (g : Nat) (x : Group) : (k.setGroup g x).lines = k.lines := rfl
@[simp] theorem Core.updThread_mops (k : Core) (t : Nat) (g : Thread → Thread) : (k.updThread t g).mops = k.mops := rfl
@[simp] theorem Core.setLine_mops (k : Core) (l : Nat) (x : Line) : (k.setLine l x).mops = k.mops := rfl
@[simp] theorem Core.setGroup_mops (k : Core) (g : Nat) (x : Group) : (k.setGroup g x).mops = k.mops := rfl
@[simp] theorem Core.updThread_promoReq (k : Core) (t : Nat) (g : Thread → Thread) : (k.updThread t g).promoReq = k.promoReq := rfl
@[simp] theorem Core.setLine_promoReq (k : Core) (l : Nat) (x : Line) : (k.setLine l x).promoReq = k.promoReq := rfl
@[simp] theorem Core.setGroup_promoReq (k : Core) (g : Nat) (x : Group) : (k.setGroup g x).promoReq = k.promoReq := rfl
@[simp] theorem Core.updThread_promoLines (k : Core) (t : Nat) (g : Thread → Thread) : (k.updThread t g).promoLines = k.promoLines := rfl
@[simp] theorem Core.setLine_promoLines (k : Core) (l : Nat) (x : Line) : (k.setLine l x).promoLines = k.promoLines := rfl
@[simp] theorem Core.setGroup_promoLines (k : Core) (g : Nat) (x : Group) : (k.setGroup g x).promoLines = k.promoLines := rfl
@[simp] theorem Core.updThread_cmds (k : Core) (t : Nat) (g : Thread → Thread) : (k.updThread t g).cmds = k.cmds := rfl
@[simp] theorem Core.setLine_cmds (k : Core) (l : Nat) (x : Line) : (k.setLine l x).cmds = k.cmds := rfl
@[simp] theorem Core.setGroup_cmds (k : Core) (g : Nat) (x : Group) : (k.setGroup g x).cmds = k.cmds := rfl
@[simp] theorem Core.updThread_nextId (k : Core) (t : Nat) (g : Thread → Thread) : (k.updThread t g).nextId = k.nextId := rfl
@[simp] theorem Core.setLine_nextId (k : Core) (l : Nat) (x : Line) : (k.setLine l x).nextId = k.nextId := rfl
@[simp] theorem Core.setGroup_nextId (k : Core) (g : Nat) (x : Group) : (k.setGroup g x).nextId = k.nextId := rfl
@[simp] theorem Core.updThread_tbs (k : Core) (t : Nat) (g : Thread → Thread) : (k.updThread t g).tbs = k.tbs := rfl
@[simp] theorem Core.setLine_tbs (k : Core) (l : Nat) (x : Line) : (k.setLine l x).tbs = k.tbs := rfl
@[simp] theorem Core.setGroup_tbs (k : Core) (g : Nat) (x : Group) : (k.setGroup g x).tbs = k.tbs := rfl
@[simp] theorem Core.updThread_acc (k : Core) (t : Nat) (g : Thread → Thread) : (k.updThread t g).acc = k.acc := rfl
@[simp] theorem Core.setLine_acc (k : Core) (l : Nat) (x : Line) : (k.setLine l x).acc = k.acc := rfl
@[simp] theorem Core.setGroup_acc (k : Core) (g : Nat) (x : Group) : (k.setGroup g x).acc = k.acc := rfl
@[simp] theorem Core.updThread_ovf (k : Core) (t : Nat) (g : Thread → Thread) : (k.updThread t g).ovf = k.ovf := rfl
@[simp] theorem Core.setLine_ovf (k : Core) (l : Nat) (x : Line) : (k.setLine l x).ovf = k.ovf := rfl
@[simp] theorem Core.setGroup_ovf (k : Core) (g : Nat) (x : Group) : (k.setGroup g x).ovf = k.ovf := rfl
@[simp] theorem Core.updThread_unfenced (k : Core) (t : Nat) (g : Thread → Thread) : (k.updThread t g).unfenced = k.unfenced := rfl
@[simp] theorem Core.setLine_unfenced (k : Core) (l : Nat) (x : Line) : (k.setLine l x).unfenced = k.unfenced := rfl
@[simp] theorem Core.setGroup_unfenced (k : Core) (g : Nat) (x : Group) : (k.setGroup g x).unfenced = k.unfenced := rfl
@[simp] theorem Core.updThread_recent (k : Core) (t : Nat) (g : Thread → Thread) : (k.updThread t g).recent = k.recent := rfl
@[simp] theorem Core.setLine_recent (k : Core) (l : Nat) (x : Line) : (k.setLine l x).recent = k.recent := rfl
@[simp] theorem Core.setGroup_recent (k : Core) (g : Nat) (x : Group) : (k.setGroup g x).recent = k.recent := rfl
@[simp] theorem Core.updThread_seq (k : Core) (t : Nat) (g : Thread → Thread) : (k.updThread t g).seq = k.seq := rfl
@[simp] theorem Core.setLine_seq (k : Core) (l : Nat) (x : Line) : (k.setLine l x).seq = k.seq := rfl
@[simp] theorem Core.setGroup_seq (k : Core) (g : Nat) (x : Group) : (k.setGroup g x).seq = k.seq := rfl
@[simp] theorem Core.updThread_mq (k : Core) (t : Nat) (g : Thread → Thread) : (k.updThread t g).mq = k.mq := rfl
@[simp] theorem Core.setLine_mq (k : Core) (l : Nat) (x : Line) : (k.setLine l x).mq = k.mq := rfl
@[simp] theorem Core.setGroup_mq (k : Core) (g : Nat) (x : Group) : (k.setGroup g x).mq = k.mq := rfl
@[simp] theorem Core.updThread_mstop (k : Core) (t : Nat) (g : Thread → Thread) : (k.updThread t g).mstop = k.mstop := rfl
@[simp] theorem Core.setLine_mstop (k : Core) (l : Nat) (x : Line) : (k.setLine l x).mstop = k.mstop := rfl
@[simp] theorem Core.setGroup_mstop (k : Core) (g : Nat) (x : Group) : (k.setGroup g x).mstop = k.mstop := rfl
@[simp] theorem Core.updThread_mticket (k : Core) (t : Nat) (g : Thread → Thread) : (k.updThread t g).mticket = k.mticket := rfl
@[simp] theorem Core.setLine_mticket (k : Core) (l : Nat) (x : Line) : (k.setLine l x).mticket = k.mticket := rfl
@[simp] theorem Core.setGroup_mticket (k : Core) (g : Nat) (x : Group) : (k.setGroup g x).mticket = k.mticket := rfl
@[simp] theorem Core.updThread_mfaults (k : Core) (t : Nat) (g : Thread → Thread) : (k.updThread t g).mfaults = k.mfaults := rfl
@[simp] theorem Core.setLine_mfaults (k : Core) (l : Nat) (x : Line) : (k.setLine l x).mfaults = k.mfaults := rfl
@[simp] theorem Core.setGroup_mfaults (k : Core) (g : Nat) (x : Group) : (k.setGroup g x).mfaults = k.mfaults := rfl
@[simp] theorem Core.updThread_cov (k : Core) (t : Nat) (g : Thread → Thread) : (k.updThread t g).cov = k.cov := rfl
@[simp] theorem Core.setLine_cov (k : Core) (l : Nat) (x : Line) : (k.setLine l x).cov = k.cov := rfl
@[simp] theorem Core.setGroup_cov (k : Core) (g : Nat) (x : Group) : (k.setGroup g x).cov = k.cov := rfl
@[simp] theorem Core.updThread_recs (k : Core) (t : Nat) (g : Thread → Thread) : (k.updThread t g).recs = k.recs := rfl
@[simp] theorem Core.setLine_recs (k : Core) (l : Nat) (x : Line) : (k.setLine l x).recs = k.recs := rfl
@[simp] theorem Core.setGroup_recs (k : Core) (g : Nat) (x : Group) : (k.setGroup g x).recs = k.recs := rfl
@[simp] theorem Core.updThread_window (k : Core) (t : Nat) (g : Thread → Thread) : (k.updThread t g).window = k.window := rfl
@[simp] theorem Core.setLine_window (k : Core) (l : Nat) (x : Line) : (k.setLine l x).window = k.window := rfl
@[simp] theorem Core.setGroup_window (k : Core) (g : Nat) (x : Group) : (k.setGroup g x).window = k.window := rfl
@[simp] theorem Core.updThread_icache (k : Core) (t : Nat) (g : Thread → Thread) : (k.updThread t g).icache = k.icache := rfl
@[simp] theorem Core.setLine_icache (k : Core) (l : Nat) (x : Line) : (k.setLine l x).icache = k.icache := rfl
@[simp] theorem Core.setGroup_icache (k : Core) (g : Nat) (x : Group) : (k.setGroup g x).icache = k.icache := rfl
@[simp] theorem Core.updThread_sset (k : Core) (t : Nat) (g : Thread → Thread) : (k.updThread t g).sset = k.sset := rfl
@[simp] theorem Core.setLine_sset (k : Core) (l : Nat) (x : Line) : (k.setLine l x).sset = k.sset := rfl
@[simp] theorem Core.setGroup_sset (k : Core) (g : Nat) (x : Group) : (k.setGroup g x).sset = k.sset := rfl
@[simp] theorem Core.updThread_leaving (k : Core) (t : Nat) (g : Thread → Thread) : (k.updThread t g).leaving = k.leaving := rfl
@[simp] theorem Core.setLine_leaving (k : Core) (l : Nat) (x : Line) : (k.setLine l x).leaving = k.leaving := rfl
@[simp] theorem Core.setGroup_leaving (k : Core) (g : Nat) (x : Group) : (k.setGroup g x).leaving = k.leaving := rfl
@[simp] theorem Core.updThread_evt (k : Core) (t : Nat) (g : Thread → Thread) : (k.updThread t g).evt = k.evt := rfl
@[simp] theorem Core.setLine_evt (k : Core) (l : Nat) (x : Line) : (k.setLine l x).evt = k.evt := rfl
@[simp] theorem Core.setGroup_evt (k : Core) (g : Nat) (x : Group) : (k.setGroup g x).evt = k.evt := rfl
@[simp] theorem Core.updThread_tickIv (k : Core) (t : Nat) (g : Thread → Thread) : (k.updThread t g).tickIv = k.tickIv := rfl
@[simp] theorem Core.setLine_tickIv (k : Core) (l : Nat) (x : Line) : (k.setLine l x).tickIv = k.tickIv := rfl
@[simp] theorem Core.setGroup_tickIv (k : Core) (g : Nat) (x : Group) : (k.setGroup g x).tickIv = k.tickIv := rfl
@[simp] theorem Core.updThread_tickLeft (k : Core) (t : Nat) (g : Thread → Thread) : (k.updThread t g).tickLeft = k.tickLeft := rfl
@[simp] theorem Core.setLine_tickLeft (k : Core) (l : Nat) (x : Line) : (k.setLine l x).tickLeft = k.tickLeft := rfl
@[simp] theorem Core.setGroup_tickLeft (k : Core) (g : Nat) (x : Group) : (k.setGroup g x).tickLeft = k.tickLeft := rfl
@[simp] theorem Core.updThread_kpendAt (k : Core) (t : Nat) (g : Thread → Thread) : (k.updThread t g).kpendAt = k.kpendAt := rfl
@[simp] theorem Core.setLine_kpendAt (k : Core) (l : Nat) (x : Line) : (k.setLine l x).kpendAt = k.kpendAt := rfl
@[simp] theorem Core.setGroup_kpendAt (k : Core) (g : Nat) (x : Group) : (k.setGroup g x).kpendAt = k.kpendAt := rfl
@[simp] theorem Core.updThread_ipis (k : Core) (t : Nat) (g : Thread → Thread) : (k.updThread t g).ipis = k.ipis := rfl
@[simp] theorem Core.setLine_ipis (k : Core) (l : Nat) (x : Line) : (k.setLine l x).ipis = k.ipis := rfl
@[simp] theorem Core.setGroup_ipis (k : Core) (g : Nat) (x : Group) : (k.setGroup g x).ipis = k.ipis := rfl
@[simp] theorem Core.updThread_tlb (k : Core) (t : Nat) (g : Thread → Thread) : (k.updThread t g).tlb = k.tlb := rfl
@[simp] theorem Core.setLine_tlb (k : Core) (l : Nat) (x : Line) : (k.setLine l x).tlb = k.tlb := rfl
@[simp] theorem Core.setGroup_tlb (k : Core) (g : Nat) (x : Group) : (k.setGroup g x).tlb = k.tlb := rfl
@[simp] theorem Core.updThread_halted (k : Core) (t : Nat) (g : Thread → Thread) : (k.updThread t g).halted = k.halted := rfl
@[simp] theorem Core.setLine_halted (k : Core) (l : Nat) (x : Line) : (k.setLine l x).halted = k.halted := rfl
@[simp] theorem Core.setGroup_halted (k : Core) (g : Nat) (x : Group) : (k.setGroup g x).halted = k.halted := rfl
@[simp] theorem Core.updThread_retired (k : Core) (t : Nat) (g : Thread → Thread) : (k.updThread t g).retired = k.retired := rfl
@[simp] theorem Core.setLine_retired (k : Core) (l : Nat) (x : Line) : (k.setLine l x).retired = k.retired := rfl
@[simp] theorem Core.setGroup_retired (k : Core) (g : Nat) (x : Group) : (k.setGroup g x).retired = k.retired := rfl
@[simp] theorem Core.updThread_outNext (k : Core) (t : Nat) (g : Thread → Thread) : (k.updThread t g).outNext = k.outNext := rfl
@[simp] theorem Core.setLine_outNext (k : Core) (l : Nat) (x : Line) : (k.setLine l x).outNext = k.outNext := rfl
@[simp] theorem Core.setGroup_outNext (k : Core) (g : Nat) (x : Group) : (k.setGroup g x).outNext = k.outNext := rfl
@[simp] theorem Core.updThread_errs (k : Core) (t : Nat) (g : Thread → Thread) : (k.updThread t g).errs = k.errs := rfl
@[simp] theorem Core.setLine_errs (k : Core) (l : Nat) (x : Line) : (k.setLine l x).errs = k.errs := rfl
@[simp] theorem Core.setGroup_errs (k : Core) (g : Nat) (x : Group) : (k.setGroup g x).errs = k.errs := rfl

/-! ### Thread: moving on, waiting -/

@[simp] theorem Thread.next_st (th : Thread) (b : Bool) : (th.next b).st = th.st := rfl
@[simp] theorem Thread.goto_st (th : Thread) (a : W64) : (th.goto a).st = th.st := rfl
@[simp] theorem Thread.wait_st (th : Thread) (w : Wait) : (th.wait w).st = th.st := rfl
@[simp] theorem Thread.next_exitGrp (th : Thread) (b : Bool) : (th.next b).exitGrp = th.exitGrp := rfl
@[simp] theorem Thread.goto_exitGrp (th : Thread) (a : W64) : (th.goto a).exitGrp = th.exitGrp := rfl
@[simp] theorem Thread.wait_exitGrp (th : Thread) (w : Wait) : (th.wait w).exitGrp = th.exitGrp := rfl
@[simp] theorem Thread.next_v (th : Thread) (b : Bool) : (th.next b).v = th.v := rfl
@[simp] theorem Thread.goto_v (th : Thread) (a : W64) : (th.goto a).v = th.v := rfl
@[simp] theorem Thread.wait_v (th : Thread) (w : Wait) : (th.wait w).v = th.v := rfl
@[simp] theorem Thread.next_tags (th : Thread) (b : Bool) : (th.next b).tags = th.tags := rfl
@[simp] theorem Thread.goto_tags (th : Thread) (a : W64) : (th.goto a).tags = th.tags := rfl
@[simp] theorem Thread.wait_tags (th : Thread) (w : Wait) : (th.wait w).tags = th.tags := rfl
@[simp] theorem Thread.next_p (th : Thread) (b : Bool) : (th.next b).p = th.p := rfl
@[simp] theorem Thread.goto_p (th : Thread) (a : W64) : (th.goto a).p = th.p := rfl
@[simp] theorem Thread.wait_p (th : Thread) (w : Wait) : (th.wait w).p = th.p := rfl
@[simp] theorem Thread.wait_pc (th : Thread) (w : Wait) : (th.wait w).pc = th.pc := rfl
@[simp] theorem Thread.wait_blk (th : Thread) (w : Wait) : (th.wait w).blk = th.blk := rfl
@[simp] theorem Thread.wait_vec (th : Thread) (w : Wait) : (th.wait w).vec = th.vec := rfl
@[simp] theorem Thread.next_hold0 (th : Thread) (b : Bool) : (th.next b).hold0 = th.hold0 := rfl
@[simp] theorem Thread.goto_hold0 (th : Thread) (a : W64) : (th.goto a).hold0 = th.hold0 := rfl
@[simp] theorem Thread.wait_hold0 (th : Thread) (w : Wait) : (th.wait w).hold0 = th.hold0 := rfl
@[simp] theorem Thread.next_hold1 (th : Thread) (b : Bool) : (th.next b).hold1 = th.hold1 := rfl
@[simp] theorem Thread.goto_hold1 (th : Thread) (a : W64) : (th.goto a).hold1 = th.hold1 := rfl
@[simp] theorem Thread.wait_hold1 (th : Thread) (w : Wait) : (th.wait w).hold1 = th.hold1 := rfl
@[simp] theorem Thread.next_hold2 (th : Thread) (b : Bool) : (th.next b).hold2 = th.hold2 := rfl
@[simp] theorem Thread.goto_hold2 (th : Thread) (a : W64) : (th.goto a).hold2 = th.hold2 := rfl
@[simp] theorem Thread.wait_hold2 (th : Thread) (w : Wait) : (th.wait w).hold2 = th.hold2 := rfl
@[simp] theorem Thread.next_hold3 (th : Thread) (b : Bool) : (th.next b).hold3 = th.hold3 := rfl
@[simp] theorem Thread.goto_hold3 (th : Thread) (a : W64) : (th.goto a).hold3 = th.hold3 := rfl
@[simp] theorem Thread.wait_hold3 (th : Thread) (w : Wait) : (th.wait w).hold3 = th.hold3 := rfl
@[simp] theorem Thread.wait_heldFor (th : Thread) (w : Wait) : (th.wait w).heldFor = th.heldFor := rfl
@[simp] theorem Thread.next_waitFor (th : Thread) (b : Bool) : (th.next b).waitFor = th.waitFor := rfl
@[simp] theorem Thread.goto_waitFor (th : Thread) (a : W64) : (th.goto a).waitFor = th.waitFor := rfl
@[simp] theorem Thread.wait_waitFor (th : Thread) (w : Wait) : (th.wait w).waitFor = th.waitFor := rfl
@[simp] theorem Thread.next_lk (th : Thread) (b : Bool) : (th.next b).lk = th.lk := rfl
@[simp] theorem Thread.goto_lk (th : Thread) (a : W64) : (th.goto a).lk = th.lk := rfl
@[simp] theorem Thread.wait_lk (th : Thread) (w : Wait) : (th.wait w).lk = th.lk := rfl
@[simp] theorem Thread.next_fpf (th : Thread) (b : Bool) : (th.next b).fpf = th.fpf := rfl
@[simp] theorem Thread.goto_fpf (th : Thread) (a : W64) : (th.goto a).fpf = th.fpf := rfl
@[simp] theorem Thread.wait_fpf (th : Thread) (w : Wait) : (th.wait w).fpf = th.fpf := rfl
@[simp] theorem Thread.next_status (th : Thread) (b : Bool) : (th.next b).status = th.status := rfl
@[simp] theorem Thread.goto_status (th : Thread) (a : W64) : (th.goto a).status = th.status := rfl
@[simp] theorem Thread.wait_status (th : Thread) (w : Wait) : (th.wait w).status = th.status := rfl
@[simp] theorem Thread.next_level (th : Thread) (b : Bool) : (th.next b).level = th.level := rfl
@[simp] theorem Thread.goto_level (th : Thread) (a : W64) : (th.goto a).level = th.level := rfl
@[simp] theorem Thread.wait_level (th : Thread) (w : Wait) : (th.wait w).level = th.level := rfl
@[simp] theorem Thread.next_tcause (th : Thread) (b : Bool) : (th.next b).tcause = th.tcause := rfl
@[simp] theorem Thread.goto_tcause (th : Thread) (a : W64) : (th.goto a).tcause = th.tcause := rfl
@[simp] theorem Thread.wait_tcause (th : Thread) (w : Wait) : (th.wait w).tcause = th.tcause := rfl
@[simp] theorem Thread.next_tpc (th : Thread) (b : Bool) : (th.next b).tpc = th.tpc := rfl
@[simp] theorem Thread.goto_tpc (th : Thread) (a : W64) : (th.goto a).tpc = th.tpc := rfl
@[simp] theorem Thread.wait_tpc (th : Thread) (w : Wait) : (th.wait w).tpc = th.tpc := rfl
@[simp] theorem Thread.next_tval (th : Thread) (b : Bool) : (th.next b).tval = th.tval := rfl
@[simp] theorem Thread.goto_tval (th : Thread) (a : W64) : (th.goto a).tval = th.tval := rfl
@[simp] theorem Thread.wait_tval (th : Thread) (w : Wait) : (th.wait w).tval = th.tval := rfl
@[simp] theorem Thread.next_tlev (th : Thread) (b : Bool) : (th.next b).tlev = th.tlev := rfl
@[simp] theorem Thread.goto_tlev (th : Thread) (a : W64) : (th.goto a).tlev = th.tlev := rfl
@[simp] theorem Thread.wait_tlev (th : Thread) (w : Wait) : (th.wait w).tlev = th.tlev := rfl
@[simp] theorem Thread.next_save (th : Thread) (b : Bool) : (th.next b).save = th.save := rfl
@[simp] theorem Thread.goto_save (th : Thread) (a : W64) : (th.goto a).save = th.save := rfl
@[simp] theorem Thread.wait_save (th : Thread) (w : Wait) : (th.wait w).save = th.save := rfl
@[simp] theorem Thread.next_sscr0 (th : Thread) (b : Bool) : (th.next b).sscr0 = th.sscr0 := rfl
@[simp] theorem Thread.goto_sscr0 (th : Thread) (a : W64) : (th.goto a).sscr0 = th.sscr0 := rfl
@[simp] theorem Thread.wait_sscr0 (th : Thread) (w : Wait) : (th.wait w).sscr0 = th.sscr0 := rfl
@[simp] theorem Thread.next_sscr0t (th : Thread) (b : Bool) : (th.next b).sscr0t = th.sscr0t := rfl
@[simp] theorem Thread.goto_sscr0t (th : Thread) (a : W64) : (th.goto a).sscr0t = th.sscr0t := rfl
@[simp] theorem Thread.wait_sscr0t (th : Thread) (w : Wait) : (th.wait w).sscr0t = th.sscr0t := rfl
@[simp] theorem Thread.next_sscr1 (th : Thread) (b : Bool) : (th.next b).sscr1 = th.sscr1 := rfl
@[simp] theorem Thread.goto_sscr1 (th : Thread) (a : W64) : (th.goto a).sscr1 = th.sscr1 := rfl
@[simp] theorem Thread.wait_sscr1 (th : Thread) (w : Wait) : (th.wait w).sscr1 = th.sscr1 := rfl
@[simp] theorem Thread.next_sscr1t (th : Thread) (b : Bool) : (th.next b).sscr1t = th.sscr1t := rfl
@[simp] theorem Thread.goto_sscr1t (th : Thread) (a : W64) : (th.goto a).sscr1t = th.sscr1t := rfl
@[simp] theorem Thread.wait_sscr1t (th : Thread) (w : Wait) : (th.wait w).sscr1t = th.sscr1t := rfl
@[simp] theorem Thread.next_sscr2 (th : Thread) (b : Bool) : (th.next b).sscr2 = th.sscr2 := rfl
@[simp] theorem Thread.goto_sscr2 (th : Thread) (a : W64) : (th.goto a).sscr2 = th.sscr2 := rfl
@[simp] theorem Thread.wait_sscr2 (th : Thread) (w : Wait) : (th.wait w).sscr2 = th.sscr2 := rfl
@[simp] theorem Thread.next_sscr2t (th : Thread) (b : Bool) : (th.next b).sscr2t = th.sscr2t := rfl
@[simp] theorem Thread.goto_sscr2t (th : Thread) (a : W64) : (th.goto a).sscr2t = th.sscr2t := rfl
@[simp] theorem Thread.wait_sscr2t (th : Thread) (w : Wait) : (th.wait w).sscr2t = th.sscr2t := rfl
@[simp] theorem Thread.next_tcval (th : Thread) (b : Bool) : (th.next b).tcval = th.tcval := rfl
@[simp] theorem Thread.goto_tcval (th : Thread) (a : W64) : (th.goto a).tcval = th.tcval := rfl
@[simp] theorem Thread.wait_tcval (th : Thread) (w : Wait) : (th.wait w).tcval = th.tcval := rfl
@[simp] theorem Thread.next_rgrant (th : Thread) (b : Bool) : (th.next b).rgrant = th.rgrant := rfl
@[simp] theorem Thread.goto_rgrant (th : Thread) (a : W64) : (th.goto a).rgrant = th.rgrant := rfl
@[simp] theorem Thread.wait_rgrant (th : Thread) (w : Wait) : (th.wait w).rgrant = th.rgrant := rfl
@[simp] theorem Thread.next_rcause (th : Thread) (b : Bool) : (th.next b).rcause = th.rcause := rfl
@[simp] theorem Thread.goto_rcause (th : Thread) (a : W64) : (th.goto a).rcause = th.rcause := rfl
@[simp] theorem Thread.wait_rcause (th : Thread) (w : Wait) : (th.wait w).rcause = th.rcause := rfl
@[simp] theorem Thread.next_grp (th : Thread) (b : Bool) : (th.next b).grp = th.grp := rfl
@[simp] theorem Thread.goto_grp (th : Thread) (a : W64) : (th.goto a).grp = th.grp := rfl
@[simp] theorem Thread.wait_grp (th : Thread) (w : Wait) : (th.wait w).grp = th.grp := rfl
@[simp] theorem Thread.next_arr0 (th : Thread) (b : Bool) : (th.next b).arr0 = th.arr0 := rfl
@[simp] theorem Thread.goto_arr0 (th : Thread) (a : W64) : (th.goto a).arr0 = th.arr0 := rfl
@[simp] theorem Thread.wait_arr0 (th : Thread) (w : Wait) : (th.wait w).arr0 = th.arr0 := rfl
@[simp] theorem Thread.next_arrC (th : Thread) (b : Bool) : (th.next b).arrC = th.arrC := rfl
@[simp] theorem Thread.goto_arrC (th : Thread) (a : W64) : (th.goto a).arrC = th.arrC := rfl
@[simp] theorem Thread.wait_arrC (th : Thread) (w : Wait) : (th.wait w).arrC = th.arrC := rfl
@[simp] theorem Thread.next_arrN (th : Thread) (b : Bool) : (th.next b).arrN = th.arrN := rfl
@[simp] theorem Thread.goto_arrN (th : Thread) (a : W64) : (th.goto a).arrN = th.arrN := rfl
@[simp] theorem Thread.wait_arrN (th : Thread) (w : Wait) : (th.wait w).arrN = th.arrN := rfl
@[simp] theorem Thread.wait_wrec (th : Thread) (w : Wait) : (th.wait w).wrec = th.wrec := rfl
@[simp] theorem Thread.next_collRes (th : Thread) (b : Bool) : (th.next b).collRes = th.collRes := rfl
@[simp] theorem Thread.goto_collRes (th : Thread) (a : W64) : (th.goto a).collRes = th.collRes := rfl
@[simp] theorem Thread.wait_collRes (th : Thread) (w : Wait) : (th.wait w).collRes = th.collRes := rfl
@[simp] theorem Thread.next_pend (th : Thread) (b : Bool) : (th.next b).pend = th.pend := rfl
@[simp] theorem Thread.goto_pend (th : Thread) (a : W64) : (th.goto a).pend = th.pend := rfl
@[simp] theorem Thread.wait_pend (th : Thread) (w : Wait) : (th.wait w).pend = th.pend := rfl
@[simp] theorem Thread.next_sub (th : Thread) (b : Bool) : (th.next b).sub = th.sub := rfl
@[simp] theorem Thread.goto_sub (th : Thread) (a : W64) : (th.goto a).sub = th.sub := rfl
@[simp] theorem Thread.wait_sub (th : Thread) (w : Wait) : (th.wait w).sub = th.sub := rfl
@[simp] theorem Thread.next_iter (th : Thread) (b : Bool) : (th.next b).iter = th.iter := rfl
@[simp] theorem Thread.goto_iter (th : Thread) (a : W64) : (th.goto a).iter = th.iter := rfl
@[simp] theorem Thread.wait_iter (th : Thread) (w : Wait) : (th.wait w).iter = th.iter := rfl
@[simp] theorem Thread.wait_relSet (th : Thread) (w : Wait) : (th.wait w).relSet = th.relSet := rfl
@[simp] theorem Thread.next_ntCmds (th : Thread) (b : Bool) : (th.next b).ntCmds = th.ntCmds := rfl
@[simp] theorem Thread.goto_ntCmds (th : Thread) (a : W64) : (th.goto a).ntCmds = th.ntCmds := rfl
@[simp] theorem Thread.wait_ntCmds (th : Thread) (w : Wait) : (th.wait w).ntCmds = th.ntCmds := rfl
@[simp] theorem Thread.next_acqLines (th : Thread) (b : Bool) : (th.next b).acqLines = th.acqLines := rfl
@[simp] theorem Thread.goto_acqLines (th : Thread) (a : W64) : (th.goto a).acqLines = th.acqLines := rfl
@[simp] theorem Thread.wait_acqLines (th : Thread) (w : Wait) : (th.wait w).acqLines = th.acqLines := rfl
@[simp] theorem Thread.next_order (th : Thread) (b : Bool) : (th.next b).order = th.order := rfl
@[simp] theorem Thread.goto_order (th : Thread) (a : W64) : (th.goto a).order = th.order := rfl
@[simp] theorem Thread.wait_order (th : Thread) (w : Wait) : (th.wait w).order = th.order := rfl
@[simp] theorem Thread.next_fenced (th : Thread) (b : Bool) : (th.next b).fenced = th.fenced := rfl
@[simp] theorem Thread.goto_fenced (th : Thread) (a : W64) : (th.goto a).fenced = th.fenced := rfl
@[simp] theorem Thread.wait_fenced (th : Thread) (w : Wait) : (th.wait w).fenced = th.fenced := rfl
@[simp] theorem Thread.next_acqAt (th : Thread) (b : Bool) : (th.next b).acqAt = th.acqAt := rfl
@[simp] theorem Thread.goto_acqAt (th : Thread) (a : W64) : (th.goto a).acqAt = th.acqAt := rfl
@[simp] theorem Thread.wait_acqAt (th : Thread) (w : Wait) : (th.wait w).acqAt = th.acqAt := rfl
@[simp] theorem Thread.next_seen (th : Thread) (b : Bool) : (th.next b).seen = th.seen := rfl
@[simp] theorem Thread.goto_seen (th : Thread) (a : W64) : (th.goto a).seen = th.seen := rfl
@[simp] theorem Thread.wait_seen (th : Thread) (w : Wait) : (th.wait w).seen = th.seen := rfl
@[simp] theorem Thread.wait_promo (th : Thread) (w : Wait) : (th.wait w).promo = th.promo := rfl
@[simp] theorem Thread.wait_acq (th : Thread) (w : Wait) : (th.wait w).acq = th.acq := rfl
@[simp] theorem Thread.wait_winOk (th : Thread) (w : Wait) : (th.wait w).winOk = th.winOk := rfl
@[simp] theorem Thread.wait_kept (th : Thread) (w : Wait) : (th.wait w).kept = th.kept := rfl
@[simp] theorem Thread.wait_batch (th : Thread) (w : Wait) : (th.wait w).batch = th.batch := rfl
@[simp] theorem Thread.next_preempt (th : Thread) (b : Bool) : (th.next b).preempt = th.preempt := rfl
@[simp] theorem Thread.goto_preempt (th : Thread) (a : W64) : (th.goto a).preempt = th.preempt := rfl
@[simp] theorem Thread.wait_preempt (th : Thread) (w : Wait) : (th.wait w).preempt = th.preempt := rfl
@[simp] theorem Thread.next_wdog (th : Thread) (b : Bool) : (th.next b).wdog = th.wdog := rfl
@[simp] theorem Thread.goto_wdog (th : Thread) (a : W64) : (th.goto a).wdog = th.wdog := rfl
@[simp] theorem Thread.wait_wdog (th : Thread) (w : Wait) : (th.wait w).wdog = th.wdog := rfl
@[simp] theorem Thread.next_pc (th : Thread) (b : Bool) : (th.next b).pc = th.pc + 8 := rfl
@[simp] theorem Thread.next_block (th : Thread) (b : Bool) : (th.next b).block = none := rfl
@[simp] theorem Thread.goto_pc (th : Thread) (a : W64) : (th.goto a).pc = a := rfl
@[simp] theorem Thread.wait_block (th : Thread) (w : Wait) : (th.wait w).block = some w := rfl

/-! ### Reading back an update -/

@[simp] theorem State.core_updCore (s : State) (c : Nat) (g : Core → Core) : (s.updCore c g).core c = g (s.core c) := by
  simp [State.core, State.updCore]
theorem State.core_updCore_other (s : State) (c d : Nat) (g : Core → Core) (h : d ≠ c) : (s.updCore c g).core d = s.core d := by
  simp [State.core, State.updCore, get_put_other _ _ _ _ _ h]
@[simp] theorem State.die_updDie (s : State) (c : Nat) (g : Die → Die) : (s.updDie c g).die c = g (s.die c) := by
  simp [State.die, State.updDie]
@[simp] theorem State.slot_updSlot (s : State) (c : Nat) (g : Slot → Slot) : (s.updSlot c g).slot c = g (s.slot c) := by
  simp [State.slot, State.updSlot]
@[simp] theorem Core.thread_updThread (k : Core) (t : Nat) (g : Thread → Thread) : (k.updThread t g).thread t = g (k.thread t) := by
  simp [Core.thread, Core.updThread]
theorem Core.thread_updThread_other (k : Core) (t u : Nat) (g : Thread → Thread) (h : u ≠ t) :
    (k.updThread t g).thread u = k.thread u := by
  simp [Core.thread, Core.updThread, get_put_other _ _ _ _ _ h]
@[simp] theorem Core.updThread_updThread (k : Core) (t : Nat) (f g : Thread → Thread) :
    (k.updThread t f).updThread t g = k.updThread t (fun th => g (f th)) := by
  simp [Core.updThread, Core.thread]
@[simp] theorem State.updCore_updCore (s : State) (c : Nat) (f g : Core → Core) :
    (s.updCore c f).updCore c g = s.updCore c (fun k => g (f k)) := by
  simp [State.updCore, State.core]
@[simp] theorem State.updThread_updThread (s : State) (c t : Nat) (f g : Thread → Thread) :
    (s.updThread c t f).updThread c t g = s.updThread c t (fun th => g (f th)) := by
  simp [State.updThread]
@[simp] theorem State.core_updThread (s : State) (c t : Nat) (g : Thread → Thread) :
    (s.updThread c t g).core c = (s.core c).updThread t g := by
  simp [State.updThread]


/-! ### Registers -/

@[simp] theorem Thread.setReg_zero (th : Thread) (v : W32) (t : Tag) : th.setReg 0 v t = th := by simp [Thread.setReg]
theorem Thread.reg_setReg (th : Thread) (r q : Nat) (v : W32) (t : Tag) (h : r ≠ 0) :
    (th.setReg r v t).reg q = if q = r then v else th.reg q := by
  by_cases hq : q = 0
  · subst hq
    simp [Thread.reg, Ne.symm h]
  · simp only [Thread.setReg, if_neg h, Thread.reg, if_neg hq]
    rw [get_set]
theorem Thread.tag_setReg (th : Thread) (r q : Nat) (v : W32) (t : Tag) (h : r ≠ 0) :
    (th.setReg r v t).tag q = if q = r then t else th.tag q := by
  by_cases hq : q = 0
  · subst hq
    simp [Thread.tag, Ne.symm h]
  · simp only [Thread.setReg, if_neg h, Thread.tag, if_neg hq]
    rw [get_set]
@[simp] theorem Thread.reg_zero (th : Thread) : th.reg 0 = 0 := rfl
@[simp] theorem Thread.tag_zero (th : Thread) : th.tag 0 = 2 := rfl
@[simp] theorem Thread.pred_zero (th : Thread) : th.pred 0 = true := rfl


end Sys2Proof.Machine
end

