-- ==== Sys2Proof/Laws/Issue.lean ====
section
/-! SUPPORT. A thread that issues alone with its operands at hand makes one execution, and nothing else happens (R177 to R179, R185). -/

set_option Elab.async false

namespace Sys2Proof.Machine
open Sys2Proof Sys2Proof.Laws

theorem regx_none (o : OpSpec) (k : Core) (t : Nat) (h : o.named k t = true) : o.regx k t = none := by
  simp only [OpSpec.named, Bool.and_eq_true, List.all_eq_true] at h
  obtain ⟨h₁, h₂⟩ := h
  unfold OpSpec.regx
  dsimp only
  split
  · rename_i e he
    obtain ⟨x, hx, hv⟩ := List.exists_of_findSome?_eq_some he
    obtain ⟨⟨p, -⟩, q⟩ := h₁ x hx
    have p' : x.regs.all (k.canRead t) = true := List.all_eq_true.2 p
    rw [p'] at hv
    cases hj : ixReg x.desc with
    | none => simp [hj] at hv
    | some j =>
      rw [hj] at q
      simp [hj, q] at hv
  · rw [List.findSome?_eq_none_iff]
    intro x hx
    have := h₂ x hx
    simp only [Bool.or_eq_true, beq_iff_eq] at this
    rw [if_pos this]

theorem routeTrap_none (o : OpSpec) (k : Core) (t : Nat) (h : o.named k t = true) : o.routeTrap k = none := by
  simp only [OpSpec.named, Bool.and_eq_true, List.all_eq_true] at h
  rw [OpSpec.routeTrap, List.findSome?_eq_none_iff]
  intro x hx
  have := ((h.1 x hx).1).2
  simp only [Bool.not_eq_true'] at this
  simp [this]

theorem ready1_front (s : State) (o : OpSpec) (t : Nat) (w : W64) (h : s.ready1 o t = true) : o.front s.curCore w t = .go := by
  simp only [State.ready1, Bool.and_eq_true] at h
  obtain ⟨⟨⟨⟨⟨⟨⟨⟨⟨⟨h₀, h₁⟩, h₂⟩, h₃⟩, h₄⟩, h₅⟩, h₆⟩, h₇⟩, h₈⟩, h₉⟩, h₁₀⟩ := h
  have hk : (s.curThread t).kept = none := by simpa using h₀
  have hp : o.avail.privileged (s.curThread t).level = false := by
    revert h₁
    cases o.avail <;> cases (s.curThread t).level <;> simp [Avail.admits, Avail.privileged]
  have ha : s.curCore.active o.h t = true := h₃
  have hs : (o.noSub && (s.curThread t).sub.isSome) = false := by
    revert h₄
    cases o.noSub <;> cases (s.curThread t).sub <;> simp
  have h₆' : o.keys s.curCore t = [] := by simpa using h₆
  have h₇' : o.stallsPrincipal s.curCore t = false := by simpa using h₇
  have h₈' : o.copyErr s.curCore t = none := by simpa using h₈
  unfold OpSpec.front
  simp only [State.curThread] at hp hs hk
  simp [hk, hp, ha, hs, regx_none o _ t h₅, routeTrap_none o _ t h₅, h₆', h₇', h₈']

theorem ready1_refused (s : State) (o : OpSpec) (t : Nat) (h : s.ready1 o t = true) : o.refused s = false := by
  simp only [State.ready1, Bool.and_eq_true] at h
  obtain ⟨⟨⟨⟨⟨⟨⟨⟨⟨⟨-, h₁⟩, h₂⟩, -⟩, -⟩, -⟩, -⟩, -⟩, -⟩, -⟩, -⟩ := h
  revert h₁ h₂
  unfold OpSpec.refused OpSpec.refusedAt Avail.admits
  cases o.avail <;> cases isCtl s.cur.core <;> cases o.endsBlock <;> cases s.cur.last <;> simp +decide

theorem ready1_opsOf (s : State) (o : OpSpec) (t : Nat) (h : s.ready1 o t = true) :
    o.opsOf s.curCore t = o.vals s.curCore t := by
  simp only [State.ready1, Bool.and_eq_true, Option.isNone_iff_eq_none] at h
  obtain ⟨⟨⟨⟨⟨⟨⟨⟨⟨⟨h₀, -⟩, -⟩, -⟩, -⟩, -⟩, -⟩, -⟩, -⟩, -⟩, -⟩ := h
  simp only [State.curThread] at h₀
  simp [OpSpec.opsOf, OpSpec.vals, h₀]

/-- A lone issue: one execution by its thread, with the operands of that thread. -/
theorem gather_lone (s : State) (o : OpSpec) (t : Nat) (h : s.lone o t = true) :
    gather o s = { execs := [{ lead := t, ops := o.vals s.curCore t, targets := [t] }] } := by
  simp only [State.lone, Bool.and_eq_true, beq_iff_eq] at h
  obtain ⟨hset, h⟩ := h
  have hr := ready1_refused s o t h
  have hf := ready1_front s o t s.cur.word h
  have ho := ready1_opsOf s o t h
  simp only [State.ready1, Bool.and_eq_true] at h
  obtain ⟨⟨-, ht⟩, hw⟩ := h
  have ht' : fmtTrap s.curCore.tagchk o.srcs (o.vals s.curCore t) = none := by simpa using ht
  unfold gather
  simp only [hr, hset, Bool.false_eq_true, if_false, List.map_cons, List.map_nil, State.curCore] at hf ho ⊢
  simp only [hf, List.filter_cons, List.filter_nil, List.filterMap_cons, List.filterMap_nil]
  simp only [State.curCore] at ht'
  have hl : lonePart (s.core s.cur.core) o t = { execs := [{ lead := t, ops := o.vals s.curCore t, targets := [t] }] } := by
    simp [lonePart, ht', ho]
  cases hu : o.h.u
  · simp +decide [hl, Gathered.append]
  · have hseg : uniSegment (s.core s.cur.core) o [t] = { execs := [{ lead := t, ops := o.vals s.curCore t, targets := [t] }] } := by
      have : firstDiff (s.core s.cur.core).segW o.srcs (o.vals (s.core s.cur.core) t) [] = none := by
        simp [firstDiff]
      simp [uniSegment, this, ht', ho]
    have hempty : uniSegment (s.core s.cur.core) o [] = {} := rfl
    have hfold : ∀ (n : Nat) (p : Nat → Bool) (g : Gathered),
        (List.range n).foldl (fun g i => g.append (uniSegment (s.core s.cur.core) o ([t].filter (fun _ => p i)))) g =
          g.append ⟨[], [], [], [], ((List.range n).filter p).map (fun _ => { lead := t, ops := o.vals s.curCore t, targets := [t] })⟩ := by
      intro n p
      induction n with
      | zero => intro g; simp [Gathered.append]
      | succ n ih =>
        intro g
        rw [List.range_succ, List.foldl_append, ih]
        cases hp : p n <;>
          simp [hp, hseg, hempty, Gathered.append, List.filter_append]
    have hone : (List.range (64 / (s.core s.cur.core).segW)).filter (fun i => laneOf t / (s.core s.cur.core).segW == i) =
        [laneOf t / (s.core s.cur.core).segW] := by
      have hlane : laneOf t < 64 := Nat.mod_lt _ (by decide)
      have hlt : laneOf t / (s.core s.cur.core).segW < 64 / (s.core s.cur.core).segW := by
        simp only [State.curCore, List.contains_eq_mem, List.mem_cons, List.not_mem_nil, or_false, decide_eq_true_eq] at hw
        rcases hw with hw | hw | hw | hw | hw | hw | hw <;> rw [hw] <;> omega
      generalize laneOf t / (s.core s.cur.core).segW = a at hlt
      generalize 64 / (s.core s.cur.core).segW = n at hlt
      induction n with
      | zero => omega
      | succ n ih =>
        rw [List.range_succ, List.filter_append]
        by_cases ha : a = n
        · subst ha
          have : (List.range a).filter (fun i => a == i) = [] := by
            rw [List.filter_eq_nil_iff]
            intro x hx
            have := List.mem_range.1 hx
            simp
            omega
          simp [this]
        · rw [ih (by omega)]
          simp [ha]
    have := hfold (64 / (s.core s.cur.core).segW) (fun i => laneOf t / (s.core s.cur.core).segW == i) {}
    rw [hone] at this
    refine Eq.trans ?_ (this.trans (by simp [Gathered.append]))
    congr 1

@[simp] theorem noteIssue_threads (k : Core) (p : Nat) (ts : List Nat) : (k.noteIssue p ts).threads = k.threads := by
  unfold Core.noteIssue
  dsimp only
  split <;> rfl

@[simp] theorem noteIssue_thread (k : Core) (p : Nat) (ts : List Nat) (u : Nat) : (k.noteIssue p ts).thread u = k.thread u := by
  simp [Core.thread]

@[simp] theorem noted_cur (s : State) (ts : List Nat) : (s.noted ts).cur = s.cur := rfl
@[simp] theorem noted_mem (s : State) (ts : List Nat) : (s.noted ts).mem = s.mem := rfl
@[simp] theorem noted_curThread (s : State) (ts : List Nat) (u : Nat) : ((s.noted ts).core s.cur.core).thread u = s.curThread u := by
  simp [State.noted]

/-- Settling a lone issue notes it for its segment and commits the thread, and does nothing else. -/
theorem settle_lone (s : State) (o : OpSpec) (t : Nat) (h : s.lone o t = true) :
    s.settle o (gather o s) = (s.noted [t]).updThread s.cur.core t (Thread.commit s.cur) := by
  rw [gather_lone s o t h]
  simp only [State.lone, Bool.and_eq_true, beq_iff_eq] at h
  obtain ⟨hset, -⟩ := h
  unfold State.settle
  cases ho : o.keepIdle <;> simp [hset, State.noted]

/-- The one execution of a lone issue acts on the state in which its thread has issued. -/
theorem runExecs_lone (s : State) (o : OpSpec) (t : Nat) (f : State → Exec → State) (h : s.lone o t = true) :
    runExecs o f s = f ((s.noted [t]).updThread s.cur.core t (Thread.commit s.cur)) { lead := t, ops := o.vals s.curCore t, targets := [t] } := by
  unfold runExecs
  dsimp only
  rw [settle_lone s o t h, gather_lone s o t h]
  rfl

theorem moves_eq (s : State) (t : Nat) (f : Thread → Thread) :
    ((s.noted [t]).updThread s.cur.core t (Thread.commit s.cur)).updThread s.cur.core t (fun th => (f th).next s.cur.last) = s.moves t f := by
  simp [State.moves]

/-- An instruction that computes registers, issued alone: its thread takes the result and moves on. -/
theorem alu_lone (s : State) (o : OpSpec) (t : Nat) (comp : Thread → Exec → Res) (h : s.lone o t = true) :
    alu o comp s = .next (s.gives t (comp ((s.curThread t).commit s.cur) { lead := t, ops := o.vals s.curCore t, targets := [t] })) := by
  unfold alu
  rw [runExecs_lone s o t _ h]
  simp [State.finishAll, State.finish, State.gives, ← moves_eq]

end Sys2Proof.Machine
end

