-- ==== Sys2Proof/Laws/Memory.lean ====
section
/-! SUPPORT. What the operations on device and host memory do: reads after writes, what a write leaves alone, and that each keeps the
canonical form of the three stores. -/

set_option Elab.async false

namespace Sys2Proof.Laws
open Sys2Proof Sys2Proof.Machine

/-! ### Numbers as bytes (R8) -/

@[simp] theorem leBytes_length (n v : Nat) : (leBytes n v).length = n := by
  induction n generalizing v with
  | zero => rfl
  | succ n ih => simp [leBytes, ih]

/-- The value of the bytes of a number. -/
theorem leNat_leBytes (n v : Nat) : leNat (leBytes n v) = v % 256 ^ n := by
  induction n generalizing v with
  | zero => simp [leBytes, leNat, Nat.mod_one]
  | succ n ih =>
    have h : v % 256 ^ (n + 1) = v % 256 + 256 * (v / 256 % 256 ^ n) := by rw [Nat.pow_add_one', Nat.mod_mul]
    rw [leBytes, leNat, ih, BitVec.toNat_ofNat, h]

/-! ### One write of device memory -/

@[simp] theorem devWrite_cores (s : State) (a : Nat) (bs : List Byte) : (s.devWrite a bs).cores = s.cores := rfl
@[simp] theorem devWrite_dies (s : State) (a : Nat) (bs : List Byte) : (s.devWrite a bs).dies = s.dies := rfl
@[simp] theorem devWrite_slots (s : State) (a : Nat) (bs : List Byte) : (s.devWrite a bs).slots = s.slots := rfl
@[simp] theorem devWrite_host (s : State) (a : Nat) (bs : List Byte) : (s.devWrite a bs).host = s.host := rfl
@[simp] theorem devWrite_remote (s : State) (a : Nat) (bs : List Byte) : (s.devWrite a bs).remote = s.remote := rfl
@[simp] theorem devPut_cores (s : State) (a n v : Nat) : (s.devPut a n v).cores = s.cores := rfl
@[simp] theorem devPut_host (s : State) (a n v : Nat) : (s.devPut a n v).host = s.host := rfl
@[simp] theorem devPut_remote (s : State) (a n v : Nat) : (s.devPut a n v).remote = s.remote := rfl

@[simp] theorem devRead_devWrite (s : State) (a : Nat) (bs : List Byte) : (s.devWrite a bs).devRead a bs.length = bs :=
  getRange_setRange _ _ _ _

/-- Reading a number back from where it was written. -/
theorem devNat_devPut (s : State) (a n v : Nat) : (s.devPut a n v).devNat a n = v % 256 ^ n := by
  have h := devRead_devWrite s a (leBytes n v)
  rw [leBytes_length] at h
  rw [State.devNat, State.devPut, h, leNat_leBytes]

/-- A byte outside the bytes written reads as before. -/
theorem devWrite_byte (s : State) (a b : Nat) (bs : List Byte) (h : b < a ∨ a + bs.length ≤ b) :
    Map.get Config.blank (s.devWrite a bs).mem b = Map.get Config.blank s.mem b :=
  get_setRange_out _ _ _ _ _ h

theorem getRange_congr {α : Type} (d : α) (m m' : Map α) (i n : Nat) (h : ∀ j, i ≤ j → j < i + n → Map.get d m' j = Map.get d m j) :
    Map.getRange d m' i n = Map.getRange d m i n := by
  induction n generalizing i with
  | zero => rfl
  | succ n ih =>
    rw [Map.getRange, Map.getRange, h i (by omega) (by omega), ih _ (fun j a b => h j (by omega) (by omega))]

/-- Bytes apart from the bytes written read as before. -/
theorem devRead_devWrite_apart (s : State) (a b n : Nat) (bs : List Byte) (h : b + n ≤ a ∨ a + bs.length ≤ b) :
    (s.devWrite a bs).devRead b n = s.devRead b n :=
  getRange_congr _ _ _ _ _ (fun j h₁ h₂ => devWrite_byte s a j bs (by omega))

theorem devNat_devPut_apart (s : State) (a b n k v : Nat) (h : b + n ≤ a ∨ a + k ≤ b) :
    (s.devPut a k v).devNat b n = s.devNat b n := by
  rw [State.devNat, State.devPut, devRead_devWrite_apart _ _ _ _ _ (by simpa using h), State.devNat]

/-- Reading a place of device or host memory back after a write there. -/
@[simp] theorem readLoc_writeLoc (s : State) (l : Loc) (bs : List Byte) : (s.writeLoc l bs).readLoc l bs.length = bs := by
  obtain ⟨_ | _, a⟩ := l
  · exact devRead_devWrite s a bs
  · exact getRange_setRange _ _ _ _

@[simp] theorem writeLoc_cores (s : State) (l : Loc) (bs : List Byte) : (s.writeLoc l bs).cores = s.cores := by
  unfold State.writeLoc; split <;> rfl
@[simp] theorem writeLoc_remote (s : State) (l : Loc) (bs : List Byte) : (s.writeLoc l bs).remote = s.remote := by
  unfold State.writeLoc; split <;> rfl

/-! ### The canonical form -/

theorem reset_wf : Map.wf Config.blank State.reset.mem = true ∧ Map.wf Config.blank State.reset.host = true ∧
    Map.wf Config.blank State.reset.remote = true := ⟨rfl, rfl, rfl⟩

theorem devWrite_wf (s : State) (a : Nat) (bs : List Byte) (h : Map.wf Config.blank s.mem = true) :
    Map.wf Config.blank (s.devWrite a bs).mem = true := wf_setRange _ _ _ _ h

theorem devPut_wf (s : State) (a n v : Nat) (h : Map.wf Config.blank s.mem = true) :
    Map.wf Config.blank (s.devPut a n v).mem = true := devWrite_wf s a _ h

theorem writeLoc_wf (s : State) (l : Loc) (bs : List Byte) (h : Map.wf Config.blank s.mem = true ∧ Map.wf Config.blank s.host = true) :
    Map.wf Config.blank (s.writeLoc l bs).mem = true ∧ Map.wf Config.blank (s.writeLoc l bs).host = true := by
  unfold State.writeLoc
  split
  · exact ⟨h.1, wf_setRange _ _ _ _ h.2⟩
  · exact ⟨devWrite_wf s _ _ h.1, h.2⟩

/-- Setting D in a leaf entry keeps the form (R388). -/
theorem markD_wf (s : State) (x : Xlat) (h : Map.wf Config.blank s.mem = true) :
    Map.wf Config.blank (s.markD x).mem = true := by
  unfold State.markD
  split
  · exact h
  · exact devPut_wf _ _ _ _ h

@[simp] theorem markD_host (s : State) (x : Xlat) : (s.markD x).host = s.host := by
  unfold State.markD
  split <;> simp
@[simp] theorem markD_remote (s : State) (x : Xlat) : (s.markD x).remote = s.remote := by
  unfold State.markD
  split <;> simp

/-- Setting how far a translation has come touches no memory. -/
theorem setXs_memory (s : State) (u : User) (x : XSt) :
    (s.setXs u x).mem = s.mem ∧ (s.setXs u x).host = s.host ∧ (s.setXs u x).remote = s.remote := by
  unfold State.setXs
  split <;> simp

/-- Asking for a page touches no memory. -/
theorem askPage_memory (s : State) (part : Option Nat) (pasid va acc : Nat) (bs : List (Nat × Byte)) :
    (s.askPage part pasid va acc bs).mem = s.mem ∧ (s.askPage part pasid va acc bs).host = s.host ∧
      (s.askPage part pasid va acc bs).remote = s.remote := by
  unfold State.askPage
  dsimp only
  split
  · exact ⟨rfl, rfl, rfl⟩
  · unfold State.startWalk
    dsimp only
    split
    · simpa using setXs_memory _ _ _
    · split <;> simpa using setXs_memory _ _ _

/-- A byte written at a device address keeps the canonical form, and leaves the peers' memory. -/
theorem put0Byte_wf (s : State) (va : Nat) (b : Byte) (h : Map.wf Config.blank s.mem = true ∧ Map.wf Config.blank s.host = true) :
    Map.wf Config.blank (s.put0Byte va b).mem = true ∧ Map.wf Config.blank (s.put0Byte va b).host = true := by
  have ask := askPage_memory s none 0 va 1 [(va, b)]
  unfold State.put0Byte
  split
  · rwa [ask.1, ask.2.1]
  · split
    · exact writeLoc_wf _ _ [b] ⟨markD_wf s _ h.1, by simpa using h.2⟩
    · rwa [ask.1, ask.2.1]
    · exact h
@[simp] theorem put0Byte_remote (s : State) (va : Nat) (b : Byte) : (s.put0Byte va b).remote = s.remote := by
  have ask := (askPage_memory s none 0 va 1 [(va, b)]).2.2
  unfold State.put0Byte
  split
  · exact ask
  · split <;> simp [ask]

theorem write0_wf (s : State) (va : Nat) (bs : List Byte)
    (h : Map.wf Config.blank s.mem = true ∧ Map.wf Config.blank s.host = true) :
    Map.wf Config.blank (s.write0 va bs).mem = true ∧ Map.wf Config.blank (s.write0 va bs).host = true := by
  induction bs generalizing s va with
  | nil => exact h
  | cons b bs ih => exact ih _ _ (put0Byte_wf s va b h)

@[simp] theorem write0_remote (s : State) (va : Nat) (bs : List Byte) : (s.write0 va bs).remote = s.remote := by
  induction bs generalizing s va with
  | nil => rfl
  | cons b bs ih => simp [State.write0, ih]

theorem copyPage_wf (s : State) (src dst size : Nat) (h : Map.wf Config.blank s.mem = true) :
    Map.wf Config.blank (s.copyPage src dst size).mem = true := by
  unfold State.copyPage
  dsimp only
  generalize s.mem.filter (fun e => decide (src ≤ e.1 ∧ e.1 < src + size)) = moved
  have h' := wf_filter Config.blank (fun e => !decide (dst ≤ e.1 ∧ e.1 < dst + size)) s.mem h
  generalize s.mem.filter (fun e => !decide (dst ≤ e.1 ∧ e.1 < dst + size)) = rest at h' ⊢
  induction moved generalizing rest with
  | nil => exact h'
  | cons e moved ih => exact ih _ (wf_set _ _ _ _ h')

/-- Counting a write in its leaf entry keeps the form (R395). -/
theorem countWrite_wf (s : State) (x : Xlat) (h : Map.wf Config.blank s.mem = true) :
    Map.wf Config.blank (s.countWrite x).mem = true := by
  unfold State.countWrite
  split
  · exact h
  · dsimp only
    split <;> exact devPut_wf _ _ _ _ h

/-! ### Operations that write no memory -/

@[simp] theorem raiseEvt_mem (s : State) (cc : Nat) (e : BitVec 6) : (s.raiseEvt cc e).mem = s.mem := rfl
@[simp] theorem raiseEvt_host (s : State) (cc : Nat) (e : BitVec 6) : (s.raiseEvt cc e).host = s.host := rfl
@[simp] theorem raiseEvt_remote (s : State) (cc : Nat) (e : BitVec 6) : (s.raiseEvt cc e).remote = s.remote := rfl
@[simp] theorem finish_mem (s : State) (t : Nat) (r : Res) : (s.finish t r).mem = s.mem := rfl
@[simp] theorem finish_host (s : State) (t : Nat) (r : Res) : (s.finish t r).host = s.host := rfl
@[simp] theorem finish_remote (s : State) (t : Nat) (r : Res) : (s.finish t r).remote = s.remote := rfl

@[simp] theorem irq_mem (s : State) (f v : Nat) : (s.irq f v).mem = s.mem := by
  unfold State.irq; dsimp only; split
  · rfl
  · split <;> rfl
@[simp] theorem irq_host (s : State) (f v : Nat) : (s.irq f v).host = s.host := by
  unfold State.irq; dsimp only; split
  · rfl
  · split <;> rfl
@[simp] theorem irq_remote (s : State) (f v : Nat) : (s.irq f v).remote = s.remote := by
  unfold State.irq; dsimp only; split
  · rfl
  · split <;> rfl
@[simp] theorem irq_cores (s : State) (f v : Nat) : (s.irq f v).cores = s.cores := by
  unfold State.irq; dsimp only; split
  · rfl
  · split <;> rfl

/-- Every target that takes a result keeps the memories. -/
theorem finishAll_mem (s : State) (e : Exec) (r : Res) :
    (s.finishAll e r).mem = s.mem ∧ (s.finishAll e r).host = s.host ∧ (s.finishAll e r).remote = s.remote := by
  unfold State.finishAll
  generalize e.targets = ts
  induction ts generalizing s with
  | nil => exact ⟨rfl, rfl, rfl⟩
  | cons t ts ih => exact ih (s.finish t r)

/-! ### Traps (R334 to R338) -/

theorem reportTrap_mem (s : State) (c t : Nat) (z : Cause) (a v : W64) :
    (s.reportTrap c t z a v).mem = s.mem ∧ (s.reportTrap c t z a v).host = s.host ∧ (s.reportTrap c t z a v).remote = s.remote := by
  unfold State.reportTrap
  split
  · exact ⟨rfl, rfl, rfl⟩
  · dsimp only
    split <;> exact ⟨rfl, rfl, rfl⟩

theorem setReady_mem (s : State) (b : Bool) :
    (s.setReady b).mem = s.mem ∧ (s.setReady b).host = s.host ∧ (s.setReady b).remote = s.remote := by
  unfold State.setReady
  split
  · exact ⟨rfl, rfl, rfl⟩
  · simp

/-- A trap writes no memory, whichever way it goes. -/
theorem trap_mem (s : State) (c t : Nat) (z : Cause) (a v : W64) :
    (s.trap c t z a v).mem = s.mem ∧ (s.trap c t z a v).host = s.host ∧ (s.trap c t z a v).remote = s.remote := by
  unfold State.trap
  dsimp only
  split
  · unfold State.haltCtl
    split
    · unfold State.warmStart
      dsimp only
      exact setReady_mem (s.updCore c fun k => k.dropSem t) false
    · exact ⟨rfl, rfl, rfl⟩
  · split
    · exact ⟨rfl, rfl, rfl⟩
    · split
      · exact reportTrap_mem _ _ _ _ _ _
      · exact ⟨rfl, rfl, rfl⟩

theorem reportTrap_threads (s : State) (c t d : Nat) (z : Cause) (a v : W64) :
    ((s.reportTrap c t z a v).core d).threads = (s.core d).threads := by
  unfold State.reportTrap
  split
  · rfl
  · dsimp only
    split
    · simp only [State.core, State.updSlot_cores, State.updCore, get_put]
      split
      · subst d
        rfl
      · rfl
    · rfl

/-- A thread of a compute core that is no subordinate enters its trap: the saved registers, SL and the vector; the other threads of its
core, and the other cores, keep their threads. -/
theorem trap_threads (s : State) (c t : Nat) (z : Cause) (a v : W64) (hc : isCtl c = false)
    (hs : (((s.core c).dropSem t).thread t).sub = none) :
    ((s.trap c t z a v).core c).threads =
      (((s.core c).dropSem t).updThread t (fun th => th.enterTrap z a v (((s.core c).dropSem t).vector th z))).threads ∧
    ∀ d, d ≠ c → ((s.trap c t z a v).core d).threads = (s.core d).threads := by
  have hk : (s.updCore c (fun k => k.dropSem t)).core c = (s.core c).dropSem t := by simp [State.core, State.updCore]
  have ho (d : Nat) (h : d ≠ c) (f : Core → Core) (s : State) : (s.updCore c f).core d = s.core d := by
    simp [State.core, State.updCore, get_put, h]
  unfold State.trap
  simp only [hc, hk, hs, Bool.false_eq_true, if_false]
  split
  · refine ⟨?_, fun d h => ?_⟩
    · rw [reportTrap_threads]
      simp [State.updThread, State.core, State.updCore, Core.updThread, Core.thread]
    · rw [reportTrap_threads, State.updThread, ho d h, ho d h]
  · refine ⟨?_, fun d h => ?_⟩
    · simp [State.updThread, State.core, State.updCore, Core.updThread, Core.thread]
    · rw [State.updThread, ho d h, ho d h]

end Sys2Proof.Laws
end

