-- ==== Sys2Proof/Laws/PerInstr.lean ====
section
/-! SUPPORT. One lemma per instruction of a family of statements about every instruction: Fields says that the opcode and the fields of an
instruction come back from its word. -/

set_option Elab.async false

namespace Sys2Proof.Laws.Fields
open Sys2Proof Sys2Proof.Laws

/-- The opcode of a legal instruction's word names it, and the fields of the word are its fields. -/
def Statement (i : Instr) : Prop := ∀ w, legal i = true → encode i = some w → ofOp (opOf w) w = some i

/-- W form. -/
theorem ofW (c : WForm → Instr) (op : BitVec 8) (f : WForm) (e : encode (c f) = some (putW op f))
    (d : ∀ w, ofOp op.toNat w = some (c (getW w))) : Statement (c f) := by
  intro w _ h
  obtain rfl : putW op f = w := Option.some.inj (e.symm.trans h)
  rw [opOf_putW, d, getW_putW]

/-- I form. -/
theorem ofI (c : IForm → Instr) (op : BitVec 8) (f : IForm) (e : encode (c f) = some (putI op f))
    (d : ∀ w, ofOp op.toNat w = some (c (getI w))) : Statement (c f) := by
  intro w _ h
  obtain rfl : putI op f = w := Option.some.inj (e.symm.trans h)
  rw [opOf_putI, d, getI_putI]

/-- M form. -/
theorem ofM (c : MForm → Instr) (op : BitVec 8) (f : MForm) (e : encode (c f) = some (putM op f))
    (d : ∀ w, ofOp op.toNat w = some (c (getM w))) : Statement (c f) := by
  intro w _ h
  obtain rfl : putM op f = w := Option.some.inj (e.symm.trans h)
  rw [opOf_putM, d, getM_putM]

/-- E form. -/
theorem ofE (c : EForm → Instr) (op : BitVec 8) (f : EForm) (e : encode (c f) = some (putE op f))
    (d : ∀ w, ofOp op.toNat w = some (c (getE w))) : Statement (c f) := by
  intro w _ h
  obtain rfl : putE op f = w := Option.some.inj (e.symm.trans h)
  rw [opOf_putE, d, getE_putE]

/-- S form. -/
theorem ofS (c : SForm → Instr) (op : BitVec 8) (f : SForm) (e : encode (c f) = some (putS op f))
    (d : ∀ w, ofOp op.toNat w = some (c (getS w))) : Statement (c f) := by
  intro w _ h
  obtain rfl : putS op f = w := Option.some.inj (e.symm.trans h)
  rw [opOf_putS, d, getS_putS]

/-- V form. -/
theorem ofV (c : VForm → Instr) (op : BitVec 8) (f : VForm) (e : encode (c f) = some (putV op f))
    (d : ∀ w, ofOp op.toNat w = lastBit w (c (getV w))) : Statement (c f) := by
  intro w _ h
  obtain rfl : putV op f = w := Option.some.inj (e.symm.trans h)
  rw [opOf_putV, d, getV_putV, lastBit, bit0_putV]
  rfl

/-- C form. -/
theorem ofC (c : CForm → Instr) (op : BitVec 8) (f : CForm) (e : encode (c f) = some (putC op f))
    (d : ∀ w, ofOp op.toNat w = low12 w (c (getC w))) : Statement (c f) := by
  intro w _ h
  obtain rfl : putC op f = w := Option.some.inj (e.symm.trans h)
  rw [opOf_putC, d, getC_putC, low12, low_putC]
  rfl

/-- The variants of an opcode, by FN[1:0]. -/
def two (a b : EForm → Instr) (n : Nat) (w : W64) : Option Instr :=
  match n with
  | 0 => some (a (getE w))
  | 1 => some (b (getE w))
  | _ => none
def three (a b c : EForm → Instr) (n : Nat) (w : W64) : Option Instr :=
  match n with
  | 0 => some (a (getE w))
  | 1 => some (b (getE w))
  | 2 => some (c (getE w))
  | _ => none

/-- A variant of an E-form opcode. -/
theorem ofVariant (c : EForm → Instr) (op : BitVec 8) (n : Nat) (g : Nat → W64 → Option Instr) (f : EForm)
    (e : encode (c f) = some (putE op f)) (l : legal (c f) = true → (f.fn.extractLsb' 0 2).toNat = n)
    (d : ∀ w, ofOp op.toNat w = g (fld w 46 2).toNat w) (v : ∀ w, g n w = some (c (getE w))) : Statement (c f) := by
  intro w hl h
  obtain rfl : putE op f = w := Option.some.inj (e.symm.trans h)
  rw [opOf_putE, d, variant_putE, l hl, v, getE_putE]

theorem variantOf (fn : BitVec 5) (v : Nat) (hv : v < 4) (h : fn.toNat = v) : (fn.extractLsb' 0 2).toNat = v := by
  rw [BitVec.extractLsb'_toNat, h, Nat.shiftRight_zero]
  exact Nat.mod_eq_of_lt hv

/-- An MTS by its system register. -/
theorem ofMtsRow (c : SForm → Instr) (f : SForm) (e : encode (c f) = some (putS 0xD1 f))
    (l : legal (c f) = true → ofMts f = c f) : Statement (c f) := by
  intro w hl h
  obtain rfl : putS 0xD1 f = w := Option.some.inj (e.symm.trans h)
  rw [opOf_putS]
  show some (ofMts (getS (putS 0xD1 f))) = some (c f)
  rw [getS_putS, l hl]

theorem nop (f : VForm) : Statement (.nop f) := ofV Instr.nop 0x00 f rfl (fun _ => rfl)
theorem bra (f : CForm) : Statement (.bra f) := ofC Instr.bra 0x01 f rfl (fun _ => rfl)
theorem call (f : CForm) : Statement (.call f) := ofC Instr.call 0x02 f rfl (fun _ => rfl)
theorem jmpi (f : CForm) : Statement (.jmpi f) := ofC Instr.jmpi 0x03 f rfl (fun _ => rfl)
theorem calli (f : CForm) : Statement (.calli f) := ofC Instr.calli 0x04 f rfl (fun _ => rfl)
theorem ret (f : CForm) : Statement (.ret f) := ofC Instr.ret 0x05 f rfl (fun _ => rfl)
theorem exit (f : CForm) : Statement (.exit f) := ofC Instr.exit 0x06 f rfl (fun _ => rfl)
theorem yield (f : CForm) : Statement (.yield f) := ofC Instr.yield 0x07 f rfl (fun _ => rfl)
theorem trap (f : IForm) : Statement (.trap f) := ofI Instr.trap 0x08 f rfl (fun _ => rfl)
theorem brk (f : IForm) : Statement (.brk f) := ofI Instr.brk 0x09 f rfl (fun _ => rfl)
theorem holdx (f : CForm) : Statement (.holdx f) := ofC Instr.holdx 0x0A f rfl (fun _ => rfl)
theorem sleep (f : IForm) : Statement (.sleep f) := ofI Instr.sleep 0x0B f rfl (fun _ => rfl)
theorem add (f : WForm) : Statement (.add f) := ofW Instr.add 0x10 f rfl (fun _ => rfl)
theorem sub (f : WForm) : Statement (.sub f) := ofW Instr.sub 0x11 f rfl (fun _ => rfl)
theorem mul (f : WForm) : Statement (.mul f) := ofW Instr.mul 0x12 f rfl (fun _ => rfl)
theorem mad (f : VForm) : Statement (.mad f) := ofV Instr.mad 0x13 f rfl (fun _ => rfl)
theorem madhiI (f : VForm) : Statement (.madhiI f) := ofV Instr.madhiI 0x14 f rfl (fun _ => rfl)
theorem madhiN (f : VForm) : Statement (.madhiN f) := ofV Instr.madhiN 0x15 f rfl (fun _ => rfl)
theorem div (f : WForm) : Statement (.div f) := ofW Instr.div 0x16 f rfl (fun _ => rfl)
theorem rem (f : WForm) : Statement (.rem f) := ofW Instr.rem 0x17 f rfl (fun _ => rfl)
theorem min (f : WForm) : Statement (.min f) := ofW Instr.min 0x18 f rfl (fun _ => rfl)
theorem max (f : WForm) : Statement (.max f) := ofW Instr.max 0x19 f rfl (fun _ => rfl)
theorem absd (f : WForm) : Statement (.absd f) := ofW Instr.absd 0x1A f rfl (fun _ => rfl)
theorem addi (f : IForm) : Statement (.addi f) := ofI Instr.addi 0x1B f rfl (fun _ => rfl)
theorem muli (f : IForm) : Statement (.muli f) := ofI Instr.muli 0x1C f rfl (fun _ => rfl)
theorem addc (f : WForm) : Statement (.addc f) := ofW Instr.addc 0x1D f rfl (fun _ => rfl)
theorem subb (f : WForm) : Statement (.subb f) := ofW Instr.subb 0x1E f rfl (fun _ => rfl)
theorem sad (f : VForm) : Statement (.sad f) := ofV Instr.sad 0x1F f rfl (fun _ => rfl)
theorem and (f : WForm) : Statement (.and f) := ofW Instr.and 0x20 f rfl (fun _ => rfl)
theorem or (f : WForm) : Statement (.or f) := ofW Instr.or 0x21 f rfl (fun _ => rfl)
theorem xor (f : WForm) : Statement (.xor f) := ofW Instr.xor 0x22 f rfl (fun _ => rfl)
theorem andn (f : WForm) : Statement (.andn f) := ofW Instr.andn 0x23 f rfl (fun _ => rfl)
theorem shl (f : WForm) : Statement (.shl f) := ofW Instr.shl 0x24 f rfl (fun _ => rfl)
theorem shr (f : WForm) : Statement (.shr f) := ofW Instr.shr 0x25 f rfl (fun _ => rfl)
theorem sar (f : WForm) : Statement (.sar f) := ofW Instr.sar 0x26 f rfl (fun _ => rfl)
theorem rotl (f : WForm) : Statement (.rotl f) := ofW Instr.rotl 0x27 f rfl (fun _ => rfl)
theorem andi (f : IForm) : Statement (.andi f) := ofI Instr.andi 0x28 f rfl (fun _ => rfl)
theorem ori (f : IForm) : Statement (.ori f) := ofI Instr.ori 0x29 f rfl (fun _ => rfl)
theorem xori (f : IForm) : Statement (.xori f) := ofI Instr.xori 0x2A f rfl (fun _ => rfl)
theorem shi (f : IForm) : Statement (.shi f) := ofI Instr.shi 0x2B f rfl (fun _ => rfl)
theorem funnel (f : VForm) : Statement (.funnel f) := ofV Instr.funnel 0x2C f rfl (fun _ => rfl)
theorem bfx (f : WForm) : Statement (.bfx f) := ofW Instr.bfx 0x2D f rfl (fun _ => rfl)
theorem bfi (f : VForm) : Statement (.bfi f) := ofV Instr.bfi 0x2E f rfl (fun _ => rfl)
theorem bitop (f : WForm) : Statement (.bitop f) := ofW Instr.bitop 0x2F f rfl (fun _ => rfl)
theorem setp (f : WForm) : Statement (.setp f) := ofW Instr.setp 0x30 f rfl (fun _ => rfl)
theorem setpi (f : IForm) : Statement (.setpi f) := ofI Instr.setpi 0x31 f rfl (fun _ => rfl)
theorem plogic (f : WForm) : Statement (.plogic f) := ofW Instr.plogic 0x32 f rfl (fun _ => rfl)
theorem sel (f : VForm) : Statement (.sel f) := ofV Instr.sel 0x33 f rfl (fun _ => rfl)
theorem pmov (f : WForm) : Statement (.pmov f) := ofW Instr.pmov 0x34 f rfl (fun _ => rfl)
theorem vote (f : WForm) : Statement (.vote f) := ofW Instr.vote 0x35 f rfl (fun _ => rfl)
theorem matchG (f : WForm) : Statement (.matchG f) := ofW Instr.matchG 0x36 f rfl (fun _ => rfl)
theorem permb (f : WForm) : Statement (.permb f) := ofW Instr.permb 0x37 f rfl (fun _ => rfl)
theorem lea (f : WForm) : Statement (.lea f) := ofW Instr.lea 0x40 f rfl (fun _ => rfl)
theorem movi (f : IForm) : Statement (.movi f) := ofI Instr.movi 0x41 f rfl (fun _ => rfl)
theorem movih (f : IForm) : Statement (.movih f) := ofI Instr.movih 0x42 f rfl (fun _ => rfl)
theorem mov (f : WForm) : Statement (.mov f) := ofW Instr.mov 0x43 f rfl (fun _ => rfl)
theorem movx (f : WForm) : Statement (.movx f) := ofW Instr.movx 0x44 f rfl (fun _ => rfl)
theorem fadd (f : WForm) : Statement (.fadd f) := ofW Instr.fadd 0x50 f rfl (fun _ => rfl)
theorem fsub (f : WForm) : Statement (.fsub f) := ofW Instr.fsub 0x51 f rfl (fun _ => rfl)
theorem fmul (f : WForm) : Statement (.fmul f) := ofW Instr.fmul 0x52 f rfl (fun _ => rfl)
theorem ffma (f : VForm) : Statement (.ffma f) := ofV Instr.ffma 0x53 f rfl (fun _ => rfl)
theorem fmin (f : WForm) : Statement (.fmin f) := ofW Instr.fmin 0x54 f rfl (fun _ => rfl)
theorem fmax (f : WForm) : Statement (.fmax f) := ofW Instr.fmax 0x55 f rfl (fun _ => rfl)
theorem funary (f : WForm) : Statement (.funary f) := ofW Instr.funary 0x56 f rfl (fun _ => rfl)
theorem fspecial (f : WForm) : Statement (.fspecial f) := ofW Instr.fspecial 0x57 f rfl (fun _ => rfl)
theorem fclass (f : WForm) : Statement (.fclass f) := ofW Instr.fclass 0x58 f rfl (fun _ => rfl)
theorem fmuli (f : IForm) : Statement (.fmuli f) := ofI Instr.fmuli 0x59 f rfl (fun _ => rfl)
theorem hadd2 (f : WForm) : Statement (.hadd2 f) := ofW Instr.hadd2 0x60 f rfl (fun _ => rfl)
theorem hmul2 (f : WForm) : Statement (.hmul2 f) := ofW Instr.hmul2 0x61 f rfl (fun _ => rfl)
theorem hfma2 (f : VForm) : Statement (.hfma2 f) := ofV Instr.hfma2 0x62 f rfl (fun _ => rfl)
theorem bfma2 (f : VForm) : Statement (.bfma2 f) := ofV Instr.bfma2 0x63 f rfl (fun _ => rfl)
theorem hmin2 (f : WForm) : Statement (.hmin2 f) := ofW Instr.hmin2 0x64 f rfl (fun _ => rfl)
theorem hmax2 (f : WForm) : Statement (.hmax2 f) := ofW Instr.hmax2 0x65 f rfl (fun _ => rfl)
theorem hdot2 (f : VForm) : Statement (.hdot2 f) := ofV Instr.hdot2 0x66 f rfl (fun _ => rfl)
theorem bdot2 (f : VForm) : Statement (.bdot2 f) := ofV Instr.bdot2 0x67 f rfl (fun _ => rfl)
theorem idot4 (f : VForm) : Statement (.idot4 f) := ofV Instr.idot4 0x68 f rfl (fun _ => rfl)
theorem idot4n (f : VForm) : Statement (.idot4n f) := ofV Instr.idot4n 0x69 f rfl (fun _ => rfl)
theorem cvt (f : WForm) : Statement (.cvt f) := ofW Instr.cvt 0x70 f rfl (fun _ => rfl)
theorem pack2 (f : WForm) : Statement (.pack2 f) := ofW Instr.pack2 0x71 f rfl (fun _ => rfl)
theorem unpack (f : WForm) : Statement (.unpack f) := ofW Instr.unpack 0x72 f rfl (fun _ => rfl)
theorem bfpq (f : WForm) : Statement (.bfpq f) := ofW Instr.bfpq 0x73 f rfl (fun _ => rfl)
theorem bfpd (f : WForm) : Statement (.bfpd f) := ofW Instr.bfpd 0x74 f rfl (fun _ => rfl)
theorem tagset (f : WForm) : Statement (.tagset f) := ofW Instr.tagset 0x75 f rfl (fun _ => rfl)
theorem tagget (f : WForm) : Statement (.tagget f) := ofW Instr.tagget 0x76 f rfl (fun _ => rfl)
theorem reduce (f : WForm) : Statement (.reduce f) := ofW Instr.reduce 0x80 f rfl (fun _ => rfl)
theorem scan (f : WForm) : Statement (.scan f) := ofW Instr.scan 0x81 f rfl (fun _ => rfl)
theorem join (f : IForm) : Statement (.join f) := ofI Instr.join 0x82 f rfl (fun _ => rfl)
theorem leave (f : IForm) : Statement (.leave f) := ofI Instr.leave 0x83 f rfl (fun _ => rfl)
theorem bara (f : IForm) : Statement (.bara f) := ofI Instr.bara 0x84 f rfl (fun _ => rfl)
theorem bars (f : IForm) : Statement (.bars f) := ofI Instr.bars 0x85 f rfl (fun _ => rfl)
theorem barw (f : IForm) : Statement (.barw f) := ofI Instr.barw 0x86 f rfl (fun _ => rfl)
theorem lend (f : IForm) : Statement (.lend f) := ofI Instr.lend 0x87 f rfl (fun _ => rfl)
theorem recruit (f : EForm) : Statement (.recruit f) := ofE Instr.recruit 0x88 f rfl (fun _ => rfl)
theorem iter (f : WForm) : Statement (.iter f) := ofW Instr.iter 0x89 f rfl (fun _ => rfl)
theorem contrib (f : WForm) : Statement (.contrib f) := ofW Instr.contrib 0x8A f rfl (fun _ => rfl)
theorem rjoin (f : IForm) : Statement (.rjoin f) := ofI Instr.rjoin 0x8B f rfl (fun _ => rfl)
theorem reclaim (f : IForm) : Statement (.reclaim f) := ofI Instr.reclaim 0x8C f rfl (fun _ => rfl)
theorem rget (f : IForm) : Statement (.rget f) := ofI Instr.rget 0x8D f rfl (fun _ => rfl)
theorem rput (f : IForm) : Statement (.rput f) := ofI Instr.rput 0x8E f rfl (fun _ => rfl)
theorem dispense (f : WForm) : Statement (.dispense f) := ofW Instr.dispense 0x8F f rfl (fun _ => rfl)
theorem ld8 (f : MForm) : Statement (.ld8 f) := ofM Instr.ld8 0x90 f rfl (fun _ => rfl)
theorem ld8s (f : MForm) : Statement (.ld8s f) := ofM Instr.ld8s 0x91 f rfl (fun _ => rfl)
theorem ld16 (f : MForm) : Statement (.ld16 f) := ofM Instr.ld16 0x92 f rfl (fun _ => rfl)
theorem ld16s (f : MForm) : Statement (.ld16s f) := ofM Instr.ld16s 0x93 f rfl (fun _ => rfl)
theorem ld32 (f : MForm) : Statement (.ld32 f) := ofM Instr.ld32 0x94 f rfl (fun _ => rfl)
theorem ld64 (f : MForm) : Statement (.ld64 f) := ofM Instr.ld64 0x95 f rfl (fun _ => rfl)
theorem ld128 (f : MForm) : Statement (.ld128 f) := ofM Instr.ld128 0x96 f rfl (fun _ => rfl)
theorem st8 (f : MForm) : Statement (.st8 f) := ofM Instr.st8 0x97 f rfl (fun _ => rfl)
theorem st16 (f : MForm) : Statement (.st16 f) := ofM Instr.st16 0x98 f rfl (fun _ => rfl)
theorem st32 (f : MForm) : Statement (.st32 f) := ofM Instr.st32 0x99 f rfl (fun _ => rfl)
theorem st64 (f : MForm) : Statement (.st64 f) := ofM Instr.st64 0x9A f rfl (fun _ => rfl)
theorem st128 (f : MForm) : Statement (.st128 f) := ofM Instr.st128 0x9B f rfl (fun _ => rfl)
theorem atom (f : WForm) : Statement (.atom f) := ofW Instr.atom 0x9C f rfl (fun _ => rfl)
theorem cas (f : VForm) : Statement (.cas f) := ofV Instr.cas 0x9D f rfl (fun _ => rfl)
theorem fence (f : SForm) : Statement (.fence f) := ofS Instr.fence 0x9E f rfl (fun _ => rfl)
theorem ntdrain (f : SForm) : Statement (.ntdrain f) := ofS Instr.ntdrain 0x9F f rfl (fun _ => rfl)
theorem rmap (f : EForm) : Statement (.rmap f) := ofE Instr.rmap 0xA0 f rfl (fun _ => rfl)
theorem runmap (f : EForm) : Statement (.runmap f) := ofE Instr.runmap 0xA1 f rfl (fun _ => rfl)
theorem wback (f : EForm) : Statement (.wback f) := ofE Instr.wback 0xA2 f rfl (fun _ => rfl)
theorem cpy (f : EForm) : Statement (.cpy f) := ofE Instr.cpy 0xA3 f rfl (fun _ => rfl)
theorem cpyd (f : EForm) : Statement (.cpyd f) := ofE Instr.cpyd 0xA4 f rfl (fun _ => rfl)
theorem acpy (f : EForm) : Statement (.acpy f) := ofE Instr.acpy 0xA5 f rfl (fun _ => rfl)
theorem gatom (f : EForm) : Statement (.gatom f) := ofE Instr.gatom 0xA6 f rfl (fun _ => rfl)
theorem semwaitTake (f : EForm) : Statement (.semwaitTake f) := ofVariant Instr.semwaitTake 0xA7 0 (two .semwaitTake .semwaitEq) f rfl
  (fun h => variantOf _ _ (by decide) (by
    simp only [legal, semwaitOk, Bool.and_eq_true, beq_iff_eq] at h
    simp [h]))
  (fun _ => rfl) (fun _ => rfl)
theorem semwaitEq (f : EForm) : Statement (.semwaitEq f) := ofVariant Instr.semwaitEq 0xA7 1 (two .semwaitTake .semwaitEq) f rfl
  (fun h => variantOf _ _ (by decide) (by
    simp only [legal, semwaitOk, Bool.and_eq_true, beq_iff_eq] at h
    simp [h]))
  (fun _ => rfl) (fun _ => rfl)
theorem sempost (f : EForm) : Statement (.sempost f) := ofE Instr.sempost 0xA8 f rfl (fun _ => rfl)
theorem tbinit (f : EForm) : Statement (.tbinit f) := ofE Instr.tbinit 0xA9 f rfl (fun _ => rfl)
theorem tbwait (f : EForm) : Statement (.tbwait f) := ofE Instr.tbwait 0xAA f rfl (fun _ => rfl)
theorem tbtest (f : EForm) : Statement (.tbtest f) := ofE Instr.tbtest 0xAB f rfl (fun _ => rfl)
theorem sjoin (f : EForm) : Statement (.sjoin f) := ofE Instr.sjoin 0xAC f rfl (fun _ => rfl)
theorem sleave (f : EForm) : Statement (.sleave f) := ofE Instr.sleave 0xAD f rfl (fun _ => rfl)
theorem mfence (f : EForm) : Statement (.mfence f) := ofE Instr.mfence 0xB0 f rfl (fun _ => rfl)
theorem mma (f : EForm) : Statement (.mma f) := ofE Instr.mma 0xB1 f rfl (fun _ => rfl)
theorem mwait (f : EForm) : Statement (.mwait f) := ofE Instr.mwait 0xB2 f rfl (fun _ => rfl)
theorem mprogProg (f : EForm) : Statement (.mprogProg f) := ofVariant Instr.mprogProg 0xB3 0 (three .mprogProg .mprogCopy .mprogLast) f rfl
  (fun h => variantOf _ _ (by decide) (by
    simp only [legal, mvarOk, Bool.and_eq_true, beq_iff_eq] at h
    simp [h]))
  (fun _ => rfl) (fun _ => rfl)
theorem mprogCopy (f : EForm) : Statement (.mprogCopy f) := ofVariant Instr.mprogCopy 0xB3 1 (three .mprogProg .mprogCopy .mprogLast) f rfl
  (fun h => variantOf _ _ (by decide) (by
    simp only [legal, mvarOk, Bool.and_eq_true, beq_iff_eq] at h
    simp [h]))
  (fun _ => rfl) (fun _ => rfl)
theorem mprogLast (f : EForm) : Statement (.mprogLast f) := ofVariant Instr.mprogLast 0xB3 2 (three .mprogProg .mprogCopy .mprogLast) f rfl
  (fun h => variantOf _ _ (by decide) (by
    simp only [legal, mvarOk, Bool.and_eq_true, beq_iff_eq] at h
    simp [h]))
  (fun _ => rfl) (fun _ => rfl)
theorem mstop (f : EForm) : Statement (.mstop f) := ofE Instr.mstop 0xB4 f rfl (fun _ => rfl)
theorem mresume (f : EForm) : Statement (.mresume f) := ofVariant Instr.mresume 0xB5 0 (three .mresume .mresumeLoad .mresumeTick) f rfl
  (fun h => variantOf _ _ (by decide) (by
    simp only [legal, mvarOk, Bool.and_eq_true, beq_iff_eq] at h
    simp [h]))
  (fun _ => rfl) (fun _ => rfl)
theorem mresumeLoad (f : EForm) : Statement (.mresumeLoad f) := ofVariant Instr.mresumeLoad 0xB5 1 (three .mresume .mresumeLoad .mresumeTick) f rfl
  (fun h => variantOf _ _ (by decide) (by
    simp only [legal, mvarOk, Bool.and_eq_true, beq_iff_eq] at h
    simp [h]))
  (fun _ => rfl) (fun _ => rfl)
theorem mresumeTick (f : EForm) : Statement (.mresumeTick f) := ofVariant Instr.mresumeTick 0xB5 2 (three .mresume .mresumeLoad .mresumeTick) f rfl
  (fun h => variantOf _ _ (by decide) (by
    simp only [legal, mvarOk, Bool.and_eq_true, beq_iff_eq] at h
    simp [h]))
  (fun _ => rfl) (fun _ => rfl)
theorem aclr (f : EForm) : Statement (.aclr f) := ofE Instr.aclr 0xB6 f rfl (fun _ => rfl)
theorem cvclr (f : EForm) : Statement (.cvclr f) := ofE Instr.cvclr 0xC0 f rfl (fun _ => rfl)
theorem cvpath (f : EForm) : Statement (.cvpath f) := ofE Instr.cvpath 0xC1 f rfl (fun _ => rfl)
theorem cvscan (f : EForm) : Statement (.cvscan f) := ofE Instr.cvscan 0xC2 f rfl (fun _ => rfl)
theorem cvbox (f : WForm) : Statement (.cvbox f) := ofW Instr.cvbox 0xC3 f rfl (fun _ => rfl)
theorem cvstop (f : EForm) : Statement (.cvstop f) := ofE Instr.cvstop 0xC4 f rfl (fun _ => rfl)
theorem cvresume (f : EForm) : Statement (.cvresume f) := ofE Instr.cvresume 0xC5 f rfl (fun _ => rfl)
theorem cvsaveImg (f : EForm) : Statement (.cvsaveImg f) := ofVariant Instr.cvsaveImg 0xC6 0 (three .cvsaveImg .cvsaveCtl .cvsaveQ) f rfl
  (fun h => variantOf _ _ (by decide) (by
    simp only [legal, cvarOk, Bool.and_eq_true, beq_iff_eq] at h
    simp [h]))
  (fun _ => rfl) (fun _ => rfl)
theorem cvsaveCtl (f : EForm) : Statement (.cvsaveCtl f) := ofVariant Instr.cvsaveCtl 0xC6 1 (three .cvsaveImg .cvsaveCtl .cvsaveQ) f rfl
  (fun h => variantOf _ _ (by decide) (by
    simp only [legal, cvarOk, Bool.and_eq_true, beq_iff_eq] at h
    simp [h]))
  (fun _ => rfl) (fun _ => rfl)
theorem cvsaveQ (f : EForm) : Statement (.cvsaveQ f) := ofVariant Instr.cvsaveQ 0xC6 2 (three .cvsaveImg .cvsaveCtl .cvsaveQ) f rfl
  (fun h => variantOf _ _ (by decide) (by
    simp only [legal, cvarOk, Bool.and_eq_true, beq_iff_eq] at h
    simp [h]))
  (fun _ => rfl) (fun _ => rfl)
theorem cvloadImg (f : EForm) : Statement (.cvloadImg f) := ofVariant Instr.cvloadImg 0xC7 0 (three .cvloadImg .cvloadCtl .cvloadQ) f rfl
  (fun h => variantOf _ _ (by decide) (by
    simp only [legal, cvarOk, Bool.and_eq_true, beq_iff_eq] at h
    simp [h]))
  (fun _ => rfl) (fun _ => rfl)
theorem cvloadCtl (f : EForm) : Statement (.cvloadCtl f) := ofVariant Instr.cvloadCtl 0xC7 1 (three .cvloadImg .cvloadCtl .cvloadQ) f rfl
  (fun h => variantOf _ _ (by decide) (by
    simp only [legal, cvarOk, Bool.and_eq_true, beq_iff_eq] at h
    simp [h]))
  (fun _ => rfl) (fun _ => rfl)
theorem cvloadQ (f : EForm) : Statement (.cvloadQ f) := ofVariant Instr.cvloadQ 0xC7 2 (three .cvloadImg .cvloadCtl .cvloadQ) f rfl
  (fun h => variantOf _ _ (by decide) (by
    simp only [legal, cvarOk, Bool.and_eq_true, beq_iff_eq] at h
    simp [h]))
  (fun _ => rfl) (fun _ => rfl)
theorem mfs (f : SForm) : Statement (.mfs f) := ofS Instr.mfs 0xD0 f rfl (fun _ => rfl)
theorem mts (f : SForm) : Statement (.mts f) := ofMtsRow Instr.mts f rfl (by
  intro h
  simp only [legal, mtsRowOk, Bool.and_eq_true, beq_iff_eq] at h
  simp only [ofMts, h.2])
theorem eret (f : SForm) : Statement (.eret f) := ofS Instr.eret 0xD3 f rfl (fun _ => rfl)
theorem wfi (f : SForm) : Statement (.wfi f) := ofS Instr.wfi 0xD5 f rfl (fun _ => rfl)
theorem qbind (f : SForm) : Statement (.qbind f) := ofS Instr.qbind 0xD6 f rfl (fun _ => rfl)
theorem qunbind (f : SForm) : Statement (.qunbind f) := ofS Instr.qunbind 0xD7 f rfl (fun _ => rfl)
theorem kpend (f : SForm) : Statement (.kpend f) := ofS Instr.kpend 0xD8 f rfl (fun _ => rfl)
theorem ipi (f : SForm) : Statement (.ipi f) := ofS Instr.ipi 0xD9 f rfl (fun _ => rfl)
theorem iflush (f : SForm) : Statement (.iflush f) := ofS Instr.iflush 0xDA f rfl (fun _ => rfl)
theorem evtWrite (f : SForm) : Statement (.evtWrite f) := ofMtsRow Instr.evtWrite f rfl (by
  intro h
  simp only [legal, mtsRowOk, Bool.and_eq_true, beq_iff_eq] at h
  simp only [ofMts, h.2])
theorem bcntWrite (f : SForm) : Statement (.bcntWrite f) := ofMtsRow Instr.bcntWrite f rfl (by
  intro h
  simp only [legal, mtsRowOk, Bool.and_eq_true, beq_iff_eq] at h
  simp only [ofMts, h.2])
theorem tctxWrite (f : SForm) : Statement (.tctxWrite f) := ofMtsRow Instr.tctxWrite f rfl (by
  intro h
  simp only [legal, mtsRowOk, Bool.and_eq_true, beq_iff_eq] at h
  simp only [ofMts, h.2])
theorem tsaveWrite (f : SForm) : Statement (.tsaveWrite f) := ofMtsRow Instr.tsaveWrite f rfl (by
  intro h
  simp only [legal, mtsRowOk, Bool.and_eq_true, beq_iff_eq] at h
  simp only [ofMts, h.2])
theorem tloadWrite (f : SForm) : Statement (.tloadWrite f) := ofMtsRow Instr.tloadWrite f rfl (by
  intro h
  simp only [legal, mtsRowOk, Bool.and_eq_true, beq_iff_eq] at h
  simp only [ofMts, h.2])
theorem sphaseWrite (f : SForm) : Statement (.sphaseWrite f) := ofMtsRow Instr.sphaseWrite f rfl (by
  intro h
  simp only [legal, mtsRowOk, Bool.and_eq_true, beq_iff_eq] at h
  simp only [ofMts, h.2])
theorem dump (core : Nat) : Statement (.dump core) := fun _ _ h => nomatch h
theorem dumpd (core : Nat) : Statement (.dumpd core) := fun _ _ h => nomatch h
theorem load (core : Nat) : Statement (.load core) := fun _ _ h => nomatch h
theorem run (core : Nat) : Statement (.run core) := fun _ _ h => nomatch h
theorem free (core : Nat) : Statement (.free core) := fun _ _ h => nomatch h
theorem dumpImageWrite (core : Nat) : Statement (.dumpImageWrite core) := fun _ _ h => nomatch h
theorem preemptDelivery (core : Nat) : Statement (.preemptDelivery core) := fun _ _ h => nomatch h
theorem segmentGuard (core slot : Nat) : Statement (.segmentGuard core slot) := fun _ _ h => nomatch h
theorem threadAgeGuard (core slot : Nat) : Statement (.threadAgeGuard core slot) := fun _ _ h => nomatch h
theorem holdTimeout (core tid : Nat) : Statement (.holdTimeout core tid) := fun _ _ h => nomatch h
theorem sleepExpire (core tid : Nat) : Statement (.sleepExpire core tid) := fun _ _ h => nomatch h
theorem yieldExpire (core tid : Nat) : Statement (.yieldExpire core tid) := fun _ _ h => nomatch h
theorem bartimeout (core tid : Nat) : Statement (.bartimeout core tid) := fun _ _ h => nomatch h
theorem subordinateKill (core tid : Nat) : Statement (.subordinateKill core tid) := fun _ _ h => nomatch h
theorem loadDataReturn (core tid : Nat) : Statement (.loadDataReturn core tid) := fun _ _ h => nomatch h
theorem lineFillComplete (core line : Nat) (memErr : Bool) : Statement (.lineFillComplete core line memErr) := fun _ _ h => nomatch h
theorem lineWritebackComplete (core line : Nat) (memErr : Bool) : Statement (.lineWritebackComplete core line memErr) := fun _ _ h => nomatch h
theorem forwardedWritePerform (core region : Nat) (memErr : Bool) : Statement (.forwardedWritePerform core region memErr) := fun _ _ h => nomatch h
theorem ntWriteback (core line : Nat) (memErr : Bool) : Statement (.ntWriteback core line memErr) := fun _ _ h => nomatch h
theorem promotionRequest (core : Nat) : Statement (.promotionRequest core) := fun _ _ h => nomatch h
theorem icacheFill (core line : Nat) (memErr : Bool) : Statement (.icacheFill core line memErr) := fun _ _ h => nomatch h
theorem copyStart (core id : Nat) : Statement (.copyStart core id) := fun _ _ h => nomatch h
theorem copyRetire (core id : Nat) (memErr : Bool) : Statement (.copyRetire core id memErr) := fun _ _ h => nomatch h
theorem semwaitSucceed (core id : Nat) (memErr : Bool) : Statement (.semwaitSucceed core id memErr) := fun _ _ h => nomatch h
theorem sempostPerform (core id : Nat) (memErr : Bool) : Statement (.sempostPerform core id memErr) := fun _ _ h => nomatch h
theorem dispenserClaim (core disp : Nat) : Statement (.dispenserClaim core disp) := fun _ _ h => nomatch h
theorem shareRevocation (core : Nat) : Statement (.shareRevocation core) := fun _ _ h => nomatch h
theorem matrixOpStart (core : Nat) : Statement (.matrixOpStart core) := fun _ _ h => nomatch h
theorem matrixKblock (core : Nat) : Statement (.matrixKblock core) := fun _ _ h => nomatch h
theorem matrixOpEnd (core : Nat) : Statement (.matrixOpEnd core) := fun _ _ h => nomatch h
theorem covCommandStart (core : Nat) : Statement (.covCommandStart core) := fun _ _ h => nomatch h
theorem covPathRecord (core : Nat) : Statement (.covPathRecord core) := fun _ _ h => nomatch h
theorem pageWalkComplete (die idx : Nat) : Statement (.pageWalkComplete die idx) := fun _ _ h => nomatch h
theorem fqheadWrite (die : Nat) (value : W32) : Statement (.fqheadWrite die value) := fun _ _ h => nomatch h
theorem frespRetry (die : Nat) (token : W32) : Statement (.frespRetry die token) := fun _ _ h => nomatch h
theorem frespFail (die : Nat) (token : W32) : Statement (.frespFail die token) := fun _ _ h => nomatch h
theorem invcmd (value : W64) : Statement (.invcmd value) := fun _ _ h => nomatch h
theorem invalidationComplete : Statement (.invalidationComplete) := fun _ _ h => nomatch h
theorem miggo (value : W32) : Statement (.miggo value) := fun _ _ h => nomatch h
theorem migrationRound : Statement (.migrationRound) := fun _ _ h => nomatch h
theorem atsTranslationCompletion (idx hostPage : Nat) (readable writable : Bool) : Statement (.atsTranslationCompletion idx hostPage readable writable) := fun _ _ h => nomatch h
theorem priResponse (idx : Nat) (success : Bool) : Statement (.priResponse idx success) := fun _ _ h => nomatch h
theorem atsInvalidateRequest (pasid va len : Nat) : Statement (.atsInvalidateRequest pasid va len) := fun _ _ h => nomatch h
theorem kwrWrite (func off size : Nat) (value : W64) : Statement (.kwrWrite func off size value) := fun _ _ h => nomatch h
theorem queueLookahead (slot : Nat) (memErr : Bool) : Statement (.queueLookahead slot memErr) := fun _ _ h => nomatch h
theorem launchPacket (slot : Nat) (memErr : Bool) : Statement (.launchPacket slot memErr) := fun _ _ h => nomatch h
theorem callPacket (slot : Nat) : Statement (.callPacket slot) := fun _ _ h => nomatch h
theorem returnPacket (slot : Nat) : Statement (.returnPacket slot) := fun _ _ h => nomatch h
theorem joinPacket (slot : Nat) : Statement (.joinPacket slot) := fun _ _ h => nomatch h
theorem condPacket (slot : Nat) (memErr : Bool) : Statement (.condPacket slot memErr) := fun _ _ h => nomatch h
theorem signalPacket (slot : Nat) (memErr : Bool) : Statement (.signalPacket slot memErr) := fun _ _ h => nomatch h
theorem waitPacket (slot : Nat) : Statement (.waitPacket slot) := fun _ _ h => nomatch h
theorem waitSatisfied (slot : Nat) (memErr : Bool) : Statement (.waitSatisfied slot memErr) := fun _ _ h => nomatch h
theorem waitTimeout (slot : Nat) : Statement (.waitTimeout slot) := fun _ _ h => nomatch h
theorem framePacket (slot : Nat) : Statement (.framePacket slot) := fun _ _ h => nomatch h
theorem nopPacket (slot : Nat) : Statement (.nopPacket slot) := fun _ _ h => nomatch h
theorem instanceEnd (core : Nat) : Statement (.instanceEnd core) := fun _ _ h => nomatch h
theorem coreAllocation (core : Nat) : Statement (.coreAllocation core) := fun _ _ h => nomatch h
theorem launchWatchdog (slot : Nat) : Statement (.launchWatchdog slot) := fun _ _ h => nomatch h
theorem tick (cc : Nat) : Statement (.tick cc) := fun _ _ h => nomatch h
theorem gangTick (part : Nat) : Statement (.gangTick part) := fun _ _ h => nomatch h
theorem saveDeadline (part : Nat) : Statement (.saveDeadline part) := fun _ _ h => nomatch h
theorem prestop (part : Nat) : Statement (.prestop part) := fun _ _ h => nomatch h
theorem parkThreshold (core : Nat) : Statement (.parkThreshold core) := fun _ _ h => nomatch h
theorem apply (value : W32) : Statement (.apply value) := fun _ _ h => nomatch h
theorem activate (value : W32) : Statement (.activate value) := fun _ _ h => nomatch h
theorem diereset (value : W32) (directoryAnswers : Bool) : Statement (.diereset value directoryAnswers) := fun _ _ h => nomatch h
theorem rststatRead : Statement (.rststatRead) := fun _ _ h => nomatch h
theorem mmioRegisterWrite (func off size : Nat) (value : W64) : Statement (.mmioRegisterWrite func off size value) := fun _ _ h => nomatch h
theorem bar2Access (write : Bool) (addr : Nat) (bytes : List Byte) : Statement (.bar2Access write addr bytes) := fun _ _ h => nomatch h
theorem telemetryRefresh : Statement (.telemetryRefresh) := fun _ _ h => nomatch h
theorem frameEmit (stream : Nat) : Statement (.frameEmit stream) := fun _ _ h => nomatch h
theorem frameSubstitute (stream : Nat) : Statement (.frameSubstitute stream) := fun _ _ h => nomatch h
theorem bootctlWarmStart : Statement (.bootctlWarmStart) := fun _ _ h => nomatch h
theorem bootctlColdStart : Statement (.bootctlColdStart) := fun _ _ h => nomatch h
theorem powerOn : Statement (.powerOn) := fun _ _ h => nomatch h
theorem fundamentalReset : Statement (.fundamentalReset) := fun _ _ h => nomatch h
theorem hotReset : Statement (.hotReset) := fun _ _ h => nomatch h
theorem linkDown : Statement (.linkDown) := fun _ _ h => nomatch h
theorem flr (func : Nat) : Statement (.flr func) := fun _ _ h => nomatch h
theorem surpriseRemoval : Statement (.surpriseRemoval) := fun _ _ h => nomatch h
theorem startTimeout : Statement (.startTimeout) := fun _ _ h => nomatch h
theorem rdmaWrite (qp : Nat) (rkey : W32) (va : W64) (bytes : List Byte) : Statement (.rdmaWrite qp rkey va bytes) := fun _ _ h => nomatch h
theorem rdmaRead (qp : Nat) (rkey : W32) (va : W64) (len : Nat) : Statement (.rdmaRead qp rkey va len) := fun _ _ h => nomatch h
theorem send (qp : Nat) (psn : W32) (bytes : List Byte) : Statement (.send qp psn bytes) := fun _ _ h => nomatch h
theorem rdmaAck (qp : Nat) : Statement (.rdmaAck qp) := fun _ _ h => nomatch h
theorem rdmaReadResponse (qp : Nat) (bytes : List Byte) : Statement (.rdmaReadResponse qp bytes) := fun _ _ h => nomatch h
theorem rdmaNak (qp : Nat) : Statement (.rdmaNak qp) := fun _ _ h => nomatch h
theorem rdmaAckTimeout (qp : Nat) : Statement (.rdmaAckTimeout qp) := fun _ _ h => nomatch h
theorem ptpMessage (port : Nat) (offset : Int) : Statement (.ptpMessage port offset) := fun _ _ h => nomatch h
theorem doeDiscovery (index : Nat) : Statement (.doeDiscovery index) := fun _ _ h => nomatch h
theorem getVersion (mctp : Bool) : Statement (.getVersion mctp) := fun _ _ h => nomatch h
theorem getCapabilities (mctp : Bool) : Statement (.getCapabilities mctp) := fun _ _ h => nomatch h
theorem negotiateAlgorithms (mctp offersP521 offersSha512 : Bool) : Statement (.negotiateAlgorithms mctp offersP521 offersSha512) := fun _ _ h => nomatch h
theorem getDigests (mctp : Bool) : Statement (.getDigests mctp) := fun _ _ h => nomatch h
theorem getCertificate (mctp : Bool) (slot off len : Nat) : Statement (.getCertificate mctp slot off len) := fun _ _ h => nomatch h
theorem challenge (mctp : Bool) (slot : Nat) (nonce : Nat) : Statement (.challenge mctp slot nonce) := fun _ _ h => nomatch h
theorem getMeasurements (mctp : Bool) (block : Nat) (nonce : Nat) : Statement (.getMeasurements mctp block nonce) := fun _ _ h => nomatch h
theorem pldmType0Request : Statement (.pldmType0Request) := fun _ _ h => nomatch h
theorem pldmSensorRead (sensor : Nat) : Statement (.pldmSensorRead sensor) := fun _ _ h => nomatch h
theorem pldmFirmwareUpdate (pcie : Bool) (component : Nat) (image : List Byte) : Statement (.pldmFirmwareUpdate pcie component image) := fun _ _ h => nomatch h
theorem ready : Statement (.ready) := fun _ _ h => nomatch h
theorem linkUp : Statement (.linkUp) := fun _ _ h => nomatch h
theorem flrComplete (func : Nat) : Statement (.flrComplete func) := fun _ _ h => nomatch h
theorem dieResetComplete (die : Nat) : Statement (.dieResetComplete die) := fun _ _ h => nomatch h
theorem configurationRequest (func : Nat) (write : ConfigWrite) : Statement (.configurationRequest func write) := fun _ _ h => nomatch h
theorem windowAccessAccepted (core tid : Nat) : Statement (.windowAccessAccepted core tid) := fun _ _ h => nomatch h
theorem portLinkChange (port : Nat) (up : Bool) : Statement (.portLinkChange port up) := fun _ _ h => nomatch h
theorem pfcPauseFrame (port priority : Nat) (pause : Bool) : Statement (.pfcPauseFrame port priority pause) := fun _ _ h => nomatch h
theorem ecnMark (port : Nat) : Statement (.ecnMark port) := fun _ _ h => nomatch h
theorem mainPowerLoss : Statement (.mainPowerLoss) := fun _ _ h => nomatch h
theorem uncorrectableError (core : Nat) (fatal : Bool) : Statement (.uncorrectableError core fatal) := fun _ _ h => nomatch h
theorem droopEvent (die : Nat) : Statement (.droopEvent die) := fun _ _ h => nomatch h

end Sys2Proof.Laws.Fields
end

