-- ==== Sys2Proof/Tests/Slice0.lean ====
section
/-! SUPPORT. Tests. The words are the worked encodings of the spec, with their fields as its tables give them. The theorems named wit_
show, for the hypotheses of the obligations, states and operands that meet them together, at the edges of their ranges. -/

set_option Elab.async false

open Sys2Proof Sys2Proof.Machine Sys2Proof.Claims

namespace Sys2Proof.Tests

def hd : Head := { u := false, g := 0, n := false }
def hdU : Head := { u := true, g := 0, n := false }

/-! ### Words written out in the spec decode to what they stand for -/

-- ADD.i32.ec v5, v4:sh(-1), v4:sh(1) (09, worked encodings)
theorem test_decode_add : decode 0x1000508117E81400 = some (.add ⟨hd, 5, 4, 4, 0x0BF, 0x081, 1, 0⟩) := by decide +kernel
theorem test_decode_add_guarded : decode 0x1038508117E81400 = some (.add ⟨⟨false, 3, true⟩, 5, 4, 4, 0x0BF, 0x081, 1, 0⟩) := by
  decide +kernel
-- LD32.acq.grp v5, v2, 0x100
theorem test_decode_ld32 : decode 0x9400504002400100 = some (.ld32 ⟨hd, 5, 2, 0, 1, 1, 0x100⟩) := by decide +kernel
-- ST32.rel.grp v6, v2, 0x100
theorem test_decode_st32 : decode 0x9900604004400100 = some (.st32 ⟨hd, 6, 2, 0, 2, 1, 0x100⟩) := by decide +kernel
-- BRA to 4 words back
theorem test_decode_bra : decode 0x0107FFFFE0000000 = some (.bra ⟨hd, 0xFFFFFC, 0, 0⟩) := by decide +kernel
-- CVBOX.2 x10, x4, x6
theorem test_decode_cvbox : decode 0xC300A08180000008 = some (.cvbox ⟨hd, 10, 4, 6, 0, 0, 0, 0x008⟩) := by decide +kernel
-- ADD.i32.sat v5, v6, v7; SETP.f32.lt p2, v4, v5; SHI.sar v5, v6, 3; FFMA v8, v9, v10, v11 (10)
theorem test_decode_add_sat : decode 0x100050C1C0000002 = some (.add ⟨hd, 5, 6, 7, 0, 0, 0, 2⟩) := by decide +kernel
theorem test_decode_setp : decode 0x30002081400000C8 = some (.setp ⟨hd, 2, 4, 5, 0, 0, 0, 0x0C8⟩) := by decide +kernel
theorem test_decode_shi : decode 0x2B0050C008000003 = some (.shi ⟨hd, 5, 6, 0, 0x8000003⟩) := by decide +kernel
theorem test_decode_ffma : decode 0x5300812285800000 = some (.ffma ⟨hd, 8, 9, 10, 11, 0, 0, 0, 0⟩) := by decide +kernel
theorem test_decode_fmuli : decode 0x590060A003700000 = some (.fmuli ⟨hd, 6, 5, 0, 0x3700000⟩) := by decide +kernel
theorem test_decode_cvt : decode 0x700050A0000000C4 = some (.cvt ⟨hd, 5, 5, 0, 0, 0, 0, 0x0C4⟩) := by decide +kernel
theorem test_decode_bfpq : decode 0x730060A000000100 = some (.bfpq ⟨hd, 6, 5, 0, 0, 0, 0, 0x100⟩) := by decide +kernel
theorem test_decode_movi : decode 0x410050000FC00000 = some (.movi ⟨hd, 5, 0, 0, 0xFC00000⟩) := by decide +kernel
theorem test_decode_movih : decode 0x420050A000000003 = some (.movih ⟨hd, 5, 5, 0, 3⟩) := by decide +kernel
-- p2? BRA +6; CALL +20; CALLI x8, tag=0x21; RET; !p1? EXIT; HOLDX; TRAP 0x2A; SLEEP 1000 (11)
theorem test_decode_bra_guarded : decode 0x0120000030000000 = some (.bra ⟨⟨false, 2, false⟩, 6, 0, 0⟩) := by decide +kernel
theorem test_decode_call : decode 0x02000000A0000000 = some (.call ⟨hd, 20, 0, 0⟩) := by decide +kernel
theorem test_decode_calli : decode 0x0400000001088000 = some (.calli ⟨hd, 0, 0x21, 8⟩) := by decide +kernel
theorem test_decode_ret : decode 0x0500000000000000 = some (.ret ⟨hd, 0, 0, 0⟩) := by decide +kernel
theorem test_decode_exit : decode 0x0618000000000000 = some (.exit ⟨⟨false, 1, true⟩, 0, 0, 0⟩) := by decide +kernel
theorem test_decode_holdx : decode 0x0A00000000000000 = some (.holdx ⟨hd, 0, 0, 0⟩) := by decide +kernel
theorem test_decode_trap : decode 0x080000000000002A = some (.trap ⟨hd, 0, 0, 0, 0x2A⟩) := by decide +kernel
theorem test_decode_sleep : decode 0x0B000000000003E8 = some (.sleep ⟨hd, 0, 0, 0, 1000⟩) := by decide +kernel
-- LD128 v8, v2, 0x40; ST32.rel.core v0, v2, 0; CAS.acq.core v5, v2, v0, v7; ATOM.add.acq_rel.core v5, v2, v6; FENCE; NTDRAIN (11)
theorem test_decode_ld128 : decode 0x9600804000000040 = some (.ld128 ⟨hd, 8, 2, 0, 0, 0, 0x40⟩) := by decide +kernel
theorem test_decode_st32_core : decode 0x9900004004800000 = some (.st32 ⟨hd, 0, 2, 0, 2, 2, 0⟩) := by decide +kernel
theorem test_decode_cas : decode 0x9D00504003940000 = some (.cas ⟨hd, 5, 2, 0, 7, 0x050, 0, 0, 0⟩) := by decide +kernel
theorem test_decode_atom : decode 0x9C0050418000001A = some (.atom ⟨hd, 5, 2, 6, 0, 0, 0, 0x01A⟩) := by decide +kernel
theorem test_decode_fence : decode 0x9E00460000000000 = some (.fence ⟨hd, 0x023, 0, 0, 0, 0⟩) := by decide +kernel
theorem test_decode_ntdrain : decode 0x9F00400000000000 = some (.ntdrain ⟨hd, 0x020, 0, 0, 0, 0⟩) := by decide +kernel
-- BARA v6, 1; BARS v0, 2; BARW 1; REDUCE.add.f32; SCAN.add.i32.ex; DISPENSE.1; RGET.uni 2 (11)
theorem test_decode_bara : decode 0x840000C000000001 = some (.bara ⟨hd, 0, 6, 0, 1⟩) := by decide +kernel
theorem test_decode_bars : decode 0x8500000000000002 = some (.bars ⟨hd, 0, 0, 0, 2⟩) := by decide +kernel
theorem test_decode_barw : decode 0x8600000000000001 = some (.barw ⟨hd, 0, 0, 0, 1⟩) := by decide +kernel
theorem test_decode_reduce : decode 0x800060A0000000C0 = some (.reduce ⟨hd, 6, 5, 0, 0, 0, 0, 0x0C0⟩) := by decide +kernel
theorem test_decode_scan : decode 0x810070A000000020 = some (.scan ⟨hd, 7, 5, 0, 0, 0, 0, 0x020⟩) := by decide +kernel
theorem test_decode_dispense : decode 0x8F00A06000000004 = some (.dispense ⟨hd, 10, 3, 0, 0, 0, 0, 4⟩) := by decide +kernel
theorem test_decode_rget : decode 0x8D80000000000002 = some (.rget ⟨hdU, 0, 0, 0, 2⟩) := by decide +kernel
-- CPY.g2s.uni v6, x8, v7, tb=2; MMA.uni v4, v5, tb=3, wait=tb1; SEMWAIT.eq v5, x8, v6; SEMPOST x8, v7 (12)
theorem test_decode_cpy : decode 0xA380241840700000 = some (.cpy ⟨hdU, 0, true, 2, 6, 8, 7, false, 0, 0⟩) := by decide +kernel
theorem test_decode_mma : decode 0xB180261028088000 = some (.mma ⟨hdU, 0, true, 3, 4, 5, 0, true, 1, 0⟩) := by decide +kernel
theorem test_decode_semwait : decode 0xA700401440600000 = some (.semwaitEq ⟨hd, 1, false, 0, 5, 8, 6, false, 0, 0⟩) := by decide +kernel
theorem test_decode_sempost : decode 0xA800000040700000 = some (.sempost ⟨hd, 0, false, 0, 0, 8, 7, false, 0, 0⟩) := by decide +kernel
-- TBINIT.uni tb=2, v9; TBWAIT tb=2; CVSCAN.draw.nz.uni v4, v5, tb=6; RECRUIT.addf.reissue v32, v33, v6, entry=+40 (12)
theorem test_decode_tbinit : decode 0xA980002400000002 = some (.tbinit ⟨hdU, 0, false, 0, 9, 0, 0, false, 0, 2⟩) := by decide +kernel
theorem test_decode_tbwait : decode 0xAA00000000000002 = some (.tbwait ⟨hd, 0, false, 0, 0, 0, 0, false, 0, 2⟩) := by decide +kernel
theorem test_decode_cvscan : decode 0xC2802C1028000000 = some (.cvscan ⟨hdU, 0, true, 6, 4, 5, 0, false, 0, 0⟩) := by decide +kernel
theorem test_decode_recruit : decode 0x8800608108600028 = some (.recruit ⟨hd, 1, true, 0, 32, 33, 6, false, 0, 0x28⟩) := by
  decide +kernel
-- ITER v40, p2; CONTRIB v41; RJOIN v7; MFS x6, %clock; MTS %fpf, v0; IFLUSH x8, 16; KPEND v5; MTS %sscr0, x2 (12, 18)
theorem test_decode_iter : decode 0x8902804000000000 = some (.iter ⟨hd, 40, 2, 0, 0, 0, 0, 0⟩) := by decide +kernel
theorem test_decode_contrib : decode 0x8A00052000000000 = some (.contrib ⟨hd, 0, 41, 0, 0, 0, 0, 0⟩) := by decide +kernel
theorem test_decode_rjoin : decode 0x8B00700000000000 = some (.rjoin ⟨hd, 7, 0, 0, 0⟩) := by decide +kernel
theorem test_decode_mfs : decode 0xD000001800060000 = some (.mfs ⟨hd, 0, 6, 0, 0x00C, 0⟩) := by decide +kernel
theorem test_decode_mts : decode 0xD100000000070000 = some (.mts ⟨hd, 0, 0, 0, 0x00E, 0⟩) := by decide +kernel
theorem test_decode_mts_sscr : decode 0xD100000010848000 = some (.mts ⟨hd, 0, 0, 2, 0x109, 0⟩) := by decide +kernel
theorem test_decode_iflush : decode 0xDA00000040000010 = some (.iflush ⟨hd, 0, 0, 8, 0, 16⟩) := by decide +kernel
theorem test_decode_kpend : decode 0xD800001400000000 = some (.kpend ⟨hd, 0, 5, 0, 0, 0⟩) := by decide +kernel

/-! ### Ill-formed terms: one for each check -/

-- G = 0 with N = 1
theorem test_refuse_guard : decode 0x1008508117E81400 = none := by decide +kernel
-- a reserved opcode; a header inside a block
theorem test_refuse_opcode : decode 0x3800000000000000 = none := by decide +kernel
theorem test_refuse_header : decode 0xF0500000C0006101 = none := by decide +kernel
-- MMA without U; WFI with mask 0; RECRUIT.addf with C = v0
theorem test_refuse_mma : decode 0xB100001028000000 = none := by decide +kernel
theorem test_refuse_wfi : legal (.wfi ⟨hd, 0, 5, 0, 0, 0⟩) = false := by decide
theorem test_refuse_recruit : legal (.recruit ⟨hd, 1, false, 0, 32, 33, 0, false, 0, 0x28⟩) = false := by decide
-- MTS %qprio with IMM 70; a 64-bit register with an odd field; a read-only register; a number not listed
theorem test_refuse_qprio : legal (.mts ⟨hd, 0, 0, 4, 0x200, 70⟩) = false := by decide
theorem test_refuse_odd : legal (.mfs ⟨hd, 0, 7, 0, 0x00C, 0⟩) = false := by decide
theorem test_refuse_ro : legal (.mts ⟨hd, 0, 0, 4, 0x000, 0⟩) = false := by decide
theorem test_refuse_unlisted : legal (.mfs ⟨hd, 0, 6, 0, 0x0FF, 0⟩) = false := by decide
-- LD128 v6; ST32.acq.grp; SETP.i32.nan; ADD.n32.u; SHI with amount 40; a descriptor of KIND 7; RGET without U
theorem test_refuse_ld128 : legal (.ld128 ⟨hd, 6, 2, 0, 0, 0, 0⟩) = false := by decide
theorem test_refuse_order : legal (.st32 ⟨hd, 6, 2, 0, 1, 1, 0⟩) = false := by decide
theorem test_refuse_setp : legal (.setp ⟨hd, 2, 4, 5, 0, 0, 0, 0x01C⟩) = false := by decide
theorem test_refuse_variant : legal (.add ⟨hd, 5, 6, 7, 0, 0, 0, 0x044⟩) = false := by decide
theorem test_refuse_shift : legal (.shi ⟨hd, 5, 6, 0, 40⟩) = false := by decide
theorem test_refuse_desc : legal (.fadd ⟨hd, 5, 6, 7, 0x1C0, 0, 0, 0x0C0⟩) = false := by decide
theorem test_refuse_rget : legal (.rget ⟨hd, 0, 0, 0, 2⟩) = false := by decide
-- a CPY with bit 45 clear and TB = 2; a branch with a landing tag; a core that does not exist
theorem test_refuse_tb : legal (.cpy ⟨hd, 0, false, 2, 6, 8, 7, false, 0, 0⟩) = false := by decide
theorem test_refuse_tag : legal (.bra ⟨hd, 4, 1, 0⟩) = false := by decide
theorem test_refuse_core : legal (.icacheFill 216 0 false) = false := by decide

/-! ### States for the witnesses: core 1 (or another), the threads given, an issue at 0x1010 -/

def hdrW : W64 := 0xF020050000000027
def th0 : Thread := { st := .live, pc := 0x1010, blk := some (0x1000, hdrW),
                      v := [(2, 0x40), (3, 9), (4, 3), (5, 0x80000000), (6, 0xC0), (8, 0x2000), (9, 1), (12, 0x101), (13, 7)] }
def coreOf (ts : Map Thread) : Core := { threads := ts }
def stOf (c : Nat) (k : Core) (set : List Nat) : State :=
  { State.reset with cores := [(c, k)], cur := { core := c, phrase := 0, pc := 0x1010, set := set, blk := some (0x1000, hdrW), last := true } }
def s0 : State := stOf 1 (coreOf [(0, th0)]) [0]

theorem runs {i : Instr} {o : OpSpec} {s : State} {t : Nat} (h : (legal i && s.lone o t) = true) : Runs i o s t := by
  simpa [Runs, WellFormed] using h

/-- Every instruction of the list runs with its operands. -/
theorem runsAll {l : List (Instr × OpSpec)} {s : State} {t : Nat} (h : l.all (fun p => legal p.1 && s.lone p.2 t) = true) :
    ∀ p ∈ l, Runs p.1 p.2 s t := fun p hp => runs (List.all_eq_true.mp h p hp)

def wf (fn : BitVec 10) : WForm := ⟨hd, 6, 2, 4, 0, 0, 0, fn⟩
def wf1 (fn : BitVec 10) : WForm := ⟨hd, 6, 2, 0, 0, 0, 0, fn⟩
def vf : VForm := ⟨hd, 6, 2, 4, 3, 0, 0, 0, 0⟩
def ifm (imm : BitVec 28) : IForm := ⟨hd, 6, 2, 0, imm⟩

/-- Headers: plain, return, trap entry, subordinate entry, tag 0x21, a reserved TAG, a wrong check. -/
def hPlain : W64 := 0xF020500000000080
def hRet : W64 := 0xF02FE0000000033C
def hTrap : W64 := 0xF02FC0000000041B
def hSub : W64 := 0xF02FD0000000000F
def hTag : W64 := 0xF0221000000002C0
def hRes : W64 := 0xF02F0000000000DF
def hBad : W64 := 0xF020500000000081
/-- The line of 0x1000: a block at 0x1000, headers from 0x1018 on. -/
def line0 : List W64 := [hPlain, 0, 0, hPlain, hRet, hTrap, hSub, hTag, hRes, hBad]
def k0 : Core := { coreOf [(0, th0)] with icache := [(0x10, line0)] }
def i64 : Inst := { w := 64 }
def i4 : Inst := { w := 4 }

theorem target {s : State} {pc : W64} {tag : Option Nat} (h : W64)
    (e : (decide (pc.toNat % 8 = 0) && s.curCore.fetch pc == some h && headerOk h == .ok && (match tag with | some x => hdrTag h == x | none => true)) = true) :
    Target s pc tag := by
  cases tag <;> simp only [Bool.and_eq_true, decide_eq_true_eq, beq_iff_eq] at e
  · exact ⟨e.1.1.1, h, e.1.1.2, e.1.2, by simp⟩
  · exact ⟨e.1.1.1, h, e.1.1.2, e.1.2, by rintro x ⟨⟩; exact e.2⟩

/-! ### Witnesses: arithmetic, logic, moves, floating point -/

/-- The types i32, n32, i64, n64, i16, n16, i8, n8, i16x2, i8x4 as FN[9:6]. -/
def intFn : List (BitVec 10) := [0x000, 0x040, 0x200, 0x240, 0x300, 0x340, 0x380, 0x3C0, 0x180, 0x1C0]

theorem wit_integer : ∀ p ∈ (intFn ++ intFn.map (· ||| 2)).flatMap (fun fn => [(Instr.add (wf fn), specW (wf fn) (wf fn).ty), (.sub (wf fn), specW (wf fn) (wf fn).ty),
    (.mul (wf fn), specW (wf fn) (wf fn).ty)]) ++ intFn.flatMap (fun fn => [(Instr.min (wf fn), specW (wf fn) (wf fn).ty), (.max (wf fn), specW (wf fn) (wf fn).ty),
    (.absd (wf fn), specW (wf fn) (wf fn).ty)]), Runs p.1 p.2 s0 0 := runsAll (by decide +kernel)
-- the high half of a product, signed and packed unsigned
theorem wit_mul_high : ∀ p ∈ [(Instr.mul (wf 0x008), specW (wf 0x008) 0), (.mul (wf 0x18C), specW (wf 0x18C) 6)], Runs p.1 p.2 s0 0 :=
  runsAll (by decide +kernel)
theorem wit_div_rem : ∀ p ∈ [0x000, 0x002, 0x040, 0x200, 0x202, 0x240].map (fun fn => (Instr.div (wf fn), specW (wf fn) (wf fn).ty)) ++
    [0x000, 0x040, 0x200, 0x240].map (fun fn => (Instr.rem (wf fn), specW (wf fn) (wf fn).ty)), Runs p.1 p.2 s0 0 := runsAll (by decide +kernel)
theorem wit_multiply_add : ∀ p ∈ [(Instr.mad vf, specV vf none none none), (.madhiI vf, specV vf (some 0) (some 0) (some 0)),
    (.madhiN vf, specV vf (some 1) (some 1) (some 1)), (.sad vf, specV vf none none none), (.addi (ifm 5), specI (ifm 5) none),
    (.muli (ifm 0x8000000), specI (ifm 0x8000000) none), (.addc (wf 0x008), specW (wf 0x008) 0), (.subb (wf 0x078), specW (wf 0x078) 1)], Runs p.1 p.2 s0 0 :=
  runsAll (by decide +kernel)
theorem wit_bitwise : ∀ p ∈ [0x080, 0x240].flatMap (fun fn =>
    let o : OpSpec := { specW (wf fn) (wf fn).ty with srcs := [(wf fn).srcA (nregs (wf fn).ty) none, (wf fn).srcB (nregs (wf fn).ty) none] }
    [(Instr.and (wf fn), o), (.or (wf fn), o), (.xor (wf fn), o), (.andn (wf fn), o)]) ++
    [(Instr.andi (ifm 9), specI (ifm 9) none), (.ori (ifm 9), specI (ifm 9) none), (.xori (ifm 9), specI (ifm 9) none)], Runs p.1 p.2 s0 0 :=
  runsAll (by decide +kernel)
theorem wit_shift : ∀ p ∈ [0x000, 0x040, 0x080, 0x180, 0x1C0, 0x200, 0x240].flatMap (fun fn =>
    let o := specW2 (wf fn) (nregs (wf fn).ty) (chk (wf fn).ty) 1 none (nregs (wf fn).ty)
    [(Instr.shl (wf fn), o), (.shr (wf fn), o), (.sar (wf fn), o), (.rotl (wf fn), o)]) ++
    [(Instr.shi (ifm 0x800001F), specI (ifm 0x800001F) none), (.funnel vf, specV vf none none none)], Runs p.1 p.2 s0 0 := runsAll (by decide +kernel)
theorem wit_bit_field : ∀ p ∈ [0x000, 0x040].map (fun fn => (Instr.bfx (wf fn), specW2 (wf fn) 1 (chk (wf fn).ty) 1 none 1)) ++
    [0x080, 0x084, 0x088, 0x08C, 0x240, 0x24C].map (fun fn =>
      (Instr.bitop (wf1 fn), specW1 (wf1 fn) (nregs (wf1 fn).ty) none (if (wf1 fn).var = 3 then nregs (wf1 fn).ty else 1))) ++
    [(.bfi vf, specV vf none none none), (.permb (wf 0), specW2 (wf 0) 1 none 1 none 1)], Runs p.1 p.2 s0 0 := runsAll (by decide +kernel)
-- words that are ILLEGAL under the rules of their opcodes: ADDC.b32, AND.i32, SHL.f32, SHI with bit 5, BFX.b32, BITOP with B, PERMB with FN
theorem wit_bad_words : let w : W64 := 0x1D00000000000080
    (w.extractLsb' 56 8 = 0x1D#8 ∧ w.extractLsb' 6 4 ≠ 0 ∧ w.extractLsb' 6 4 ≠ 1) ∧ ((0x2000000000000000 : W64).extractLsb' 6 4).toNat ∉ [2, 9] ∧
    ((0x24000000000000C0 : W64).extractLsb' 6 4).toNat ∉ [0, 1, 2, 6, 7, 8, 9] ∧ (0x2B00000000000020 : W64).extractLsb' 5 21 ≠ 0 ∧
    1 < ((0x2D00000000000080 : W64).extractLsb' 6 4).toNat ∧ (0x2F00000040000080 : W64).extractLsb' 30 7 ≠ 0 ∧ (0x3700000000000001 : W64).extractLsb' 0 10 ≠ 0 := by decide
def sp (fn : BitVec 10) : WForm := ⟨hd, 2, 2, 4, 0, 0, 0, fn⟩
theorem wit_setp : ∀ p ∈ [0x000, 0x044, 0x208, 0x24C, 0x310, 0x354, 0x380, 0x3C4, 0x080, 0x0D8, 0x29C, 0x2C8].map (fun fn =>
    (Instr.setp (sp fn), { specW (sp fn) (sp fn).ty with dsts := [] })), Runs p.1 p.2 s0 0 := runsAll (by decide +kernel)
theorem wit_setpi : ∀ p ∈ [0x0480005, 0x5900005].map (fun imm => (Instr.setpi ⟨hd, 0, 2, 0, imm⟩,
    ({ h := hd, srcs := [(⟨hd, 0, 2, 0, imm⟩ : IForm).srcA (some (if imm.getLsbD 20 then 1 else 0))] } : OpSpec))), Runs p.1 p.2 s0 0 :=
  runsAll (by decide +kernel)
theorem wit_plogic_sel : ∀ p ∈ [(Instr.plogic (sp 0x020), ({ h := hd } : OpSpec)),
    (.sel vf, { h := hd, edge := 0, srcs := [vf.srcA 1 none, vf.srcB 1 none], dsts := [dstD 6 1] })], Runs p.1 p.2 s0 0 := runsAll (by decide +kernel)
theorem wit_pmov : ∀ p ∈ [(Instr.pmov (wf1 0x000), ({ h := hd, dsts := [dstD 6 1] } : OpSpec)),
    (.pmov (wf1 0x004), { h := hd, srcs := [(wf1 0x004).srcA 1 none] }), (.pmov ⟨hd, 6, 0, 0, 0, 0, 0, 0x008⟩, { h := hd, dsts := [dstD 6 1] }),
    (.pmov ⟨hd, 0, 2, 0, 0, 0, 0, 0x00C⟩, { h := hd, srcs := [(wf1 0x00C).srcA 1 none] })], Runs p.1 p.2 s0 0 := runsAll (by decide +kernel)
theorem wit_moves : ∀ p ∈ [(Instr.nop ⟨hd, 0, 0, 0, 0, 0, 0, 0, 0⟩, ({ h := hd } : OpSpec)), (.movi ⟨hd, 6, 0, 0, 0xFC00000⟩, { h := hd, dsts := [dstD 6 1] }),
    (.movih (ifm 3), specI (ifm 3) none), (.lea (wf 0x040), specW2 (wf 0x040) 1 (chk 1) 1 none 1), (.lea (wf 0x250), specW2 (wf 0x250) 2 (chk 9) 1 none 2),
    (.mov (wf1 0), specW1 (wf1 0) 1 none 1), (.mov (wf1 4), specW1 (wf1 4) 1 none 1), (.tagset (wf1 0x0C0), specW1 (wf1 0x0C0) 1 none 1),
    (.tagget (wf1 0), specW1 (wf1 0) 1 none 1), (.movx (wf1 0), specW1 (wf1 0) 2 none 2), (.movx (wf1 4), specW1 (wf1 4) 2 none 2)], Runs p.1 p.2 s0 0 :=
  runsAll (by decide +kernel)
theorem wit_float : ∀ p ∈ [0x0C0, 0x28C, 0x2C4].flatMap (fun fn => [(Instr.fadd (wf fn), specW (wf fn) (wf fn).ty), (.fsub (wf fn), specW (wf fn) (wf fn).ty),
    (.fmul (wf fn), specW (wf fn) (wf fn).ty)]) ++ [0x0C0, 0x280, 0x2C0].flatMap (fun fn => [(Instr.fmin (wf fn), specW (wf fn) (wf fn).ty),
    (.fmax (wf fn), specW (wf fn) (wf fn).ty), (.funary (wf1 fn), specW1 (wf1 fn) 1 (some (wf1 fn).ty) 1), (.fclass (wf1 fn), specW1 (wf1 fn) 1 (some (wf1 fn).ty) 1)]) ++
    [(.ffma vf, specV vf (some 3) (some 3) (some 3)), (.fmuli (ifm 0x3700000), specI (ifm 0x3700000) (some 3)),
     (.funary (wf1 0x110), specW1 (wf1 0x110) 1 (some 4) 1), (.fspecial (wf1 0x0D8), specW1 (wf1 0x0D8) 1 (some 3) 1)], Runs p.1 p.2 s0 0 := runsAll (by decide +kernel)
theorem wit_packed : ∀ p ∈ [0x100, 0x140].flatMap (fun fn => [(Instr.hadd2 (wf fn), specW (wf fn) (wf fn).ty), (.hmul2 (wf fn), specW (wf fn) (wf fn).ty),
    (.hmin2 (wf fn), specW (wf fn) (wf fn).ty), (.hmax2 (wf fn), specW (wf fn) (wf fn).ty)]) ++
    [(.hfma2 vf, specV vf (some 4) (some 4) (some 4)), (.bfma2 vf, specV vf (some 5) (some 5) (some 5)), (.hdot2 vf, specV vf (some 4) (some 4) (some 3)),
     (.bdot2 vf, specV vf (some 5) (some 5) (some 3)), (.idot4 vf, specV vf (some 7) (some 7) (some 0)), (.idot4n vf, specV vf (some 7) (some 7) (some 1))],
    Runs p.1 p.2 s0 0 := runsAll (by decide +kernel)
-- a quiet and a signalling NaN, infinities of both signs, zero, in f32, f16 and bf16
theorem wit_special_operands : (f32.unpack 0x7FC00001).isNaN = true ∧ (f16.unpack 0x7C01).isSNaN = true ∧ (bf16.unpack 0x3F80).isNaN = false ∧
    f32.unpack 0x7F800000 = .inf false ∧ f32.unpack 0xFF800000 = .inf (!false) ∧ (bf16.unpack 0x7F80).isInf = true ∧ (bf16.unpack 0x8000).isZero = true := by
  decide +kernel
theorem wit_representable : (f32.unpack 1).isNaN = false ∧ (f16.unpack 0xFBFF).isNaN = false ∧ (bf16.unpack 0x8000).isNaN = false := by decide +kernel
-- CVT between two integers, an integer and a float both ways, two floats
theorem wit_cvt : ∀ p ∈ [0x001, 0x0C0, 0x00C, 0x28E, 0x240].map (fun fn =>
    (Instr.cvt (wf1 fn), specW1 (wf1 fn) (nregs (wf1 fn).var) (some (wf1 fn).var) (nregs (wf1 fn).ty))), Runs p.1 p.2 s0 0 := runsAll (by decide +kernel)
theorem wit_pack2 : ∀ p ∈ [(0x100, 3), (0x148, 3), (0x180, 0), (0x1C0, 6), (0x182, 0), (0x1C2, 6)].map (fun x =>
    (Instr.pack2 (wf x.1), specW2 (wf x.1) 1 (some x.2) 1 (some x.2) 1)), Runs p.1 p.2 s0 0 := runsAll (by decide +kernel)
theorem wit_unpack : ∀ p ∈ [0x104, 0x140, 0x1A4, 0x1CC].map (fun fn => (Instr.unpack (wf1 fn), specW1 (wf1 fn) 1 (some (wf1 fn).ty) 1)), Runs p.1 p.2 s0 0 :=
  runsAll (by decide +kernel)
theorem wit_bfp : ∀ p ∈ [(Instr.bfpd (wf 0x100), specW2 (wf 0x100) 1 (some 0) 1 (some 1) 1), (.bfpd (wf 0x218), specW2 (wf 0x218) 1 (some 0) 1 (some 1) 1),
    (.bfpq (wf1 0x100), specW1 (wf1 0x100) 1 (some 3) 1), (.bfpq (wf1 0x204), specW1 (wf1 0x204) 1 (some 3) 1)], Runs p.1 p.2 s0 0 := runsAll (by decide +kernel)
-- one NaN on either side; 0 × ∞ and ∞ × 0 beside a NaN; a product and an addend that are opposite infinities
theorem wit_special_orders : ((f32.unpack 0x3F800000).isNaN = false ∧ (f32.unpack 0x7FC00000).isNaN = true) ∧ (bf16.unpack 0x7F81).isSNaN = true ∧
    ((f16.unpack 0).isZero = true ∧ (f16.unpack 0xFC00).isInf = true) ∧ f32.unpack 0xFF800000 = .inf true ∧
    (((f32.unpack 0xBF800000).mul (f32.unpack 0x7F800000)).1 = .inf true ∧ f32.unpack 0x7F800000 = .inf (!true)) := by decide +kernel
-- FUNARY and FCLASS: a quiet and a signalling NaN, an infinity, integers, halves that tie, the smallest value
theorem wit_unary_operands : f32.unpack 0x7FC00000 = .nan false ∧ f16.unpack 0x7C01 = .nan true ∧ bf16.unpack 0xFF80 = .inf true ∧
    f32.unpack 0x4B800000 = .fin false 0x800000 1 ∧ f32.unpack 0x3F000000 = .fin false 0x800000 (-24) ∧ f16.unpack 0x8001 = .fin true 1 (-24) ∧
    fields f32 0xFF800001 = (true, 255, 1) ∧ fields bf16 0x8000 = (true, 0, 0) := by decide +kernel
-- FSPECIAL: NaN operands, and negative ones of the three operations that refuse them
theorem wit_special_function : f32.unpack 0x7F800001 = .nan true ∧ f32.unpack 0xFFC00000 = .nan false ∧
    ∀ n ∈ [0xFF800000, 0xBF800000, 0x80000001], let a := BitVec.ofNat 32 n
      (f32.unpack a).isNaN = false ∧ (f32.unpack a).isZero = false ∧ a.msb = true := by decide +kernel
-- HDOT2 with 0 × ∞ in either product, and with opposite infinities beside a NaN
theorem wit_dot_invalid : ((f16.unpack 0x7C00).mul (f16.unpack 0)).2 = true ∧ ((bf16.unpack (0x7F800000 >>> 16)).mul (bf16.unpack 0)).2 = true ∧
    (let xs := [((f16.unpack 0x7C00).mul (f16.unpack 0x3C00)).1, ((f16.unpack (0xFC000000 >>> 16)).mul (f16.unpack 0x3C00)).1, f32.unpack 0x7FC00000]
     FVal.inf true ∈ xs ∧ FVal.inf false ∈ xs ∧ xs.any FVal.isNaN = true) := by decide +kernel
-- BFPQ of lanes 0, 1 and 32 of a segment of 64: two blocks; the scales of R61
def sBq : State := stOf 1 { coreOf [(0, th0), (1, th0), (32, th0)] with inst := some i64 } [0, 1, 32]
theorem wit_bfpq_block : sBq.cur.set.Nodup ∧ ∀ fn ∈ [0x100, 0x204], legal (.bfpq (wf1 (BitVec.ofNat 10 fn))) = true ∧
    ∀ t ∈ sBq.cur.set, sBq.ready1 (specW1 (wf1 (BitVec.ofNat 10 fn)) 1 (some 3) 1) t = true := by decide +kernel
theorem wit_bfp_scale : let xs : List FVal := [.fin false 3 0, .fin true 1 0, .fin false 0 0]
    xs.any FVal.isNaN = false ∧ xs.any FVal.isInf = false ∧ FVal.fin false 3 0 ∈ xs ∧ -1000 ≤ (0 : Int) + (Nat.log2 3 : Int) ∧
    xs.all (fun y => match y with | .fin _ a b => a == 0 || decide (b + (Nat.log2 a : Int) ≤ 0 + (Nat.log2 3 : Int)) | _ => true) = true ∧
    [FVal.fin false 0 5].all FVal.isZero = true ∧ [FVal.inf true].any FVal.isInf = true ∧ [FVal.nan false].any FVal.isNaN = true := by decide +kernel

/-! ### Witnesses: operands, issues, control, traps -/

/-- Threads 0 to 3 of a segment of 4. -/
def k4 : Core := { coreOf [(0, th0), (1, th0), (2, th0), (3, th0)] with inst := some i4 }
-- one descriptor of each kind; for `sh`, `bc` and `ix` the last lane inside the segment and the first outside it, on both sides
theorem wit_routes : k4.segW ≠ 0 ∧ laneOf 0 % k4.segW = 0 ∧ laneOf 3 % k4.segW = 3 ∧
    ((0x041 : BitVec 9).extractLsb' 6 3).toNat = 1 ∧ ((0x081 : BitVec 9).extractLsb' 6 3).toNat = 2 ∧ ((0x081 : BitVec 9).extractLsb' 0 6).toInt = 1 ∧
    ((0x0BF : BitVec 9).extractLsb' 0 6).toInt = -1 ∧ ((0x0C3 : BitVec 9).extractLsb' 6 3).toNat = 3 ∧ ((0x0C3 : BitVec 9).extractLsb' 0 6).toNat < k4.segW ∧
    k4.segW ≤ ((0x0C4 : BitVec 9).extractLsb' 0 6).toNat ∧ ((0x103 : BitVec 9).extractLsb' 6 3).toNat = 4 ∧ ((0x149 : BitVec 9).extractLsb' 6 3).toNat = 5 ∧
    (k4.readReg 0 9).1.toNat < k4.segW ∧ k4.segW ≤ (k4.readReg 0 2).1.toNat ∧ ((0x182 : BitVec 9).extractLsb' 6 3).toNat = 6 := by decide +kernel

def sub1 : Sub := { rid := 0, num := 1, lend := none, entry := 0x1000, prev := .exited }
/-- Thread 0 with a subordinate at context 64. -/
def kSub : Core := { coreOf [(0, th0), (64, { th0 with sub := some sub1 })] with
                     recs := [(0, { live := true, tid := 0, op := 2, count := 9, next := 1 })] }
theorem wit_register_reads : k0.live 0 = true ∧ (k0.thread 0).sub = none ∧ 31 < 32 + 32 * (k0.phrase (phraseOf 0)).xlev.toNat ∧ k0.live 7 = false ∧
    kSub.live 64 = true ∧ (kSub.thread 64).sub = some sub1 := by decide +kernel

/-- Threads 0 and 1 of a segment of 64: A holds an index in v9, v2 and v4 differ between them, v3 does not. -/
def s2 : State := stOf 1 { coreOf [(0, th0), (1, { th0 with v := [(2, 0x41), (3, 9), (4, 1)] })] with inst := some i64 } [0, 1]
/-- One instruction of each form of `EveryForm`, under the head `h` and the descriptors `a` of A and `b` of B. -/
def everyForm (h : Head) (a b : BitVec 9) : List (Instr × OpSpec) :=
  let w (fn : BitVec 10) : WForm := ⟨h, 6, 2, 4, a, b, 0, fn⟩
  let v : VForm := ⟨h, 6, 2, 4, 3, a, b, 0, 0⟩
  let i : IForm := ⟨h, 6, 2, a, 9⟩
  let m : WForm := ⟨h, 6, 2, 0, a, 0, 0, 4⟩
  [(.add (w 0x000), specW (w 0x000) 0), (.add (w 0x040), specW (w 0x040) 1), (.sub (w 0x200), specW (w 0x200) 8), (.sub (w 0x240), specW (w 0x240) 9),
   (.mad v, specV v none none none), (.addi i, specI i none), (.mov m, specW1 m 1 none 1)]
-- a shift and a broadcast; IX on both sides
theorem wit_exchange : s2.cur.set.Nodup ∧ ∀ d ∈ ([(0x101, 0x040), (0x149, 0x149)] : List (Nat × Nat)), ∀ p ∈ everyForm hd (BitVec.ofNat 9 d.1) (BitVec.ofNat 9 d.2),
    p.2.h.u = false ∧ legal p.1 = true ∧ s2.cur.set.all (s2.ready1 p.2) = true := by decide +kernel

def sU (u : Bool) : State := stOf 1 { s2.curCore with inst := some { i64 with unichk := u } } [0, 1]
/-- Under U: A is v`a`, the other sources are v3, equal in the two threads. -/
def uniform (a : BitVec 7) (d : BitVec 9) : List (Instr × OpSpec) :=
  let w (fn : BitVec 10) : WForm := ⟨hdU, 6, a, 3, d, 0, 0, fn⟩
  let v : VForm := ⟨hdU, 6, 3, 3, a, d, 0, 1, 0⟩
  let i : IForm := ⟨hdU, 6, a, d, 9⟩
  let m : WForm := ⟨hdU, 6, a, 0, d, 0, 0, 4⟩
  [(.add (w 0x000), specW (w 0x000) 0), (.mad v, specV v none none none), (.addi i, specI i none), (.mov m, specW1 m 1 none 1)]
def srcOf (u : Bool) (o : OpSpec) (x j : Nat) : List W32 := ((o.vals (sU u).curCore x).getD j []).map (·.1)
-- equal sources, of one register and of a pair, the lane of a broadcast; sources that differ: the first of them, or the last of MAD
theorem wit_uniform : [0, 1].Nodup ∧ ∀ u : Bool, (sU u).cur.set = 0 :: [1] ∧ (sU u).curCore.unichk = u ∧ laneOf 1 / (sU u).curCore.segW = laneOf 0 / (sU u).curCore.segW ∧
    (∀ p ∈ uniform 10 0 ++ uniform 2 0x0C0 ++ [(.sub ⟨hdU, 6, 10, 10, 0, 0, 0, 0x200⟩, specW ⟨hdU, 6, 10, 10, 0, 0, 0, 0x200⟩ 8)],
      p.2.h.u = true ∧ legal p.1 = true ∧ [0, 1].all ((sU u).ready1 p.2) = true ∧ ∀ j < p.2.srcs.length, srcOf u p.2 1 j = srcOf u p.2 0 j) := by decide +kernel
theorem wit_uniform_differs : ∀ u : Bool, ∀ q ∈ [(0, 2), (1, 2), (2, 2), (3, 2)], let p := (uniform 2 0).getD q.1 (.nop ⟨hd, 0, 0, 0, 0, 0, 0, 0, 0⟩, { h := hd })
    let j := if q.1 = 1 then 2 else 0
    p.2.h.u = true ∧ legal p.1 = true ∧ [0, 1].all ((sU u).ready1 p.2) = true ∧ j < p.2.srcs.length ∧ (∀ i < j, srcOf u p.2 1 i = srcOf u p.2 0 i) ∧ srcOf u p.2 1 j ≠ srcOf u p.2 0 j := by
  decide +kernel

-- the guard false; then a register above the level in A, in the index of A, in B, in C, in D; a descriptor beyond the segment on A, on B
theorem wit_checks : (stOf 1 k4 [0]).cur.set = [0] ∧ [1, 2, 4, 8, 16, 32, 64].contains k4.segW = true ∧ ((stOf 1 k4 [0]).curThread 0).kept = none ∧
    ∀ d ∈ ([(0, 0), (0x160, 0), (0, 0x160), (0x104, 0), (0, 0x183)] : List (Nat × Nat)), ∀ g ∈ [0, 1], (everyForm ⟨false, BitVec.ofNat 3 g, false⟩ (BitVec.ofNat 9 d.1) (BitVec.ofNat 9 d.2)).all
      (fun p => legal p.1) = true := by decide +kernel
theorem wit_checks_names : let f (d a b c : BitVec 7) : List (Instr × OpSpec) := [(.add ⟨hd, d, a, b, 0, 0, 0, 0⟩, specW ⟨hd, d, a, b, 0, 0, 0, 0⟩ 0),
      (.sub ⟨hd, d, a, b, 0, 0, 0, 0x240⟩, specW ⟨hd, d, a, b, 0, 0, 0, 0x240⟩ 9), (.mad ⟨hd, d, a, b, c, 0, 0, 0, 0⟩, specV ⟨hd, d, a, b, c, 0, 0, 0, 0⟩ none none none)]
    (f 6 32 4 2 ++ f 6 2 32 4 ++ f 6 2 4 32 ++ f 32 2 4 2 ++ [(Instr.addi ⟨hd, 6, 32, 0, 0⟩, specI ⟨hd, 6, 32, 0, 0⟩ none), (Instr.mov ⟨hd, 32, 2, 0, 0, 0, 0, 0⟩, specW1 ⟨hd, 32, 2, 0, 0, 0, 0, 0⟩ 1 none 1)]).all
      (fun p => legal p.1) = true ∧ (k4.thread 0).pred 1 = false ∧ k4.canRead 0 32 = false ∧ k4.canRead 0 31 = true ∧ k4.canWrite 0 32 = false ∧ k4.canWrite 0 31 = true ∧
    routeBad k4.segW 0x104 = true ∧ routeBad k4.segW 0x103 = false ∧ routeBad k4.segW 0x183 = true ∧ ixReg 0x104 = none ∧ ixReg 0x160 = some 32 := by decide +kernel
def sT (v : Map Tag) : State := stOf 1 { coreOf [(0, { th0 with tags := v })] with inst := some { i64 with tagchk := true } } [0]
theorem wit_tags : ∀ v ∈ ([[(2, 3)], [(4, 1)], [(2, 0), (4, 3)]] : List (Map Tag)), (sT v).cur.set = [0] ∧ legal (.add (wf 0)) = true ∧ (sT v).curCore.tagchk = true ∧
    (sT v).ready1 { specW (wf 0) 0 with srcs := (specW (wf 0) 0).srcs.map (fun x => { x with ty := none }) } 0 = true := by decide +kernel

-- headers: right, of the wrong form, with a wrong check, reserved
theorem wit_headers : headerOk hPlain = .ok ∧ headerOk hTrap = .ok ∧ headerOk 0x7020500000000000 = .bad ∧ headerOk hBad = .bad ∧ headerOk hRes = .reserved := by
  decide +kernel

def sC : State := stOf 1 { k0 with threads := [(0, { th0 with lk := 0x1020, v := [(8, 0x1038)], hold0 := 0x2000 })] } [0]
def cf (off : BitVec 24) : CForm := ⟨hd, off, 0, 0⟩
def cx (tag : BitVec 8) : CForm := ⟨hd, 0, tag, 8⟩
theorem wit_transfers : ∀ p ∈ [(Instr.bra (cf 1), transferSpec (cf 1) false), (.call (cf 1), transferSpec (cf 1) false), (.ret (cf 0), transferSpec (cf 0) false),
    (.jmpi (cx 0x21), transferSpec (cx 0x21) true), (.calli (cx 0x21), transferSpec (cx 0x21) true)], Runs p.1 p.2 sC 0 := runsAll (by decide +kernel)
theorem wit_targets : Target sC (sC.cur.pc + BitVec.ofInt 64 (8 * (cf 1).off.toInt)) none ∧ (sC.curThread 0).lk ≠ 0 ∧ Target sC (sC.curThread 0).lk (some 0xFE) ∧
    Target sC ((transferSpec (cx 0x21) true).opnd sC 0 0).x (some 0x21) :=
  ⟨target hPlain (by decide +kernel), by decide +kernel, target hRet (by decide +kernel), target hTag (by decide +kernel)⟩
-- targets that trap: a wrong check, a reserved TAG, another tag, an odd address, %lk = 0
def sX (a lk : W64) : State := stOf 1 { k0 with threads := [(0, { th0 with lk := lk, v := [(8, a.setWidth 32)] })] } [0]
theorem wit_bad_targets : (∀ p ∈ [(Instr.bra (cf 7), transferSpec (cf 7) false), (.call (cf 6), transferSpec (cf 6) false), (.ret (cf 0), transferSpec (cf 0) false),
      (.jmpi (cx 0x22), transferSpec (cx 0x22) true), (.calli (cx 5), transferSpec (cx 5) true)], Runs p.1 p.2 (sX 0x1019 0) 0) ∧
    (sX 0x1019 0).curCore.fetch 0x1048 = some hBad ∧ (sX 0x1019 0).curCore.fetch 0x1040 = some hRes ∧
    ((transferSpec (cx 5) true).opnd (sX 0x1019 0) 0 0).x.toNat % 8 ≠ 0 ∧ ((sX 0 0).curThread 0).lk = 0 ∧ ((sX 0 0x1018).curThread 0).lk ≠ 0 ∧ hdrTag hTag ≠ 0x22 :=
  ⟨runsAll (by decide +kernel), by decide +kernel, by decide +kernel, by decide +kernel, by decide +kernel, by decide +kernel, by decide +kernel⟩

def sD : State :=
  let k : Core := { coreOf [(0, { th0 with grp := some 3 }), (1, { th0 with grp := some 3, p := 3 })] with inst := some i64, icache := [(0x10, line0)] }
  { stOf 1 k [0, 1] with cur := { core := 1, pc := 0x1010, set := [0, 1], blk := some (0x1000, 0xF0205000400000C0), last := true } }
theorem wit_diverging : let f : CForm := ⟨⟨false, 1, false⟩, 2, 0, 0⟩
    (legal (.bra f) = true ∧ f.h.u = false ∧ sD.cur.last = true ∧ sD.cur.set.Nodup ∧ sD.cur.pc + BitVec.ofInt 64 (8 * f.off.toInt) ≠ sD.cur.pc + 8) ∧
      Target sD (sD.cur.pc + BitVec.ofInt 64 (8 * f.off.toInt)) none := ⟨by decide +kernel, target hRet (by decide +kernel)⟩

theorem wit_thread_control : ∀ p ∈ [(Instr.exit (cf 0), { CForm.spec (cf 0) false with endsBlock := true }), (.yield (cf 0), { CForm.spec (cf 0) false with endsBlock := true }),
    (.holdx (cf 0), { CForm.spec (cf 0) false with endsBlock := true }), (.sleep ⟨hd, 0, 0, 0, 0⟩, { h := hd }), (.sleep ⟨hd, 0, 0, 0, 9⟩, { h := hd }),
    (.trap ⟨hd, 0, 0, 0, 42⟩, { h := hd }), (.brk ⟨hd, 0, 0, 0, 42⟩, { h := hd })], Runs p.1 p.2 sC 0 := runsAll (by decide +kernel)
theorem wit_exit : (sC.curThread 0).sub = none ∧ sC.curCore.principalRec 0 = none ∧ sC.curCore.threads.map (·.1) = [0] ∧
    ∀ u, u ≠ 0 → phraseOf u = phraseOf 0 → sC.curCore.live u = false ∨ (sC.curCore.thread u).sub.isSome := by
  refine ⟨by decide +kernel, by decide +kernel, by decide +kernel, fun u h _ => Or.inl ?_⟩
  cases u with
  | zero => exact absurd rfl h
  | succ n => rfl
def exitRuns (t : Nat) (k : Core) : Bool := legal (.exit (cf 0)) && (stOf 1 k [t]).lone { CForm.spec (cf 0) false with endsBlock := true } t
-- a principal whose subordinates have gone, and one that has one; a subordinate without an iteration, and with one
theorem wit_exit_principal : let k : Core := { kSub with threads := [(0, th0)] }
    exitRuns 0 k = true ∧ (k.thread 0).sub = none ∧ k.principalRec 0 = some 0 ∧ k.hasSubs 0 = false ∧ exitRuns 0 kSub = true ∧ kSub.principalRec 0 = some 0 ∧ kSub.hasSubs 0 = true := by
  decide +kernel
theorem wit_exit_subordinate : ∀ it ∈ [none, some 0], let k : Core := { kSub with threads := [(0, th0), (64, { th0 with sub := some sub1, iter := it })], window := [(0, { st := 1 })] }
    exitRuns 64 k = true ∧ (k.thread 64).sub = some sub1 ∧ (k.thread 64).iter = it ∧ (k.win 0).rid = sub1.rid := by decide +kernel
-- barrier 0 of the group that thread 0 leaves: every other member has arrived and waits, or not
theorem wit_exit_barrier : ∀ b, let k : Core := { coreOf [(0, { th0 with grp := some 3 }), (1, { th0 with grp := some 3, arr0 := b, block := some (.bar 0 0), wrec := some { bar := 0, grp := 3, gen := false, pc := 0x1010 } })] with
      inst := some i64, groups := [(3, { members := [0, 1] })] }
    let ms := (k.group 3).members.filter (fun m => m != 0)
    exitRuns 0 k = true ∧ (k.thread 0).grp = some 3 ∧ ms ≠ [] ∧ ms.all (fun u => (k.thread u).arr0) = b ∧ (k.live 1 = true ∧ k.barGen 3 0 = false ∧ (k.thread 1).block = some (.bar 0 0)) := by decide +kernel

/-- One thread that stands at a block header and waits. -/
def sW (w : Option Wait) (h : Nat) : State := stOf 1 { coreOf [(0, { th0 with pc := 0x2000, blk := none, hold0 := 0x2000, heldFor := h, block := w, waitFor := 99 })] with
  inst := some i64, clock := 50, phrases := [(0, { segWait := [(0, 20)] })] } [0]
theorem wit_waits : let th (s : State) : Thread := (s.core 1).thread 0
    (th (sW (some (.sleep 50)) 0)).block = some (.sleep 50) ∧ 50 ≤ ((sW none 0).core 1).clock ∧ ((sW none 0).core 1).clock < 51 ∧
    (th (sW (some (.yield 51)) 0)).block = some (.yield 51) ∧ (th (sW none 257)).st = .live ∧ (th (sW none 257)).hold0 ≠ 0 ∧
    (th (sW none 257)).pc = (th (sW none 257)).hold0 ∧ (th (sW none 257)).blk = none ∧ 256 < (th (sW none 257)).heldFor := by decide +kernel
theorem wit_hold_timeout : let k : Core := { coreOf [(0, { th0 with pc := 0x1018, blk := none, hold0 := 0x1018, heldFor := 257 })] with icache := [(0x10, line0)] }
    (k.thread 0).st = .live ∧ (k.thread 0).hold0 ≠ 0 ∧ (k.thread 0).pc = (k.thread 0).hold0 ∧ (k.thread 0).pc.toNat % 8 = 0 ∧ k.fetch (k.thread 0).pc = some hPlain ∧
    headerOk hPlain ≠ .bad ∧ 256 < (k.thread 0).heldFor := by decide +kernel
/-- A thread that nothing holds. -/
def sG (segs : Map Nat) : State := stOf 1 { coreOf [(0, { th0 with waitFor := 99 })] with inst := some i64, phrases := [(0, { segWait := segs })] } [0]
theorem wit_guards : (sG [(0, 20)]).nextPhrase 1 0 = some (0, [0]) ∧ ((sG [(0, 20)]).core 1).segGuard 0 [0] = some 0x1010 ∧
    (((sG [(0, 20)]).core 1).beforeIssue 0).segGuard 0 [0] = some 0x1010 ∧ (sG []).nextPhrase 1 0 = some (0, [0]) ∧ ((sG []).core 1).segGuard 0 [0] = none ∧
    ((sG []).core 1).ageGuard [0] = some 0x1010 ∧ (((sG []).core 1).beforeIssue 0).segGuard 0 [0] = none ∧
    (((sG []).core 1).beforeIssue 0).ageGuard [0] = some 0x1010 := by decide +kernel

-- a thread that computes, and one that waits for the order of an acquire
theorem wit_trap : (1 < 208) ∧ ((s0.core 1).thread 0).sub = none ∧ let s := stOf 1 (coreOf [(0, { th0 with block := some (.order 4) })]) [0]
    ((s.core 1).thread 0).sub = none ∧ ((s.core 1).thread 0).block = some (.order 4) := by decide +kernel
theorem wit_bad_vector : let s : State := { s0 with cores := [(1, { k0 with threads := [(0, { th0 with pc := 0x1018, blk := none, vec := true })] })] }
    let p : Port := { core := 1, pc := 0x1018, set := [0] }
    p.set = [0] ∧ p.blk = none ∧ p.pc = ((s.core 1).thread 0).pc ∧ ((s.core 1).thread 0).blk = none ∧ ((s.core 1).thread 0).vec = true ∧ s.ready 1 0 = true ∧
    p.pc.toNat % 8 = 0 ∧ (s.core 1).fetch p.pc = some hPlain ∧ ¬(headerOk hPlain = .ok ∧ hdrTag hPlain = 0xFC ∧ hdrKind hPlain = 4) := by decide +kernel
def sE (th : Thread) : State := stOf 1 { k0 with threads := [(0, { th with level := .sl })] } [0]
theorem wit_eret : ∀ th ∈ [{ th0 with tlev := 2 }, { th0 with tpc := 0x1001 }, { th0 with tpc := 0x1018 }, { th0 with tpc := 0x1018, preempt := some 9 }],
    Runs (.eret ⟨hd, 0, 0, 0, 0, 0⟩) { h := hd, avail := .sl, endsBlock := true } (sE th) 0 := fun th h => runs (by revert th; decide +kernel)
theorem wit_eret_targets : (sE th0).curCore.fetch 0x1018 = some hPlain ∧ hPlain.extractLsb' 60 4 = 15#4 ∧ (0x1001 : W64).toNat % 8 ≠ 0 ∧
    ((sE { th0 with tpc := 0x1018, preempt := some 9 }).curThread 0).preempt = some 9 := by decide +kernel
-- %tpc at an instruction word: the second word of a block, a word beyond its block, a word after a header that is not right
theorem wit_eret_block : ∀ n ∈ [0x1008, 0x1010, 0x1050], let th := { th0 with tpc := BitVec.ofNat 64 n, level := .sl }
    let k : Core := { k0 with threads := [(0, th)], icache := [(0x10, line0 ++ [0, 0])] }
    (legal (.eret ⟨hd, 0, 0, 0, 0, 0⟩) && (stOf 1 k [0]).lone { h := hd, avail := .sl, endsBlock := true } 0) = true ∧ th.tlev.toNat ≤ 1 ∧ th.preempt = none ∧ th.wdog = none ∧
    k.fetch th.tpc = some 0 ∧ (k.fetch (if n = 0x1050 then 0x1048 else 0x1000) = some (if n = 0x1050 then hBad else hPlain)) := by decide +kernel
theorem wit_eret_beyond : let k : Core := { k0 with icache := [(0x10, [hPlain, 0, 0, 0])] }
    k.fetch 0x1018 = some 0 ∧ k.fetch 0x1010 = some 0 ∧ k.fetch 0x1008 = some 0 ∧ k.fetch 0x1000 = some hPlain ∧ (hPlain.extractLsb' 52 8).toNat < 3 := by decide +kernel
theorem wit_subordinate_trap : (kSub.thread 64).sub = some sub1 ∧ (kSub.thread 64).iter = none ∧ (kSub.thread 64).block = none ∧
    (0x1000 : W64).toNat ≤ (0x1010 : W64).toNat ∧ (kSub.rcd 0).failed = false := by decide +kernel

/-! ### Witnesses: groups, barriers, recruitment, dispensers -/

theorem lastArrives {s : State} {t g : Nat} {ms : List Nat} {op : Nat} {fn : BitVec 10} (h : (let k := s.curCore
      decide (s.cur.core < 208 ∧ (k.thread t).sub = none ∧ (k.thread t).grp = some g ∧ (k.thread t).arrC = false ∧ (k.thread t).collRes = none ∧
        (k.group g).members = ms ∧ ms.length ≤ 2048 ∧ ms.Nodup ∧ t ∈ ms ∧ (k.group g).coll = some { op := op, fn := fn }) &&
      ms.all (fun u => u == t || ((k.thread u).arrC && !(k.thread u).arrN && (match (k.thread u).block with | some (.coll _) => true | _ => false)))) = true) :
    LastArrives s t g ms op fn := by
  simp only [Bool.and_eq_true, decide_eq_true_eq, List.all_eq_true, Bool.or_eq_true, beq_iff_eq] at h
  obtain ⟨⟨h1, h2, h3, h4, h5, h6, h7, h8, h9, h10⟩, h11⟩ := h
  refine ⟨h1, h2, h3, h4, h5, h6, h7, h8, h9, Or.inl h10, fun u hu hne => ?_⟩
  have := (h11 u hu).resolve_left hne
  refine ⟨this.1.1, by simpa using this.1.2, ?_⟩
  have h12 := this.2
  split at h12
  · exact ⟨_, ‹_›⟩
  · cases h12

/-- Threads 0 and 1 of group 3; thread 1 has arrived at the collective. -/
def sV (op : Nat) (fn : BitVec 10) : State :=
  stOf 1 { coreOf [(0, { th0 with grp := some 3 }), (1, { th0 with grp := some 3, arrC := true, tcval := 5, block := some (.coll 6) })] with
    inst := some i64, groups := [(3, { members := [0, 1], coll := some { op := op, fn := fn } })] } [0]
theorem wit_vote : ∀ p ∈ ([(0, 1, [], 0), (4, 1, [], 1), (8, 6, [dstD 6 2], 2), (0x00C, 6, [dstD 6 1], 3)] : List (BitVec 10 × BitVec 7 × List Dst × Nat)),
    let f : WForm := ⟨hd, p.2.1, 0, 0, 0, 0, 0, p.1⟩
    f.var = p.2.2.2 ∧ LastArrives (sV 0x35 p.1) 0 3 [0, 1] 0x35 f.fn ∧ Runs (.vote f) { h := hd, dsts := p.2.2.1 } (sV 0x35 p.1) 0 :=
  fun p h => ⟨by revert p; decide +kernel, lastArrives (by revert p; decide +kernel), runs (by revert p; decide +kernel)⟩
theorem wit_match : ∀ p ∈ ([(0x080, 2, 0), (0x084, 1, 1), (0x248, 1, 2)] : List (BitVec 10 × Nat × Nat)), (wf1 p.1).var = p.2.2 ∧
    LastArrives (sV 0x36 p.1) 0 3 [0, 1] 0x36 (wf1 p.1).fn ∧
    Runs (.matchG (wf1 p.1)) (specW1 (wf1 p.1) (nregs (wf1 p.1).ty) (chk (wf1 p.1).ty) p.2.1) (sV 0x36 p.1) 0 :=
  fun p h => ⟨by revert p; decide +kernel, lastArrives (by revert p; decide +kernel), runs (by revert p; decide +kernel)⟩
-- add, min, max, and, or, xor, on 32 and 64 bits; SCAN exclusive too
theorem wit_reduce : ∀ n ∈ [0x000, 0x204, 0x048, 0x08C, 0x250, 0x094], let fn : BitVec 10 := BitVec.ofNat 10 n
    (wf1 fn).ty ≠ 3 ∧ (wf1 fn).sat = false ∧
    LastArrives (sV 0x80 fn) 0 3 [0, 1] 0x80 (wf1 fn).fn ∧
    Runs (.reduce (wf1 fn)) (specW1 (wf1 fn) (nregs (wf1 fn).ty) (chk (wf1 fn).ty) (nregs (wf1 fn).ty)) (sV 0x80 fn) 0 :=
  fun p h => ⟨by revert p; decide +kernel, by revert p; decide +kernel, lastArrives (by revert p; decide +kernel), runs (by revert p; decide +kernel)⟩
theorem wit_scan : ∀ n ∈ [0x000, 0x220, 0x048, 0x0AC, 0x250, 0x094], let fn : BitVec 10 := BitVec.ofNat 10 n
    (wf1 fn).ty ≠ 3 ∧ (wf1 fn).sat = false ∧
    LastArrives (sV 0x81 fn) 0 3 [0, 1] 0x81 (wf1 fn).fn ∧
    Runs (.scan (wf1 fn)) (specW1 (wf1 fn) (nregs (wf1 fn).ty) (chk (wf1 fn).ty) (nregs (wf1 fn).ty)) (sV 0x81 fn) 0 :=
  fun p h => ⟨by revert p; decide +kernel, by revert p; decide +kernel, lastArrives (by revert p; decide +kernel), runs (by revert p; decide +kernel)⟩

def sJ (g : Option Nat) : State := stOf 1 { coreOf [(0, { th0 with grp := g })] with inst := some i64, groups := [(3, { members := [0] })] } [0]
-- A holds 3; group 255 and group 256
theorem wit_join_leave : (∀ p ∈ ([(none, 252), (some 3, 252), (some 3, 253)] : List (Option Nat × BitVec 28)),
      Runs (.join ⟨hd, 6, 4, 0, p.2⟩) { specI ⟨hd, 6, 4, 0, p.2⟩ none with avail := .core, noSub := true } (sJ p.1) 0) ∧
    (∀ g ∈ [none, some 3], Runs (.leave ⟨hd, 6, 0, 0, 0⟩) { h := hd, avail := .core, noSub := true, dsts := [dstD 6 1] } (sJ g) 0) ∧
    ((sJ none).curThread 0).grp = none ∧ ((sJ (some 3)).curThread 0).grp = some 3 ∧ 0 ∈ ((sJ (some 3)).curCore.group 3).members :=
  ⟨fun p h => runs (by revert p; decide +kernel), fun g h => runs (by revert g; decide +kernel), by decide +kernel, by decide +kernel, by decide +kernel⟩

def gf (l : BitVec 28) : IForm := ⟨hdU, 0, 0, 0, l⟩
/-- Phrase 0 at level `l`, others of its slot at 3, so that `n` granules are taken. -/
def sR (ps : Map Phrase) : State := stOf 1 { coreOf [(0, th0)] with inst := some i64, phrases := ps } [0]
theorem wit_granules : ∀ p ∈ ([(1, [(0, { xlev := 1 })]), (2, []), (1, [(4, { xlev := 3 }), (8, { xlev := 3 }), (12, { xlev := 3 }), (16, { xlev := 3 }), (20, { xlev := 3 })]),
      (2, [(4, { xlev := 3 }), (8, { xlev := 3 }), (12, { xlev := 3 }), (16, { xlev := 3 }), (20, { xlev := 3 })])] : List (BitVec 28 × Map Phrase)),
    phraseOf 0 = (sR p.2).cur.phrase ∧ ((sR p.2).curThread 0).sub = none ∧ Map.get [] (sR p.2).curCore.rgetQ 0 = [] ∧
    Runs (.rget (gf p.1)) (granSpec (gf p.1)) (sR p.2) 0 ∧ Runs (.rput (gf p.1)) (granSpec (gf p.1)) (sR p.2) 0 :=
  fun p h => ⟨by revert p; decide +kernel, by revert p; decide +kernel, by revert p; decide +kernel, runs (by revert p; decide +kernel), runs (by revert p; decide +kernel)⟩
theorem wit_granule_counts : (sR [(4, { xlev := 3 }), (8, { xlev := 3 }), (12, { xlev := 3 }), (16, { xlev := 3 }), (20, { xlev := 3 })]).curCore.granules 0 + 1 = 16 ∧
    ((sR [(0, { xlev := 1 })]).curCore.phrase 0).xlev.toNat = 1 ∧ (sR [(0, { xlev := 1 })]).curCore.dueAbove 0 0 = [] := by decide +kernel

def bf (a : BitVec 7) (b : BitVec 28) : IForm := ⟨hd, 0, a, 0, b⟩
/-- Threads 0 and 1 of group 3, barrier 1 at `w`. -/
def sB (w : W32) (x : Option WaitRec) (g : Option Nat) : State := stOf 1 { coreOf [(0, { th0 with grp := g, wrec := x }), (1, { th0 with grp := some 3 })] with
  inst := some { i64 with barto := true }, groups := [(3, { members := [0, 1], bcnt := [(1, w)] })], clock := 2 ^ 24 } [0]
-- the first arrival of two, the last, a count of v4 = 3; a count that differs; no group; BARW before and after the toggle
theorem wit_counted_barriers : (∀ p ∈ ([(0, 0), (0, 0x80020001), (4, 0x00030002)] : List (Nat × Nat)),
      ((sB (BitVec.ofNat 32 p.2) none (some 3)).curThread 0).grp = some 3 ∧ ((sB (BitVec.ofNat 32 p.2) none (some 3)).curThread 0).sub = none ∧ ((sB (BitVec.ofNat 32 p.2) none (some 3)).curThread 0).wrec = none ∧
      ((sB (BitVec.ofNat 32 p.2) none (some 3)).curCore.group 3).members.length = 2 ∧ ((barSpec (bf 4 1)).opnd (sB (BitVec.ofNat 32 p.2) none (some 3)) 0 0).lo.toNat = 3) ∧
    (∀ p ∈ ([(0, 0), (0, 0x80020001), (4, 0x00030002), (4, 0x00020001)] : List (Nat × Nat)), Runs (.bara (bf (BitVec.ofNat 7 p.1) 1)) (barSpec (bf (BitVec.ofNat 7 p.1) 1)) (sB (BitVec.ofNat 32 p.2) none (some 3)) 0 ∧
      Runs (.bars (bf (BitVec.ofNat 7 p.1) 1)) (barSpec (bf (BitVec.ofNat 7 p.1) 1)) (sB (BitVec.ofNat 32 p.2) none (some 3)) 0) ∧
    (Runs (.bara (bf 0 1)) (barSpec (bf 0 1)) (sB 0 none none) 0 ∧ Runs (.bara (bf 4 1)) (barSpec (bf 4 1)) (sB 0 none none) 0 ∧ Runs (.bars (bf 4 1)) (barSpec (bf 4 1)) (sB 0 none none) 0 ∧
      Runs (.barw (bf 0 1)) { h := hd, avail := .core } (sB 0 none none) 0) ∧
    (∀ x ∈ [none, some { bar := 1, grp := 3, gen := true, pc := 0x1010 }], Runs (.barw (bf 0 1)) { h := hd, avail := .core } (sB 0 x (some 3)) 0) :=
  ⟨by decide +kernel, fun p h => ⟨runs (by revert p; decide +kernel), runs (by revert p; decide +kernel)⟩,
    ⟨runs (by decide +kernel), runs (by decide +kernel), runs (by decide +kernel), runs (by decide +kernel)⟩, fun x h => runs (by revert x; decide +kernel)⟩
-- a subordinate; inside a trap handler, with the record of the interrupted wait, whose barrier this arrival completes or not
theorem wit_barrier_subordinate : let s := stOf 1 { kSub with inst := some i64 } [64]
    (s.curThread 64).sub.isSome = true ∧ Runs (.bara (bf 36 1)) (barSpec (bf 36 1)) s 64 ∧ Runs (.bars (bf 36 1)) (barSpec (bf 36 1)) s 64 ∧ Runs (.barw (bf 0 1)) { h := hd, avail := .core } s 64 :=
  ⟨by decide +kernel, runs (by decide +kernel), runs (by decide +kernel), runs (by decide +kernel)⟩
theorem wit_barrier_handler : ∀ w ∈ [0, 0x80020001], let x : WaitRec := { bar := 1, grp := 3, gen := w == 0x80020001, pc := 0x2000 }
    let s : State := stOf 1 { coreOf [(0, { th0 with grp := some 3, level := .sl, wrec := some x }), (1, { th0 with grp := some 3 })] with inst := some i64, groups := [(3, { members := [0, 1], bcnt := [(1, BitVec.ofNat 32 w)] })] } [0]
    (s.curThread 0).level = .sl ∧ (s.curThread 0).wrec = some x ∧ ¬(x.pc = s.cur.pc) ∧ x.gen = (s.curCore.bcnt 3 1).getLsbD 31 ∧ Runs (.bars (bf 0 1)) (barSpec (bf 0 1)) s 0 ∧ Runs (.bara (bf 0 1)) (barSpec (bf 0 1)) s 0 :=
  fun w h => ⟨by revert w; decide +kernel, by revert w; decide +kernel, by revert w; decide +kernel, by revert w; decide +kernel, runs (by revert w; decide +kernel), runs (by revert w; decide +kernel)⟩
-- an own global atomic holds the arrival; the last arrival wakes a thread that waits, and marks one that waits from inside a handler; BARW with the wait over
def sBa (q : Bool) : State :=
  let w : WaitRec := { bar := 1, grp := 3, gen := true, pc := 0x1010 }
  stOf 1 { coreOf [(0, { th0 with grp := some 3 }), (1, { th0 with grp := some 3, wrec := some w, block := some (.bar 1 0) }), (2, { th0 with grp := some 3, wrec := some w })] with
    inst := some i64, groups := [(3, { members := [0, 1, 2], bcnt := [(1, 0x80030002)] })], cmds := if q then [{ id := 4, op := 0xA6, tid := 0, targets := [0], pasid := 0 }] else [] } [0]
theorem wit_barrier_atom : (sBa true).curCore.ownAtoms 0 ≠ [] ∧ ((sBa true).curThread 0).relSet = none ∧ ((sBa true).curThread 0).wrec = none ∧ Runs (.bara (bf 0 1)) (barSpec (bf 0 1)) (sBa true) 0 ∧
    Runs (.bars (bf 0 1)) (barSpec (bf 0 1)) (sBa true) 0 := ⟨by decide +kernel, by decide +kernel, by decide +kernel, runs (by decide +kernel), runs (by decide +kernel)⟩
theorem wit_barrier_wakes : let k := (sBa false).curCore
    let w := k.bcnt 3 1
    k.ownAtoms 0 = [] ∧ (w.extractLsb' 0 16).toNat + 1 = (w.extractLsb' 16 15).toNat ∧ (k.group 3).members.length = (w.extractLsb' 16 15).toNat ∧ w.getLsbD 31 = true ∧
    k.live 1 = true ∧ (k.thread 1).block = some (.bar 1 0) ∧ k.live 2 = true ∧ (k.thread 2).block = none ∧ (k.thread 2).wrec = (k.thread 1).wrec := by decide +kernel
theorem wit_barrier_over : Runs (.barw (bf 0 1)) { h := hd, avail := .core } (sB 0 (some { bar := 1, grp := 3, gen := false, pc := 0x1010, past := true }) (some 3)) 0 := runs (by decide +kernel)
theorem wit_barrier_zero : Runs (.bara (bf 0 0)) (barSpec (bf 0 0)) (sB 0 none (some 3)) 0 ∧ ((sB 0 none (some 3)).curThread 0).arr0 = false ∧
    0 ∈ ((sB 0 none (some 3)).curCore.group 3).members := ⟨runs (by decide +kernel), by decide +kernel, by decide +kernel⟩
theorem wit_bar_timeout : let s : State := stOf 1 { coreOf [(0, { th0 with grp := some 3, block := some (.bar 1 0), wrec := some { bar := 1, grp := 3, gen := false, pc := 0x1010 } })] with
      inst := some { i64 with barto := true }, groups := [(3, { members := [0], bcnt := [(1, 0x00020001)] })], clock := 2 ^ 24 } [0]
    (s.core 1).inst = some { i64 with barto := true } ∧ ((s.core 1).thread 0).st = .live ∧ ((s.core 1).thread 0).grp = some 3 ∧
    ((s.core 1).thread 0).block = some (.bar 1 0) ∧ (((s.core 1).bcnt 3 1).getLsbD 31) = false ∧ 0 + 2 ^ 24 ≤ (s.core 1).clock := by decide +kernel

def rf : EForm := ⟨hd, 2, true, 0, 12, 13, 6, false, 0, 4⟩
def sRec (no : Bool) : State := stOf 1 { k0 with inst := some { i64 with norec := no } } [0]
theorem wit_recruit : ∀ no, Runs (.recruit rf) { h := hd, srcs := [{ reg := 12, idx := 0 }, { reg := 13, idx := 1 }, { reg := 6, idx := 2 }], dsts := [{ reg := 12, idx := 0 }] } (sRec no) 0 ∧
    Target (sRec no) ((sRec no).cur.pc + BitVec.ofInt 64 (8 * rf.x.toInt)) (some 0xFD) ∧ (((sRec no).curThread 0).sub = none ∧ (sRec no).curCore.principalRec 0 = none ∧
      (sRec no).curCore.ownAtoms 0 = [] ∧ (sRec no).cur.core < 208 ∧ (sRec no).curCore.lowDue 0 = [] ∧ ((sRec no).curCore.rcd 0).live = false ∧ ∀ e ∈ (sRec no).curCore.eligibles false 0, e.1 ≠ 0) :=
  fun no => ⟨runs (by revert no; decide +kernel), target hSub (by revert no; decide +kernel), by revert no; decide +kernel⟩

/-- Thread 0, principal of record 0, with the window `w` and the index `it`. -/
def sI (r : RecRec) (w : Map WinEnt) (it : Option Nat) : State := stOf 1 { coreOf [(0, { th0 with iter := it })] with
  recs := [(0, { r with live := true, tid := 0 })], window := w, inst := some i64 } [0]
def itf : WForm := ⟨hd, 6, 1, 0, 0, 0, 0, 0⟩
-- an index is left, 63 places beyond OLDEST; none is left
def sIt (n : Nat) : State := sI { count := BitVec.ofNat 32 n, next := 63 } [] none
theorem wit_iter : ∀ n ∈ [100, 63], Runs (.iter itf) { h := hd, dsts := [dstD 6 1] } (sIt n) 0 ∧ ((sIt n).curCore.principalRec 0 = some 0 ∧
    ((sIt n).curThread 0).iter = none ∧ (sIt n).curCore.reissueEntry 0 = none ∧ (sIt n).curCore.freeEntry = some 0) :=
  fun n h => ⟨runs (by revert n; decide +kernel), by revert n; decide +kernel⟩
def sCo : State := sI { op := 2 } [(0, { st := 1 })] (some 0)
theorem wit_contrib : let f : WForm := ⟨hd, 0, 2, 0, 0, 0, 0, 0⟩
    Runs (.contrib f) { h := hd, edge := f.edge.toNat, srcs := [f.srcA 1 none] } sCo 0 ∧ (sCo.curThread 0).iter = some 0 ∧ (sCo.curCore.rcd 0).op ≠ 0 ∧ sCo.curCore.tagchk = false :=
  ⟨runs (by decide +kernel), by decide +kernel, by decide +kernel, by decide +kernel⟩
def sRj (b : Bool) : State := sI { op := 2, creg := 5, failed := b } [] none
theorem wit_rjoin : ∀ b ∈ [false, true], Runs (.rjoin ⟨hd, 6, 0, 0, 0⟩) { h := hd, noSub := true, dsts := [dstD 6 1], lateDst := true } (sRj b) 0 ∧
    ((sRj b).curCore.principalRec 0 = some 0 ∧ ((sRj b).curThread 0).iter = none ∧ (sRj b).curCore.hasSubs 0 = false ∧ (sRj b).curCore.window = [] ∧
      ((sRj b).curCore.rcd 0).failed = b ∧ (sRj b).cur.core < 208 ∧ ((sRj b).curThread 0).sub = none ∧ (sRj b).curCore.doneEntries 0 = [] ∧ (sRj b).curCore.pending 0 5 = false ∧ (sRj b).curCore.canWrite 0 5 = true) :=
  fun b h => ⟨runs (by revert b; decide +kernel), by revert b; decide +kernel⟩
-- an index that runs, a subordinate that lives
theorem wit_rjoin_waits : ∀ s ∈ [sI { op := 2, creg := 5 } [(4, { st := 1 })] none, stOf 1 { kSub with inst := some i64 } [0]],
    (legal (.rjoin ⟨hd, 6, 0, 0, 0⟩) && s.lone { h := hd, noSub := true, dsts := [dstD 6 1], lateDst := true } 0) = true ∧ s.curCore.principalRec 0 = some 0 ∧ (s.curThread 0).iter = none ∧
    (s.curCore.hasSubs 0 || s.curCore.window.any (fun e => e.2.st == 1 && e.2.rid == 0)) = true := by decide +kernel
-- a marked subordinate at ITER, and one at CONTRIB
def sSub (mk : Option Nat) (it : Option Nat) : State := stOf 1 { kSub with threads := [(0, th0), (64, { th0 with sub := some { sub1 with mark := mk }, iter := it })], inst := some i64, window := [(0, { st := 1 })] } [64]
theorem wit_iter_marked : Runs (.iter ⟨hd, 36, 1, 0, 0, 0, 0, 0⟩) { h := hd, dsts := [dstD 36 1] } (sSub (some 7) none) 64 ∧ ((sSub (some 7) none).curThread 64).sub = some { sub1 with mark := some 7 } ∧
    ((sSub (some 7) none).curThread 64).iter = none ∧ (sSub (some 7) none).curCore.ownAtoms 64 = [] := ⟨runs (by decide +kernel), by decide +kernel⟩
theorem wit_contrib_subordinate : let f : WForm := ⟨hd, 0, 36, 0, 0, 0, 0, 0⟩
    Runs (.contrib f) { h := hd, edge := f.edge.toNat, srcs := [f.srcA 1 none] } (sSub none (some 0)) 64 ∧ ((sSub none (some 0)).curThread 64).sub = some sub1 ∧
    ((sSub none (some 0)).curThread 64).iter = some 0 ∧ ((sSub none (some 0)).curCore.rcd 0).op ≠ 0 ∧ (sSub none (some 0)).curCore.tagchk = false :=
  ⟨runs (by decide +kernel), by decide +kernel, by decide +kernel, by decide +kernel, by decide +kernel⟩
def kF : Core := { recs := [(0, { live := true, op := 2 })], window := [(0, { st := 2, val := true, value := 5 }), (1, { st := 1, off := 1 })] }
theorem wit_fold : ((kF.win 0).rid = 0 ∧ (kF.win 0).off = 0 ∧ (kF.win 0).st = 2 ∧ (kF.win 0).val = true) ∧
    ∀ x < 64, (x ≠ 0 ∧ (kF.win x).rid = 0 ∧ (kF.win x).st ≠ 0) → 1 ≤ (kF.win x).off ∧ ((kF.win x).off = 1 → (kF.win x).st ≠ 2) := by decide +kernel
theorem wit_lend_reclaim : Runs (.lend (bf 0 0)) { h := hd, avail := .core, noSub := true } (sJ (some 3)) 0 ∧
    Runs (.reclaim (bf 0 0)) { h := hd, avail := .core, noSub := true } (sJ (some 3)) 0 ∧ ((sJ (some 3)).curThread 0).grp = some 3 :=
  ⟨runs (by decide +kernel), runs (by decide +kernel), by decide +kernel⟩
theorem wit_kill : ∀ b, let k : Core := { kSub with
      threads := [(0, th0), (64, { th0 with sub := some { sub1 with mark := some 0 }, iter := some 0 })], recs := [(0, { live := true, reissue := b })], clock := 4096 }
    (k.thread 64).sub = some { sub1 with mark := some 0 } ∧ (k.thread 64).iter = some 0 ∧ (k.thread 64).block = none ∧ 0 + 4096 ≤ k.clock ∧ (k.rcd 0).reissue = b := by
  decide +kernel

theorem wit_kill_iterated : let k : Core := { kSub with threads := [(0, th0), (64, { th0 with sub := some { sub1 with mark := some 0, iterated := true }, iter := some 0 })], recs := [(0, { live := true, reissue := true })] }
    (k.thread 64).sub = some { sub1 with mark := some 0, iterated := true } ∧ (k.thread 64).iter = some 0 ∧ (k.thread 64).block = none := by decide +kernel

def df : WForm := ⟨hd, 6, 1, 0, 0, 0, 0, 4⟩
def sDi (i : Inst) : State := { stOf 1 { coreOf [(0, th0)] with inst := some i } [0] with slots := [(0, { launch := some { disp := [0, 11, 0] } })] }
def di (det : Bool) (d : Disp) : Inst := { i64 with det := det, ncore := 1, disp := [(1, d)] }
-- DET with a share left, with none, with the last of 2^32 indices, and after it; otherwise an index of the chunk, and none in a dry dispenser
theorem wit_dispense : ∀ i ∈ [di true { x := 4, y := 3, k := 11 }, di true { x := 4, y := 3, k := 12 }, di true { x := 0x10000, y := 0x10000, k := 0xFFFFFFFF }, di true { x := 0x10000, y := 0x10000, dry := true }, di false { x := 4, y := 3, next := 11, fin := 12 },
      di false { x := 4, y := 3, next := 12, fin := 12, dry := true }], Runs (.dispense df) { h := hd, avail := .core, noSub := true, dsts := [dstD 6 2] } (sDi i) 0 ∧
    (sDi i).curCore.inst = some i := fun i h => ⟨runs (by revert i; decide +kernel), by revert i; decide +kernel⟩
-- others wait: this one joins them; a claim serves them, the last chunk of 2^32 indices too
theorem wit_dispense_waits : let d : Disp := { x := 4, y := 3, chunk := 2, claiming := true, queue := [{ targets := [7], d := 6, p := 1 }] }
    (legal (.dispense df) && (sDi (di false d)).lone { h := hd, avail := .core, noSub := true, dsts := [dstD 6 2] } 0) = true ∧ (Map.get ({} : Disp) (di false d).disp df.var).queue ≠ [] ∧
    (Map.get ({} : Disp) (di false d).disp 1).claiming = true ∧ ((sDi (di false d)).slot (di false d).slot).launch = some { disp := [0, 11, 0] } ∧ (11 : Nat) < 12 := by decide +kernel
theorem wit_claim_last : let d : Disp := { x := 0x10000, y := 0x10000, chunk := 0x8000, claiming := true }
    let l : Launch := { disp := [0, 0xFFFF8000, 0] }
    d.x.toNat * d.y.toNat = 2 ^ 32 ∧ d.queue = [] ∧ 1 < l.disp.length ∧ l.disp.getD 1 0 < d.x.toNat * d.y.toNat ∧ l.disp.getD 1 0 + d.chunk.toNat = 2 ^ 32 := by decide +kernel
theorem wit_claim : let i := di false { x := 4, y := 3, claiming := true }
    ((sDi i).core 1).inst = some i ∧ (Map.get ({} : Disp) i.disp 1).claiming = true ∧ ((sDi i).slot i.slot).launch = some { disp := [0, 11, 0] } ∧ 11 < 4 * 3 := by
  decide +kernel

/-! ### Witnesses: scratchpad, regions, the copy unit -/

def mf (d b : BitVec 7) (ord sco : BitVec 3) (off : BitVec 22) : MForm := ⟨hd, d, b, 0, ord, sco, off⟩
/-- The address is v2 = 0xBFFF0 on a physical core, or what is given. -/
def sM (a : W32) : State := stOf 1 { coreOf [(0, { th0 with v := [(2, a), (4, 3), (6, 0x80)] })] with inst := some i64 } [0]
theorem atHand {s : State} {t : Nat} {ea : W32} {n : Nat} (h : (decide (ea.toNat % n = 0 ∧ ea.toNat + n ≤ (if 208 ≤ s.cur.core then 0x40000 else 0xC0000)) &&
    !s.curCore.stalls ea.toNat n && (s.curThread t).level == .kl) = true) : AtHand s t ea n := by
  simp only [Bool.and_eq_true, decide_eq_true_eq, Bool.not_eq_true', beq_iff_eq] at h
  exact ⟨h.1.1.1, h.1.1.2, h.1.2, fun g => by cases g.1.symm.trans (by simpa [State.curThread] using h.2 : (s.curCore.thread t).level = .kl)⟩
/-- The last 16 bytes of scratchpad, a load and a store of each size, relaxed, acquire or release at group scope. -/
theorem wit_loads : ∀ p ∈ ([(.ld8, 1), (.ld8s, 1), (.ld16, 1), (.ld16s, 1), (.ld32, 1), (.ld64, 2), (.ld128, 4)] : List ((MForm → Instr) × Nat)), ∀ q ∈ [(0, 0), (1, 3), (4, 0)],
    let f := mf 8 2 (BitVec.ofNat 3 q.1) (BitVec.ofNat 3 q.2) 0
    Runs (p.1 f) { mSpec f with dsts := [{ reg := 8, n := p.2, idx := 3 }] } (sM 0xBFFF0) 0 :=
  fun p h q g => runs (by revert p q; decide +kernel)
theorem wit_stores : ∀ p ∈ ([(.st8, 1), (.st16, 1), (.st32, 1), (.st64, 2), (.st128, 4)] : List ((MForm → Instr) × Nat)), ∀ q ∈ [(0, 0), (2, 3), (4, 0)],
    let f := mf 8 2 (BitVec.ofNat 3 q.1) (BitVec.ofNat 3 q.2) 0
    Runs (p.1 f) { h := f.h, srcs := [{ reg := 2, idx := 1 }, { reg := 8, desc := f.rd, n := p.2, idx := 3 }] } (sM 0xBFFF0) 0 :=
  fun p h q g => runs (by revert p q; decide +kernel)
theorem wit_at_hand : ∀ n ∈ [1, 2, 4, 8, 16], AtHand (sM 0xBFFF0) 0 (((mSpec (mf 8 2 0 0 0)).opnd (sM 0xBFFF0) 0 0).lo + (0 : BitVec 22).signExtend 32) n :=
  fun n h => atHand (by revert n; decide +kernel)

/-- What `Issues` asks of a thread that kept its operands. -/
def keptRuns (i : Instr) (o : OpSpec) (s : State) (t : Nat) (ops : List Opnd) : Bool :=
  legal i && s.cur.set == [t] && (s.curThread t).kept == some ops && !o.refused s && (fmtTrap s.curCore.tagchk o.srcs ops).isNone && [1, 2, 4, 8, 16, 32, 64].contains s.curCore.segW
/-- Thread 0 kept the operands `ops`; regions of two lines at 0x100, on first touch under WB 0 and 1, zero-filled under WB 2, at 0x500, 0x900 and 0xD00. -/
def sKept (ops : Option (List Opnd)) (ls : Map Line) (acq : Bool) : State := stOf 1 { coreOf [(0, { th0 with v := [(2, 0x140), (8, 7)], kept := ops, acq := acq })] with
  inst := some i64, lines := ls, regions := [(0, { spbase := 0x100, size := 0x200, va := 0x100000, ctl := 0x80000000 }), (1, { spbase := 0x500, size := 0x200, va := 0x200000, ctl := 0x80000004 }),
    (2, { spbase := 0x900, size := 0x200, va := 0x300000, ctl := 0x80000009 })] } [0]
-- a load, a store, an atomic and a CAS that go on with what they kept
theorem wit_kept : let a (x : W32) : List Opnd := [[(x, 2)], [(7, 2)], [(9, 2)]]
    keptRuns (.ld32 (mf 8 2 0 0 0)) { mSpec (mf 8 2 0 0 0) with dsts := [{ reg := 8, n := 1, idx := 3 }] } (sKept (some (a 0x140)) [(1, { st := 1 })] false) 0 (a 0x140) = true ∧
    keptRuns (.st32 (mf 8 2 2 3 0)) { h := hd, srcs := [{ reg := 2, idx := 1 }, { reg := 8, n := 1, idx := 3 }] } (sKept (some (a 0x140)) [(1, { st := 1 })] false) 0 (a 0x140) = true ∧
    keptRuns (.atom (wf 0)) { h := hd, srcs := [(wf 0).srcA 1 none, (wf 0).srcB 1 (atomTy 0)], dsts := [dstD 6 1] } (sKept (some (a 0x140)) [(1, { st := 1 })] false) 0 (a 0x140) = true := by decide +kernel
-- an acquire at device scope: on a clean line of a region that fills on touch, before its fill and after it; on no such line; a line that is invalid stalls any load
theorem wit_acquire : (∀ n ∈ [4, 5], let f := mf 8 2 1 (BitVec.ofNat 3 n) 0
      f.ord = 1 ∧ (f.sco = 4 ∨ f.sco = 5) ∧ (legal (.ld32 f) && (sKept none [(1, { st := 1 })] false).lone { mSpec f with dsts := [{ reg := 8, n := 1, idx := 3 }] } 0) = true) ∧
    (let k := (sKept none [(1, { st := 1 })] false).curCore
     k.aside 0 = false ∧ k.regionAt (1 * 256) = some 0 ∧ (k.region 0).fill = 0 ∧ (k.line 1).st = 1 ∧ k.stalls 0x140 4 = false ∧ (sKept none [] true).curThread 0 = { (sKept none [] false).curThread 0 with acq := true }) ∧
    (sKept none [] false).curCore.stalls 0x140 4 = true ∧ ((sKept none [] false).curCore.region 2).fill = 1 ∧ (sKept none [] false).curCore.stalls 0x940 4 = false := by decide +kernel
/-- Core 1 with a store by thread 5 to the word at 0x40 that thread 0 has not seen; a region of one line on first touch at 0x100. -/
def kMiss (a : Nat) : Core := { coreOf [(0, { th0 with acqAt := a })] with inst := some i64, scratch := [(0x40, 7)], recent := [(0x10, { old := 3, new := 7, writers := [2048 + 5], stamp := 9 })] }
theorem wit_may_miss : Missable (kMiss 8) 1 [0] 8 0x10 { old := 3, new := 7, writers := [2048 + 5], stamp := 9 } ∧ MayMiss (kMiss 8) 1 0 0x10 { old := 3, new := 7, writers := [2048 + 5], stamp := 9 } ∧
    ¬MayMiss (kMiss 9) 1 0 0x10 { old := 3, new := 7, writers := [2048 + 5], stamp := 9 } := by
  have z : ¬zeroLine (kMiss 8) (4 * 0x10) := by rintro ⟨r, h, -⟩; cases (show (kMiss 8).regionAt (4 * 0x10 / 256 * 256) = none by decide +kernel).symm.trans h
  refine ⟨⟨rfl, by decide +kernel, by decide, by decide +kernel⟩, ⟨by decide, by decide +kernel, z, rfl, by decide +kernel, by decide +kernel, by decide +kernel⟩, ?_⟩
  rintro ⟨-, -, -, -, -, h, -⟩
  exact absurd h (by decide +kernel)
/-- Thread 0 in the handler of PREEMPT, with a clean line of a region on first touch at 0x100, which has been filled for it or not. -/
def sPre (acq : Bool) : State := let k := (sKept none [(1, { st := 1 })] acq).curCore
  stOf 1 { k with threads := [(0, { k.thread 0 with level := .sl, tcause := 0x15 })] } [0]
theorem wit_refills : Refills (sPre false).curCore 0 1 ∧ AtHand (sPre true) 0 0x140 4 ∧ ∀ acq, Runs (.ld32 (mf 8 2 0 0 0)) { mSpec (mf 8 2 0 0 0) with dsts := [{ reg := 8, n := 1, idx := 3 }] } (sPre acq) 0 :=
  ⟨⟨by decide +kernel, by decide +kernel, by decide +kernel, ⟨0, by decide +kernel⟩, by decide +kernel⟩,
   ⟨by decide, by decide +kernel, by decide +kernel, fun g => absurd g.2.2.1 (by decide +kernel)⟩, fun acq => runs (by revert acq; decide +kernel)⟩
-- a relaxed store after a FENCE.rel
theorem wit_fenced_store : let s := stOf 1 { coreOf [(0, { th0 with fenced := true, v := [(2, 0x140)] })] with inst := some i64, lines := [(1, { st := 1 })], regions := [(0, { spbase := 0x100, size := 0x200, va := 0x100000, ctl := 0x80000000 })] } [0]
    Runs (.st32 (mf 8 2 0 0 0)) { h := hd, srcs := [{ reg := 2, idx := 1 }, { reg := 8, n := 1, idx := 3 }] } s 0 ∧ (s.curThread 0).fenced = true ∧ s.curCore.aside 0 = false ∧ s.curCore.regionAt (1 * 256) = some 0 :=
  ⟨runs (by decide +kernel), by decide +kernel, by decide +kernel, by decide +kernel⟩
-- the three modes of writing back; releases of a thread whose waits are over
theorem wit_store_lines : let k := (sKept none [(1, { st := 1 }), (5, { st := 3 })] false).curCore
    k.regionAt (1 * 256) = some 0 ∧ (k.region 0).wb = 0 ∧ k.regionAt (5 * 256) = some 1 ∧ (k.region 1).wb = 1 ∧ k.regionAt (9 * 256) = some 2 ∧ (k.region 2).wb = 2 ∧ k.regionAt (2 ^ 8 * 256) = none ∧
    k.ownAtoms 0 = [] ∧ (k.thread 0).relSet = none := by decide +kernel
theorem wit_release_free : RelFree (sKept none [] false) 0 ∧ RelFree (stOf 1 (coreOf [(0, { th0 with relSet := some {} })]) [0]) 0 :=
  ⟨Or.inl (by decide +kernel), Or.inr ⟨{}, by decide +kernel⟩⟩

def sA (a v : W32) : State := stOf 1 { coreOf [(0, { th0 with v := [(2, a), (4, v), (6, 9)] })] with inst := some i64, scratch := [(0x40, 3)] } [0]
-- every operation of R252, relaxed and acq_rel at core scope
theorem wit_atom : ∀ op ∈ List.range 16, ∀ o ∈ [0, 0x1A], let f := wf (BitVec.ofNat 10 (op * 64 + o))
    let w := if op = 0xE ∨ op = 0xF then 8 else 4
    Runs (.atom f) { h := hd, srcs := [f.srcA 1 none, f.srcB (w / 4) (atomTy op)], dsts := [dstD 6 (w / 4)] } (sA 0x40 3) 0 ∧ AtHand (sA 0x40 3) 0 0x40 w :=
  fun op h o g => ⟨runs (by revert op o; decide +kernel), atHand (by revert op; decide +kernel)⟩
-- CAS of 4 and of 8 bytes, whose comparison holds with v4 = 3 and fails with v4 = 4
theorem wit_cas : ∀ p ∈ [(0x050, 1), (0, 1), (0x051, 2)], ∀ v ∈ [3, 4], let f : VForm := ⟨hd, 6, 2, 4, 6, BitVec.ofNat 9 p.1, 0, 0, 0⟩
    Runs (.cas f) { h := hd, dsts := [dstD 6 p.2], srcs := [{ reg := 2, idx := 0 }, f.srcB p.2 none, { reg := 6, desc := rcsDesc 0 0 0, n := p.2, idx := 2 }] }
      (sA 0x40 (BitVec.ofNat 32 v)) 0 ∧ AtHand (sA 0x40 (BitVec.ofNat 32 v)) 0 0x40 (4 * p.2) :=
  fun p h v g => ⟨runs (by revert p v; decide +kernel), atHand (by revert p v; decide +kernel)⟩

-- addresses that are not a multiple of 4, and those where the spans of the map end and begin
theorem wit_access_checks : ∀ a ∈ [0x41, 0xC0000, 0xFFFFC, 0x900000, 0xEFFFFC, 0xF20000, 0xFFFFFFFC], let s := sM (BitVec.ofNat 32 a)
    Runs (.ld32 (mf 8 2 0 0 0)) { mSpec (mf 8 2 0 0 0) with dsts := [{ reg := 8, n := 1, idx := 3 }] } s 0 ∧
    Runs (.st32 (mf 8 2 0 0 0)) { h := hd, srcs := [{ reg := 2, idx := 1 }, { reg := 8, n := 1, idx := 3 }] } s 0 :=
  fun a h => ⟨runs (by revert a; decide +kernel), runs (by revert a; decide +kernel)⟩
theorem wit_load_to_v0 : (mf 0 2 0 0 0).d = 0 ∧ s2.cur.set.Nodup := by decide +kernel

def rg (sp size wb fill : Nat) : Region := { spbase := BitVec.ofNat 32 sp, size := BitVec.ofNat 32 size, va := 0x100000, ctl := BitVec.ofNat 32 (2 ^ 31 + wb * 4 + fill) }
def ff (fn : BitVec 10) : SForm := ⟨hd, fn, 0, 0, 0, 0⟩
/-- A lazy region of two lines with the states `ls`. -/
def sF (ls : Map Line) (rs : Option RelSet) (nt : List Nat) : State :=
  stOf 1 { coreOf [(0, { th0 with relSet := rs, ntCmds := nt })] with inst := some i64, regions := [(0, rg 0x100 0x200 0 0)], lines := ls, promoReq := true } [0]
-- FENCE acq_rel at core scope; at device scope with a dirty line, and when its set is empty; acquire at device scope
theorem wit_fence : ∀ fn ∈ [0x013, 0x023, 0x021], Runs (.fence (ff (BitVec.ofNat 10 fn))) { h := hd } (sF [(1, { st := 3 })] none []) 0 ∧
    Runs (.fence (ff (BitVec.ofNat 10 fn))) { h := hd } (sF [(1, { st := 1 })] (some {}) []) 0 :=
  fun fn h => ⟨runs (by revert fn; decide +kernel), runs (by revert fn; decide +kernel)⟩
-- a global atomic under way holds back a fence below device scope; one that has begun and is over
theorem wit_fence_atom : let k : Core := { coreOf [(0, th0)] with inst := some i64, cmds := [{ id := 4, op := 0xA6, tid := 0, targets := [0], pasid := 0 }] }
    k.ownAtoms 0 ≠ [] ∧ (k.thread 0).relSet = none ∧ (legal (.fence (ff 0x00B)) && (stOf 1 k [0]).lone { h := hd } 0) = true ∧ k.aside 0 = false := by decide +kernel
theorem wit_dirty_line : let k := (sF [(1, { st := 3 })] none []).curCore
    k.regionAt (1 * 256) = some 0 ∧ (k.region 0).wb = 0 ∧ 2 ≤ (k.line 1).st ∧ (k.line 1).nt = false ∧ k.promoReq = true ∧
    ((sF [(1, { st := 1 })] (some {}) []).curThread 0).relSet = some {} ∧ ((sF [(2, { st := 2 })] none []).curCore.line 2).st = 2 := by decide +kernel
theorem wit_drain : ∀ x ∈ [([], []), ([(1, { st := 2, nt := true })], []), ([], [7])], Runs (.ntdrain (ff 0x020)) { h := hd } (sF x.1 none x.2) 0 ∧
    (((sF x.1 none x.2).curThread 0).relSet = none ∧ ((sF x.1 none x.2).curThread 0).ntCmds = x.2 ∧ Map.sorted (sF x.1 none x.2).curCore.lines = true) :=
  fun x h => ⟨runs (by revert x; decide +kernel), by revert x; decide +kernel⟩

/-- Core 1 has rank 0 of share set 9, core 2 rank 1. -/
def sWin (ok : Bool) : State :=
  let s := stOf 1 { coreOf [(0, { th0 with v := [(2, 0x2BFFFC), (8, 7)], winOk := ok })] with inst := some i64, sset := some (9, 0) } [0]
  { s with cores := s.cores ++ [(2, { sset := some (9, 1) })] }
theorem wit_window : ∀ ok ∈ [false, true], Runs (.st32 (mf 8 2 0 0 0)) { h := hd, srcs := [{ reg := 2, idx := 1 }, { reg := 8, n := 1, idx := 3 }] } (sWin ok) 0 ∧
    ((sWin ok).rankCore 1 (0x2BFFFC / 0x100000 - 1) = some 2 ∧ ((sWin ok).core 2).stalls (0x2BFFFC % 0x100000) 4 = false ∧ (sWin ok).curCore.stalls 0x2BFFFC 4 = false ∧
      0x2BFFFC % 0x100000 + 4 ≤ 0xC0000 ∧ ((sWin ok).curThread 0).winOk = ok) := fun ok h => ⟨runs (by revert ok; decide +kernel), by revert ok; decide +kernel⟩
def winLd : OpSpec := { mSpec (mf 8 2 0 0 0) with dsts := [{ reg := 8, n := 1, idx := 3 }] }
def winAt : OpSpec := { h := hd, srcs := [(wf 0x200).srcA 1 none, (wf 0x200).srcB 1 (atomTy 8)], dsts := [dstD 6 1] }
-- a load and an atomic of the same word, their operands read now or kept
theorem wit_window_reads : ∀ ok ∈ [false, true], Runs (.ld32 (mf 8 2 0 0 0)) winLd (sWin ok) 0 ∧ Runs (.atom (wf 0x200)) winAt (sWin ok) 0 ∧ (wf 0x200).ty ≠ 0xE ∧ (wf 0x200).ty ≠ 0xF ∧
    (wf 0x200).fn.extractLsb' 3 3 = 0#3 ∧ (mf 8 2 0 0 0).ord = 0 := fun ok h => ⟨runs (by revert ok; decide +kernel), runs (by revert ok; decide +kernel), by decide⟩
theorem wit_window_waits : ((({ coreOf [(0, { th0 with block := some (.window [] []) })] with clock := 1 } : Core).thread 0).block) = some (.window [] []) := by decide +kernel

/-- RMAP into slot 1 with fill and write-back modes `m`, sp = v12, size = v13. -/
def rmf (m : BitVec 15) : EForm := ⟨hdU, 0, false, 0, 6, 4, 12, false, 0, 1 + 16 * m⟩
def sRm (sp size : W32) : State := stOf 1 { coreOf [(0, { th0 with v := [(4, 0x1000), (12, sp), (13, size)] })] with
  inst := some i64, regions := [(0, rg 0x100 0x100 0 0)] } [0]
def sRl (sp size : W32) : State := { sRm sp size with cores := [(1, { (sRm sp size).curCore with regions := [(0, rg 0x100 0x100 0 0), (1, rg 0x400 0x100 0 0)] })] }
-- modes that exclude each other; a range one line too long; a live slot; an overlap of one line; the last lines of the scratchpad
theorem wit_rmap : ∀ p ∈ [(3, sRm 0x200 0x100), (5, sRm 0x200 0x100), (0, sRm 0xBFF00 0x200), (0, sRl 0x200 0x100), (0, sRm 0x0 0x200), (2, sRm 0xBFF00 0x100), (1, sRm 0x200 0x100)],
    Runs (.rmap (rmf (BitVec.ofNat 15 p.1))) { h := hdU, srcs := [{ reg := 4, n := 2, idx := 1 }, { reg := 12, n := 2, idx := 2 }], dsts := [{ reg := 6, idx := 0 }] } p.2 0 :=
  fun p h => runs (by revert p; decide +kernel)
theorem wit_rmap_free : ∀ i < 16, ¬((sRm 0xBFF00 0x100).curCore.region i).ctl.getLsbD 31 = true ∨ ((sRm 0xBFF00 0x100).curCore.region i).spbase.toNat + 0x100 ≤ 0xBFF00 := by
  decide +kernel

def xl (w : Bool) (leaf : Option Nat) : Xlat := { pasid := 0, va := 0x100000, size := 0x10000, loc := { host := false, addr := 0x500000 }, w := w, leaf := leaf }
def mop (i : Nat) (kd : MKind) : MOp := { id := i, kind := kd, pasid := 0, va := 0x100000, xl := [xl true (some 0x8000)] }
/-- A fill of line 1, a write-back of line 2, a forwarded write of region 0, an instruction fetch. -/
def sMu : State := { s0 with cores := [(1, { coreOf [(0, th0)] with regions := [(0, rg 0x100 0x200 0 0)], lines := [(1, { filling := true }), (2, { st := 2, nt := true, wback := true })], mops := [mop 1 (.fill 1 false), mop 2 (.wback 2), mop 3 (.fwd 0 [1, 2, 3, 4] false), mop 4 .ifetch] })] }
theorem translated {s : State} {m : MOp} {wr : Bool} {x : Xlat} (h : (decide (m.xs = .idle ∧ m.va < 2 ^ 52 ∧ m.va / 2 ^ 48 ≠ 15 ∧ findTlb m.xl m.pasid m.va wr = some x ∧
    x.loc.host = false) && !s.poisoned (x.at m.va) && !s.migrating x && m.pasid == 0) = true) : Translated s 1 m wr x := by
  simp only [Bool.and_eq_true, decide_eq_true_eq, Bool.not_eq_true', beq_iff_eq] at h
  obtain ⟨⟨⟨⟨h1, h2, h3, h4, h5⟩, h6⟩, h7⟩, h8⟩ := h
  exact ⟨h1, h2, h3, h4, h5, h6, h7, Or.inl h8⟩
-- a fill and a write-back of which one chunk of 16 bytes has moved already
theorem wit_early_chunk : ∀ b : Bool, let y := { mop 1 (if b then .fill 1 false else .wback 2) with early := [(15, List.replicate 16 (7 : Byte))] }
    ∀ e ∈ y.early, e.2.length = 16 := by decide
theorem wit_map_unit : let k := sMu.core 1
    Translated sMu 1 (mop 1 (.fill 1 false)) false (xl true (some 0x8000)) ∧ Translated sMu 1 (mop 2 (.wback 2)) true (xl true (some 0x8000)) ∧
    Translated sMu 1 (mop 3 (.fwd 0 [1, 2, 3, 4] false)) true (xl true (some 0x8000)) ∧ Translated sMu 1 (mop 4 .ifetch) false (xl true (some 0x8000)) ∧
    (k.fillOf 1 = some (mop 1 (.fill 1 false)) ∧ (k.line 1).refill = false ∧ k.wbackOf 2 = some (mop 2 (.wback 2)) ∧ k.fwdOf 0 = some (mop 3 (.fwd 0 [1, 2, 3, 4] false)) ∧
      k.mops.find? (fun m => m.kind == .ifetch && m.pasid * 2 ^ 56 + m.va / 256 == 0x1000) = some (mop 4 .ifetch) ∧ k.regionAt 512 = some 0 ∧ 2 ≤ (k.line 2).st ∧
      (k.line 2).nt = true ∧ (k.line 2).wback = true ∧ sMu.memWaiters = [] ∧ 0x8000 + 8 ≤ ((xl true (some 0x8000)).at 0x100000).addr) :=
  ⟨translated (by decide +kernel), translated (by decide +kernel), translated (by decide +kernel), translated (by decide +kernel), by decide +kernel⟩

-- a fill that waits for a forwarded write of its line, and one that does not
theorem wit_forward_due : FwdDue (sMu.core 1) 0x100000 ∧ ¬FwdDue { sMu.core 1 with mops := [mop 1 (.fill 1 false)] } 0x100000 :=
  ⟨⟨mop 3 (.fwd 0 [1, 2, 3, 4] false), by decide +kernel, 0, [1, 2, 3, 4], false, rfl, rfl⟩, by rintro ⟨y, hy, r, bs, nt, h, -⟩; cases List.mem_singleton.mp hy; cases h⟩

def ef (h : Head) (fn : BitVec 5) (a b c : BitVec 7) (x : BitVec 15) : EForm := ⟨h, fn, true, 5, a, b, c, true, 6, x⟩
/-- Registers of commands: v8 and v9 an address pair, v6 a length, v12 a row and column, v14 rows and columns. -/
def sQ (det : Bool) : State := stOf 1 { coreOf [(0, { th0 with v := [(4, 0x100), (6, 0x20), (8, 0x2000), (10, 16), (12, 0xFE02), (14, 0x101FE), (16, 512)] })] with
  inst := some { i64 with det := det } } [0]
theorem wit_commands : roomy (sQ false) ∧ (∀ p ∈ [(Instr.runmap (ef hdU 0 0 0 0 3), ({ h := hdU } : OpSpec)), (.wback (ef hdU 0 0 0 0 3), { h := hdU }),
    (.cpy (ef hd 0 4 8 6 0), { h := hd, srcs := [{ reg := 4, n := 1, idx := 0 }, { reg := 8, n := 2, idx := 1 }, { reg := 6, idx := 2 }] }),
    (.cpy (ef hd 1 8 4 6 0), { h := hd, srcs := [{ reg := 8, n := 2, idx := 0 }, { reg := 4, n := 1, idx := 1 }, { reg := 6, idx := 2 }] }),
    (.cpy (ef hd 0 4 8 16 0), { h := hd, srcs := [{ reg := 4, n := 1, idx := 0 }, { reg := 8, n := 2, idx := 1 }, { reg := 16, idx := 2 }] }),
    (.acpy (ef hd 0 4 12 14 0), { h := hd, avail := .core, srcs := [{ reg := 4, idx := 0 }, { reg := 12, idx := 1 }, { reg := 14, idx := 2 }] }),
    (.acpy (ef hd 1 4 12 14 0), { h := hd, avail := .core, srcs := [{ reg := 4, idx := 0 }, { reg := 12, idx := 1 }, { reg := 14, idx := 2 }] }),
    (.aclr (ef hd 0 0 4 4 0), { h := hd, avail := .core, srcs := [{ reg := 4, idx := 1 }, { reg := 4, idx := 2 }] }),
    (.aclr (ef hd 0 0 16 4 0), { h := hd, avail := .core, srcs := [{ reg := 16, idx := 1 }, { reg := 4, idx := 2 }] }),
    (.aclr (ef hd 0 0 4 16 0), { h := hd, avail := .core, srcs := [{ reg := 4, idx := 1 }, { reg := 16, idx := 2 }] }),
    (.sempost ⟨hd, 0, false, 0, 0, 8, 6, false, 0, 0⟩, semSpec ⟨hd, 0, false, 0, 0, 8, 6, false, 0, 0⟩),
    (.semwaitTake ⟨hd, 0, false, 0, 10, 8, 6, false, 0, 0⟩, semSpec ⟨hd, 0, false, 0, 10, 8, 6, false, 0, 0⟩),
    (.semwaitEq ⟨hd, 1, false, 0, 10, 8, 6, false, 0, 0⟩, semSpec ⟨hd, 1, false, 0, 10, 8, 6, false, 0, 0⟩)], Runs p.1 p.2 (sQ false) 0) :=
  ⟨by unfold roomy; decide +kernel, runsAll (by decide +kernel)⟩
def cpn : State := stOf 1 { coreOf [(0, { th0 with v := [(4, 0x100), (6, 0x21), (8, 0x2000)] })] with inst := some i64 } [0]
theorem wit_cpy_length : Runs (.cpy (ef hd 0 4 8 6 0)) { h := hd, srcs := [{ reg := 4, n := 1, idx := 0 }, { reg := 8, n := 2, idx := 1 }, { reg := 6, idx := 2 }] } cpn 0 ∧
    (cpn.curThread 0).reg 6 = 0x21 := ⟨runs (by decide +kernel), by decide +kernel⟩
-- GATOM of 4, of 8 bytes, compare and swap; under DET it traps
theorem wit_gatom : ∀ p ∈ [(0x0, 1, 1), (0xE, 2, 2), (0x10, 2, 1)], ∀ d ∈ [false, true], let f : EForm := ⟨hd, BitVec.ofNat 5 p.1, false, 0, 10, 8, 4, false, 0, 0⟩
    Runs (.gatom f) { h := hd, srcs := [{ reg := 8, n := 2, idx := 1 }, { reg := 4, n := p.2.1, idx := 2 }], dsts := [{ reg := 10, n := p.2.2, idx := 0 }] } (sQ d) 0 ∧
      (sQ d).curCore.isDet = d := fun p h d g => ⟨runs (by revert p d; decide +kernel), by revert d; decide +kernel⟩

-- a GATOM that acquires; a copy out of, and one into, a window of the share set
theorem wit_gatom_acquire : let f : EForm := ⟨hd, 0, false, 0, 10, 8, 4, false, 0, 0x00A⟩
    f.x.toNat / 8 % 8 = 1 ∧ Runs (.gatom f) { h := hd, srcs := [{ reg := 8, n := 2, idx := 1 }, { reg := 4, n := 1, idx := 2 }], dsts := [{ reg := 10, n := 1, idx := 0 }] } (sQ false) 0 :=
  ⟨by decide, runs (by decide +kernel)⟩
def cpw (a : W32) : State := stOf 1 { coreOf [(0, { th0 with v := [(4, a), (6, 0x20), (8, 0x2000)] })] with inst := some i64 } [0]
theorem wit_cpy_window : ∀ a ∈ [0x100000, 0x8FFFF0], roomy (cpw (BitVec.ofNat 32 a)) ∧
    Runs (.cpy (ef hd 0 4 8 6 0)) { h := hd, srcs := [{ reg := 4, n := 1, idx := 0 }, { reg := 8, n := 2, idx := 1 }, { reg := 6, idx := 2 }] } (cpw (BitVec.ofNat 32 a)) 0 ∧
    Runs (.cpy (ef hd 1 8 4 6 0)) { h := hd, srcs := [{ reg := 8, n := 2, idx := 0 }, { reg := 4, n := 1, idx := 1 }, { reg := 6, idx := 2 }] } (cpw (BitVec.ofNat 32 a)) 0 :=
  fun a h => ⟨by unfold roomy; revert a; decide +kernel, runs (by revert a; decide +kernel), runs (by revert a; decide +kernel)⟩

/-- A descriptor in scratchpad at 0x40, word by word. -/
def put32 (m : Map Byte) (e : Nat × Nat) : Map Byte := (List.range 4).foldl (fun m j => Map.set 0 m (e.1 + j) (BitVec.ofNat 8 (e.2 / 256 ^ j))) m
def descOf (w0 w1 w5 w6 w14 : Nat) : List Nat := [w0, w1, 0x2000, 0, 0x100, w5, w6, 0, 0x40, 0, 0, 0, 16, 64, w14, 0]
def sDe (ws : List Nat) : State := stOf 1 { coreOf [(0, { th0 with v := [(4, 0x40)] })] with inst := some i64, scratch := ((List.range 16).map (fun i => (0x40 + 4 * i, ws.getD i 0))).foldl put32 [] } [0]
theorem wit_cpyd : ∀ ws ∈ [descOf 0 16 2 2 0, descOf 1 16 1 1 0, descOf 4 16 2 1 0x200, descOf 0 0 2 2 0],
    Runs (.cpyd (ef hd 0 4 0 0 0)) { h := hd, srcs := [{ reg := 4, idx := 0 }] } (sDe ws) 0 ∧ AtHand (sDe ws) 0 0x40 64 ∧ ((sDe ws).curCore.regionAt 0 = none ∧
      ∀ i < 16, ∀ j < 4, Map.get Config.blank (sDe ws).curCore.scratch (0x40 + 4 * i + j) = (BitVec.ofNat 32 (ws.getD i 0)).extractLsb' (8 * j) 8) :=
  fun ws h => ⟨runs (by revert ws; decide +kernel), atHand (by revert ws; decide +kernel), by revert ws; decide +kernel⟩
def cpyd : Cmd := { id := 4, op := 0xA4, tid := 0, pasid := 0, desc := (descOf 4 16 2 1 0x200).map (BitVec.ofNat 32) }
theorem wit_cpyd_starts : let k : Core := { coreOf [(0, th0)] with cmds := [cpyd], scratch := [(0x200, 5)] }
    k.cmd? 4 = some cpyd ∧ k.startable cpyd = true ∧ (∀ l ∈ linesOf 0x200 (4 * 2), k.regionAt (l * 256) = none) ∧
    ∀ r < 2, ∀ j < 4, Map.get Config.blank k.scratch (0x200 + 4 * r + j) = (if r = 0 then (5 : W32) else 0).extractLsb' (8 * j) 8 := by decide +kernel

/-- A copy of 32 bytes between scratchpad 0x100 and the page of `xl`. -/
def cpy (fn : Nat) (st : Bool) (d : List (Option (List Byte))) : Cmd := { id := 4, op := 0xA3, fn := fn, tid := 0, targets := [0], pasid := 0, sig := some 2, src := [xl true (some 0x8000)], started := st, data := d, moves := [if fn = 1 then { src := .spad 0x100, dst := .glob 0x100020, n := 32 } else { src := .glob 0x100020, dst := .spad 0x100, n := 32 }] }
def bs16 (i : Nat) : List Byte := List.replicate 16 (BitVec.ofNat 8 i)
def sCp (m : Cmd) : State := { s0 with cores := [(1, { coreOf [(0, th0)] with cmds := [m] })] }
theorem wit_copies : ∀ fn < 2, ∀ b, let m := cpy fn b (if b then [some (bs16 0), some (bs16 1)] else [])
    let s := sCp m
    (s.core 1).cmd? 4 = some m ∧ m.xs = .idle ∧ m.fails = none ∧ m.raw = false ∧ m.aside = false ∧ (xl true (some 0x8000)).loc.host = false ∧ (∀ l ∈ linesOf 0x100 32, (s.core 1).regionAt (l * 256) = none ∧ ((s.core 1).line l).filling = false) ∧
    (∀ i < 32, findTlb m.src m.pasid (0x100020 + i) (m.fn % 4 == 1) = some (xl true (some 0x8000))) ∧ s.migrating (xl true (some 0x8000)) = false ∧
    0x8000 + 8 ≤ ((xl true (some 0x8000)).at 0x100020).addr ∧ s.poison = [] ∧ s.rdma = [] ∧ ((s.core 1).startable m = !b) ∧ s.memWaiters = [] ∧
    (∀ i < 2, (bs16 i).length = 16) := by decide +kernel
def aclr (b : Bool) : Cmd := { id := 4, op := 0xB6, tid := 0, targets := [0], pasid := 0, b := 500, c := 12, started := b, cleared := if b then [64000] else [] }
-- a store of thread 5 that a copy issued before by thread 0 may miss, and one issued later may not
theorem wit_copy_misses : ∀ a ∈ [8, 9], let m := { cpy 1 false [] with moves := [{ src := .spad 0x40, dst := .glob 0x100020, n := 16 }], acqAt := a }
    ({ kMiss 0 with cmds := [m] } : Core).cmd? 4 = some m ∧ ({ kMiss 0 with cmds := [m] } : Core).startable m = true ∧ m.aside = false ∧ (m.acqAt < 9 ↔ a = 8) := by decide +kernel
theorem wit_aclr : ∀ b, ((sCp (aclr b)).core 1).cmd? 4 = some (aclr b) ∧ (aclr b).b.toNat + (aclr b).c.toNat ≤ 512 ∧ ((sCp (aclr b)).core 1).startable (aclr b) = !b := by
  decide +kernel

/-- A command on the word at 0x100020, whose value is `old`, for thread 0 and register v6. -/
def word (op fn : Nat) (c : W64) : Cmd := { id := 4, op := op, fn := fn, tid := 0, targets := [0], reg := 6, b := 0x100020, c := c, pasid := 0, src := [xl true (some 0x8000)], started := true }
def sWo (m : Cmd) (th : Thread) (old : Byte) : State := { s0 with cores := [(1, { coreOf [(0, th)] with cmds := [m] })], mem := [(0x500020, old)] }
theorem wit_word : ∀ p ∈ [(0xA6, 0x0), (0xA6, 0xD), (0xA6, 0xE), (0xA6, 0xF), (0xA6, 0x10), (0xA7, 0), (0xA7, 1), (0xA8, 0)], let m := word p.1 p.2 5
    let s := sWo m th0 5
    (s.core 1).cmd? 4 = some m ∧ m.started = true ∧ m.pasid = 0 ∧ m.xs = .idle ∧ m.fails = none ∧ m.targets = [0] ∧ (xl true (some 0x8000)).loc.host = false ∧ m.b.toNat < 2 ^ 52 ∧ findTlb m.src m.pasid m.b.toNat true = some (xl true (some 0x8000)) ∧
    findTlb m.src m.pasid m.b.toNat false = some (xl true (some 0x8000)) ∧ s.poisoned ((xl true (some 0x8000)).at m.b.toNat) = false ∧
    s.migrating (xl true (some 0x8000)) = false ∧ ((xl true (some 0x8000)).at m.b.toNat).addr = 0x500020 ∧
    (∀ i < 8, (Map.get Config.blank s.mem (0x500020 + i)).toNat = 5 / 2 ^ (8 * i) % 256) ∧ s.rdma = [] ∧ (s.core 1).inst = none := by decide +kernel
theorem wit_word_waits : let th : Thread := { th0 with block := some (.sem 4), pend := [{ reg := 6, src := .cmd 4 }] }
    ((sWo (word 0xA7 0 5) th 5).core 1).thread 0 = th ∧ th.st = .live ∧ th.pend = (List.range (4 / 4)).map (fun i => { reg := 6 + i, src := .cmd 4 }) ∧
    (5 : W32).toNat ≤ 5 ∧ 5 < (6 : W32).toNat := by decide +kernel

def tf (a : BitVec 7) : EForm := ⟨hd, 0, false, 0, a, 0, 0, false, 0, 2⟩
def sTb (b : TBar) : State := stOf 1 { coreOf [(0, th0)] with inst := some i64, tbs := [(2, b)] } [0]
theorem wit_barrier : ∀ b ∈ [({} : TBar), { complete := false, expected := 2, done := 1 }, { fail := true }], Runs (.tbwait (tf 0)) { h := hd } (sTb b) 0 ∧
    Runs (.tbtest (tf 6)) { h := hd, dsts := [{ dstD 6 2 with idx := 0 }] } (sTb b) 0 ∧
    Runs (.tbinit ⟨hdU, 0, false, 0, 9, 0, 0, false, 0, 2⟩) { h := hdU, srcs := [{ reg := 9, idx := 0 }] } (sTb b) 0 ∧ (sTb b).curCore.tb 2 = b :=
  fun b h => ⟨runs (by revert b; decide +kernel), runs (by revert b; decide +kernel), runs (by revert b; decide +kernel), by revert b; decide +kernel⟩

def sjf : EForm := ⟨hdU, 0, false, 0, 6, 4, 5, false, 0, 0⟩
/-- SJOIN of set v4, rank v5; core 2 is in a set. -/
def sSj (id rank : W32) (det : Bool) (own peer : Option (Nat × Nat)) : State :=
  let s := stOf 1 { coreOf [(0, { th0 with v := [(4, id), (5, rank)] })] with inst := some { i64 with det := det }, sset := own } [0]
  { s with cores := s.cores ++ [(2, { sset := peer })] }
theorem wit_share : ∀ s ∈ [sSj 15 7 false none none, sSj 15 7 false none (some (15, 7)), sSj 15 7 false (some (1, 1)) none, sSj 15 7 true none none, sSj 16 7 false none none,
      sSj 15 8 false none none], Runs (.sjoin sjf) { h := hdU, avail := .core, srcs := [{ reg := 4, idx := 1 }, { reg := 5, idx := 2 }], dsts := [{ reg := 6, idx := 0 }] } s 0 ∧
    Runs (.sleave ⟨hdU, 0, false, 0, 6, 0, 0, false, 0, 0⟩) { h := hdU, avail := .core, dsts := [{ reg := 6, idx := 0 }] } s 0 :=
  fun s h => ⟨runs (by revert s; decide +kernel), runs (by revert s; decide +kernel)⟩
theorem wit_revocation : let s : State := { s0 with cores := [(1, { coreOf [(0, { th0 with block := some (.sleave 6) })] with leaving := some [], sset := some (9, 0) })] }
    (s.core 1).leaving = some [] ∧ 0 ∈ (s.core 1).liveTids ∧ ((s.core 1).thread 0).block = some (.sleave 6) ∧ ((s.core 1).thread 0).st = .live ∧ s.revokeThreads 1 = s := by
  decide +kernel

/-! ### Witnesses: the matrix and coverage engines, system registers, saving -/

def th1 : Thread := { th0 with level := .sl, v := [(4, 0x40), (6, 0x100), (8, 5), (16, 33)] }
def en (w : List W32) : MatOp := { ticket := 5, home := 1, words := w }
def sMx (th : Thread) (q : List MatOp) (stop : Bool) (fs : List (W32 × W32)) : State :=
  stOf 1 { coreOf [(0, th)] with inst := some i64, mq := q, mstop := stop, mticket := 6, mfaults := fs } [0]
def mm (a : BitVec 7) : EForm := ⟨hdU, 0, true, 3, a, 6, 0, true, 1, 0⟩
-- MMA with a good offset and a bad one, on an empty queue and a full one; MWAIT for a ticket due, done, faulted
theorem wit_matrix : ∀ q ∈ [[], List.replicate 4 (en [])], ∀ a ∈ [4, 16], Runs (.mma (mm (BitVec.ofNat 7 a))) { h := hdU, avail := .core, srcs := [{ reg := a, idx := 0 }], dsts := [{ reg := 6, idx := 1 }] } (sMx th1 q false []) 0 := fun q h a g => runs (by revert q a; decide +kernel)
theorem wit_mwait : ∀ p ∈ [([en []], []), ([], []), ([{ en [] with stopped := true }], [(5, 0xE0000017)])], Runs (.mwait ⟨hd, 0, false, 0, 8, 0, 0, false, 0, 0⟩)
    { h := hd, avail := .core, srcs := [{ reg := 8, idx := 0 }] } (sMx th1 p.1 false p.2) 0 ∧ Runs (.mfence ⟨hd, 0, false, 0, 0, 0, 0, false, 0, 0⟩) { h := hd, avail := .core } (sMx th1 p.1 false p.2) 0 :=
  fun p h => ⟨runs (by revert p; decide +kernel), runs (by revert p; decide +kernel)⟩
def mo (fn : BitVec 5) (a b c : BitVec 7) (x : BitVec 15) : EForm := ⟨hd, fn, false, 0, a, b, c, false, 0, x⟩
def w16 : List W32 := (List.range 16).map (BitVec.ofNat 32)
theorem wit_matrix_save : ∀ q ∈ [[], [en w16], [{ en w16 with stopped := true, sig := some 3 }]], (∀ p ∈ [(Instr.mprogProg (mo 0 6 0 8 0), ({ h := hd, avail := .sl, dsts := [{ dstD 6 2 with idx := 0 }, { reg := 8, idx := 2 }] } : OpSpec)), (.mprogCopy (mo 1 0 4 8 0), { h := hd, avail := .sl, srcs := [{ reg := 4, idx := 1 }], dsts := [{ reg := 8, idx := 2 }] }),
    (.mprogLast (mo 2 0 0 8 0), { h := hd, avail := .sl, dsts := [{ reg := 8, idx := 2 }] }), (.mstop (mo 0 0 0 0 0), { h := hd, avail := .sl }), (.mresume (mo 0 0 0 0 0), { h := hd, avail := .sl }),
    (.mresumeLoad (mo 1 4 8 0 0), { h := hd, avail := .sl, srcs := [{ reg := 4, idx := 0 }, { reg := 8, idx := 1 }] }),
    (.mresumeTick (mo 2 0 8 0 0), { h := hd, avail := .sl, srcs := [{ reg := 8, idx := 1 }] })], Runs p.1 p.2 (sMx th1 q true []) 0) ∧
    Runs (.mresumeLoad (mo 1 4 8 0 0)) { h := hd, avail := .sl, srcs := [{ reg := 4, idx := 0 }, { reg := 8, idx := 1 }] } (sMx th1 q false []) 0 :=
  fun q h => ⟨fun p g => runs (by revert q p; decide +kernel), runs (by revert q; decide +kernel)⟩
-- MWAIT for an operation that ended with 0x17; MSTOP and MRESUME of one that has started, its elements not yet written
theorem wit_mwait_fault : let k := (sMx th1 [] false [(5, 0xE0000317), (6, 0xE000000E)]).curCore
    ((5 : W32) - 6).toInt ≤ 0 ∧ k.mticket = 6 ∧ ((5 : W32), (0xE0000317 : W32)) ∉ [((6 : W32), (0xE000000E : W32))] ∧ (0xE0000317 : W32).extractLsb' 0 8 = 0x17#8 ∧ (k.thread 0).sub = none := by decide +kernel
theorem wit_matrix_part : ∀ b, let e : MatOp := { en w16 with started := true, stopped := b, part := some [(5, 7)] }
    (legal (.mstop (mo 0 0 0 0 0)) && (sMx th1 [e] true []).lone { h := hd, avail := .sl } 0 && legal (.mresume (mo 0 0 0 0 0))) = true ∧ e.words ≠ [] ∧ e.part = some [(5, 7)] ∧ e.fault = none ∧
    (geoOf e.words).elems.all (fun q => Map.get 0 (sMx th1 [e] true []).curCore.acc q == Map.get 0 e.base q) = true := by decide +kernel
-- the image of an operation that has ended, and of one that has not
theorem wit_images : (wordAt [(0x7F, 0x80)] 0x7C).getLsbD 31 = true ∧ (wordAt [(0x7F, 0x80)] 0x7C).extractLsb' 0 8 = 0#8 ∧
    (wordAt [] 0x7C).getLsbD 31 = false ∧ w16.length = 16 := by decide +kernel

/-- Words of a BF16 operation of one row, one column and one K-block, and of a BFP one of 4 and 3 bits. -/
def wBf : List W32 := [1, 0x10001, 16, 0xFFFFFFFF, 0x100, 32, 0x200, 32, 0, 0, 0, 0, 0, 0, 0, 0]
def wBfp : List W32 := [0x3401, 0x10001, 32, 0xFFFFFFFF, 0x100, 16, 0x200, 16, 0x300, 0x310, 1, 1, 0, 0, 0, 0]
def sOp (e : MatOp) (sp : Map Byte) : State := { s0 with cores := [(1, { coreOf [(0, th0)] with mq := [e], scratch := sp })] }
def spOf (ws : List W32) : Map Byte := ((List.range 16).map (fun i => (0x40 + 4 * i, (ws.getD i 0).toNat))).foldl put32 []
theorem wit_matrix_start : ∀ ws ∈ [wBf, wBfp, []], let s := sOp (en []) (spOf ws)
    (s.core 1).mq = [en []] ∧ (s.core 1).mfaults.length < 8 ∧ (List.range 16).map (fun i => wordAt (s.core 1).scratch (1 * 64 + 4 * i)) = (List.range 16).map (fun i => ws.getD i 0) := by
  decide +kernel
theorem wit_matrix_words : mpbBad wBf false = none ∧ mpbBad wBfp false = none ∧ mpbBad (List.replicate 16 0) false = some 0 ∧ (geoOf wBf).accum = false ∧ (geoOf wBf).wfx = false ∧
    0 < (geoOf wBf).m ∧ 0 < (geoOf wBf).n ∧ (∀ r ∈ gatherRows [] (geoOf wBf), inLocal r (geoOf wBf).la = true) ∧ (geoOf wBf).kb = 1 ∧ (geoOf wBf).bf = true ∧
    (geoOf wBfp).bf = false ∧ (geoOf wBfp).kb = 1 ∧ (geoOf wBfp).spm = 0 ∧ (0 + 1) * (geoOf wBfp).m ≤ wN wBfp 10 ∧ (0 + 1) * (geoOf wBfp).n ≤ wN wBfp 11 ∧
    (geoOf wBf).col0 + (geoOf wBf).n ≤ 128 := by decide +kernel
theorem wit_matrix_folds : ∀ e ∈ [{ en wBf with started := true, rows := [0x100] }, { en wBfp with started := true, rows := [0x100] }, { en wBf with started := true, kdone := 1 }],
    ((sOp e []).core 1).mq = [e] ∧ e.started = true ∧ e.fault = none ∧ e.stopped = false ∧ 0 < e.home ∧ e.home * 64 ≤ 0x0BFFC0 := by decide +kernel
theorem wit_scales : let g := geoOf wBfp
    (Map.get Config.blank [(0x300, (255 : Byte))] (wN g.w 8 + 0 * g.m + 0)).toNat = 255 ∧ (Map.get Config.blank [(0x300, (130 : Byte))] (wN g.w 8 + 0 * g.m + 0)).toNat ≠ 255 := by decide +kernel

-- the K-block of an operation that holds its elements; the end of one that overflowed in row 300; the words that BF16 wants zero
theorem wit_matrix_rows : let e : MatOp := { en wBf with started := true, rows := [0x100], part := some [] }
    e.rows.length = (geoOf e.words).m ∧ e.kdone < (geoOf e.words).kb ∧ e.part = some [] ∧ ((sOp e []).core 1).unfenced = [] := by decide +kernel
theorem wit_matrix_overflow : let ws := wBf.set 0 0x800001
    let e : MatOp := { en ws with started := true, kdone := 1, ovf := true, ovfRow := some 300, part := some [] }
    (geoOf ws).ovft = true ∧ e.kdone = (geoOf ws).kb ∧ (geoOf ws).bf = true ∧ e.ovfRow = some 300 ∧ 0 < e.home ∧ e.home * 64 ≤ 0x0BFFC0 := by decide +kernel
theorem wit_matrix_bf16 : wBf.length = 16 ∧ mpbBad wBf false = none ∧ (geoOf wBf).bf = true ∧ (1 : W32) ≠ 0 ∧ mpbBad (List.replicate 16 0) false = some 0 := by decide +kernel

def cq (op : Nat) (st : Bool) : CovCmd := { op := op, fn := 0, opa := 0x40, opb := 0x100, started := st, sig := some 3 }
def sV2 (th : Thread) (v : Cov) : State := stOf 1 { coreOf [(0, th)] with inst := some i64, cov := v } [0]
def cvf (a b : BitVec 7) : EForm := ⟨hdU, 0, true, 6, a, b, 0, true, 1, 0⟩
def thC (a b x y : W32) : Thread := { th1 with v := [(4, a), (5, b), (8, x), (9, y)] }
def cvOne : OpSpec := { h := hdU, avail := .core, srcs := [{ reg := 8, n := 2, idx := 0 }] }
def cvTwo : OpSpec := { h := hdU, avail := .core, srcs := [{ reg := 4, idx := 0 }, { reg := 5, idx := 1 }] }
-- operands inside and outside their limits, an empty queue, a full one, a faulted engine
theorem wit_coverage : ∀ th ∈ [thC 0x40 0xC0000 16 0xFFFFFFF0, thC 0x41 0 1 0, thC 0xC0000 0 0 0, thC 0xBFFFC 0xC0001 0 3], ∀ v ∈ [({} : Cov), { queue := List.replicate 4 (cq 0xC1 false) },
      { faulted := true, frec := 3, freason := 4 }], ∀ p ∈ [(Instr.cvclr (cvf 8 0), cvOne), (.cvpath (cvf 4 5), cvTwo), (.cvscan (cvf 4 5), cvTwo)], Runs p.1 p.2 (sV2 th v) 0 :=
  fun th h v g p q => runs (by revert th v p; decide +kernel)
theorem wit_cvbox : Runs (.cvbox ⟨hd, 10, 4, 8, 0, 0, 0, 0x008⟩) (specW2 ⟨hd, 10, 4, 8, 0, 0, 0, 0x008⟩ 2 none 2 none 2) (sV2 (thC 0 0 1 2) {}) 0 := runs (by decide +kernel)
def cs (fn : BitVec 5) (a : BitVec 7) : EForm := ⟨hd, fn, false, 0, a, 0, 0, false, 0, 0⟩
def sl0 : OpSpec := { h := hd, avail := .sl }
def sl4 : OpSpec := { h := hd, avail := .sl, srcs := [{ reg := 4, idx := 0 }] }
-- v4 = 0x40, 0x100 and the last place of the memory image; queues idle, under way and empty
theorem wit_coverage_save : ∀ a ∈ [0x40, 0x100, 0xB4000], ∀ v ∈ [({} : Cov), { queue := [cq 0xC1 false] }, { queue := [cq 0xC1 true] }],
    ∀ p ∈ [(Instr.cvstop (cs 0 0), sl0), (.cvresume (cs 0 0), sl0), (.cvsaveCtl (cs 1 4), sl4), (.cvloadCtl (cs 1 4), sl4), (.cvsaveImg (cs 0 4), sl4), (.cvloadImg (cs 0 4), sl4),
      (.cvsaveQ (cs 2 4), sl4), (.cvloadQ (cs 2 4), sl4)], Runs p.1 p.2 (sV2 (thC (BitVec.ofNat 32 a) 0 0 0) v) 0 :=
  fun a h v g p q => runs (by revert a v p; decide +kernel)
theorem wit_queue_image : let w (i : Nat) : W32 := wordAt [(0x40, 0xC1), (0x42, 1)] (0x40 + 4 * i)
    (w 0).extractLsb' 0 8 ≠ 0#8 ∧ (w 0).getLsbD 16 = true ∧ ∀ i < 4, 1 ≤ i → (w (4 * i)).extractLsb' 0 8 = 0#8 := by decide +kernel

def sCv (v : Cov) (sp : Map Byte) : State := { s0 with cores := [(1, { coreOf [(0, th0)] with cov := v, scratch := sp })] }
theorem wit_paths : ∀ m ∈ [cq 0xC0 false, cq 0xC1 false, { cq 0xC1 false with skip := true }, cq 0xC2 false, { cq 0xC2 false with fn := 1 }, { cq 0xC2 false with fn := 2 },
      { cq 0xC2 false with fn := 3 }], ((sCv { queue := [m] } []).core 1).cov.queue = [m] ∧ m.started = false ∧ m.wait = none ∧ m.opa.toNat % 8 = 0 ∧ m.opa.toNat + 8 ≤ 0xC0000 := by
  decide +kernel
def rec3 (a b c : Nat) : Map Byte := [(0x40, a), (0x44, b), (0x48, c)].foldl put32 []
def vRec (n l : W32) : Cov := { queue := [cq 0xC1 true], next := n, limit := l, havept := true }
theorem wit_record : (vRec 0x40 0x4C).next.toNat + 12 ≤ (vRec 0x40 0x4C).limit.toNat ∧ wordAt (rec3 2 0x7FFFFF 0xFF800000) 0x40 = 2 ∧
    (wordAt (rec3 2 0x7FFFFF 0xFF800000) 0x44).toInt < 2 ^ 23 ∧ -(2 ^ 23) ≤ (wordAt (rec3 2 0x7FFFFF 0xFF800000) 0x48).toInt ∧
    (vRec 0x40 0x43).limit.toNat < (vRec 0x40 0x43).next.toNat + 4 ∧ 512 ≤ (wordAt (rec3 512 0 0) 0x40).toNat ∧ (vRec 0x40 0x4C).halt = false := by decide +kernel
theorem wit_cells : let v : Cov := {}
    (0 : Int) ≤ min 100 200 / 256 - v.oy.toInt ∧ min 1023 1023 / 256 - v.ox.toInt < 4 ∧ min (-1) 5 / 256 - v.ox.toInt < 0 ∧ (4 : Int) ≤ min 1024 1030 / 256 - v.oy.toInt ∧
    3 < v.tile ∧ v.depth = 0 ∧ (∀ r ∈ v.grid false, ∀ x ∈ r, x = 0) := by decide +kernel

-- CVSCAN at each depth of the clip stack that its clauses name; one that has written its first word
theorem wit_scan_depths : ∀ d ∈ [0, 1, 7], ∀ fn < 4, let v : Cov := { depth := BitVec.ofNat 3 d, queue := [{ cq 0xC2 false with fn := fn }] }
    (0 : Nat) ∈ ({ cq 0xC2 false with fn := fn, early := [0] } : CovCmd).early ∧ v.depth.toNat = d ∧ v.queue = [{ cq 0xC2 false with fn := fn }] ∧ v.halt = false ∧ v.stopped = false := by decide +kernel

def sf (n : BitVec 12) (d a : BitVec 7) (imm : BitVec 15) : SForm := ⟨hd, 0, d, a, n, imm⟩
def sSy (c : Nat) (l : Level) (g : Option Nat) : State := { stOf c { coreOf [(0, { th0 with level := l, grp := g })] with inst := if c < 208 then some i64 else none, groups := [(3, { members := [0] })] } [0] with
  slots := [(5, { prio := 6 })] }
theorem wit_mfs : ∀ g ∈ [none, some 3], ∀ e ∈ sysTable (sSy 1 .sl g) 1 0, Runs (.mfs (sf (BitVec.ofNat 12 e.1) 6 0 0)) (readSpec (sf (BitVec.ofNat 12 e.1) 6 0 0) (levelOf e.1) e.2.1) (sSy 1 .sl g) 0 :=
  fun g h e q => runs (by revert e; revert g; decide +kernel)
theorem wit_mfs_other : ∀ g ∈ [none, some 3], ∀ n ∈ [0x107, 0x120, 0x12F], Runs (.mfs (sf (BitVec.ofNat 12 n) 6 0 0)) (readSpec (sf (BitVec.ofNat 12 n) 6 0 0) .sl false) (sSy 1 .sl g) 0 :=
  fun g h n q => runs (by revert g n; decide +kernel)
theorem wit_mfs_control : ∀ n ∈ [1, 2, 3, 7, 8, 9, 0x203, 0x204], Runs (.mfs (sf (BitVec.ofNat 12 n) 6 0 0)) (readSpec (sf (BitVec.ofNat 12 n) 6 0 0) (levelOf n) false) (sSy 209 .cl none) 0 :=
  fun n q => runs (by revert n; decide +kernel)
theorem wit_qprio : Runs (.mfs (sf 0x200 6 0 5)) (readSpec (sf 0x200 6 0 5) .cl false) (sSy 209 .cl none) 0 ∧ Runs (.mts (sf 0x200 0 4 5)) (writeSpec (sf 0x200 0 4 5) .cl false) (sSy 209 .cl none) 0 :=
  ⟨runs (by decide +kernel), runs (by decide +kernel)⟩
theorem wit_mts : ∀ n ∈ [(0x00A, true), (0x00E, false), (0x00F, false), (0x101, false), (0x102, true), (0x103, true), (0x104, false), (0x105, true), (0x108, true), (0x109, true),
      (0x10A, true), (0x10B, true), (0x110, true), (0x111, true), (0x112, true), (0x113, true), (0x100, false), (0x152, false)],
    Runs (.mts (sf (BitVec.ofNat 12 n.1) 0 4 0)) (writeSpec (sf (BitVec.ofNat 12 n.1) 0 4 0) (levelOf n.1) n.2) (sSy 1 .sl none) 0 := fun n q => runs (by revert n; decide +kernel)
theorem wit_mts_control : Runs (.mts (sf 0x204 0 4 0)) (writeSpec (sf 0x204 0 4 0) .cl false) (sSy 209 .cl none) 0 ∧
    Runs (.evtWrite (sf 0x203 0 4 0)) (writeSpec (sf 0x203 0 4 0) .cl false) (sSy 209 .cl none) 0 := ⟨runs (by decide +kernel), runs (by decide +kernel)⟩
theorem wit_mts_named : ∀ g ∈ [none, some 3], (∀ p ∈ [(Instr.tctxWrite (sf 0x107 0 4 0), writeSpec (sf 0x107 0 4 0) .sl false), (.sphaseWrite (sf 0x153 0 4 0), writeSpec (sf 0x153 0 4 0) .sl false),
      (.bcntWrite (sf 0x120 0 4 0), writeSpec (sf 0x120 0 4 0) .sl false), (.bcntWrite (sf 0x12F 0 4 0), writeSpec (sf 0x12F 0 4 0) .sl false)], Runs p.1 p.2 (sSy 1 .sl g) 0) ∧
    (sSy 1 .sl g).curCore.live 0 = true ∧ (sSy 1 .sl g).curCore.restore = false := fun g h => ⟨fun p q => runs (by revert p; revert g; decide +kernel), by revert g; decide +kernel⟩

/-- Control core 1 with events `ev`; kicks of queue 0 of function 1 and of queue 3 of function 2 are pending, function 1 is its own. -/
def sWf (ev : BitVec 6) (last : Option Nat) (a : W32) : State := { stOf 209 { coreOf [(0, { th0 with level := .cl, v := [(4, a), (6, 0x1000)] })] with evt := ev, kpendAt := last } [0] with
  pendBits := [64, 131], fmap := [(1, 0), (2, 1)], parts := [(0, { cc := 1, slots := 0x20 }), (1, { cc := 2, slots := 0x40 })], slots := [(5, {}), (6, {})] }
def cl1 : OpSpec := { h := hd, avail := .cl, dsts := [dstD 6 1] }
theorem wit_wfi_kpend : ∀ s ∈ [sWf 2 none 0, sWf 0 (some 64) 0, sWf 1 (some 100) 0], Runs (.wfi (sf 0 6 0 2)) cl1 s 0 ∧ Runs (.kpend (sf 0 6 0 0)) cl1 s 0 ∧
    s.pendBits.Pairwise (· < ·) ∧ 64 ∈ s.pendBits ∧ s.funcCc (64 / 64) = some (209 - 208) ∧ s.funcCc (131 / 64) ≠ some (209 - 208) ∧ s.curCore.live 0 = true :=
  fun s h => ⟨runs (by revert s; decide +kernel), runs (by revert s; decide +kernel), by revert s; decide +kernel, by revert s; decide +kernel, by revert s; decide +kernel, by revert s; decide +kernel, by revert s; decide +kernel⟩
-- MFS and MTS of %sphase: never written, or written; a global atomic of the thread is under way
theorem wit_sphase : ∀ b : Bool, let k := { (sSy 1 .sl none).curCore with sphaseSet := b, cmds := if b then [{ id := 4, op := 0xA6, tid := 0, targets := [0], pasid := 0 }] else [] }
    (k.ownAtoms 0 = [] ↔ b = false) ∧ (k.thread 0).relSet = none ∧ (legal (.sphaseWrite (sf 0x153 0 4 0)) && (stOf 1 k [0]).lone (writeSpec (sf 0x153 0 4 0) .sl false) 0 &&
      legal (.mfs (sf 0x153 6 0 0)) && (stOf 1 k [0]).lone (readSpec (sf 0x153 6 0 0) .sl false) 0) = true := by decide +kernel
theorem wit_ipi : ∀ a ∈ [7, 8, 2 ^ 30, 2 ^ 30 + 207, 2 ^ 30 + 208, 2 ^ 31, 2 ^ 31 + 63, 2 ^ 31 + 64], Runs (.ipi (sf 0 6 4 0)) { cl1 with srcs := [{ reg := 4, idx := 0 }] } (sWf 0 none (BitVec.ofNat 32 a)) 0 ∧
    ((sWf 0 none (BitVec.ofNat 32 a)).curThread 0).relSet = none ∧ (sWf 0 none (BitVec.ofNat 32 a)).curCore.lines = [] ∧ (sWf 0 none (BitVec.ofNat 32 a)).curCore.cmds = [] :=
  fun a h => ⟨runs (by revert a; decide +kernel), by revert a; decide +kernel, by revert a; decide +kernel, by revert a; decide +kernel⟩
theorem wit_iflush : ∀ n ∈ [0, 16], Runs (.iflush (sf 0 0 6 (BitVec.ofNat 15 n))) { h := hd, avail := .slcl, srcs := [{ reg := 6, n := 2, idx := 0 }] } (sSy 1 .sl none) 0 :=
  fun n h => runs (by revert n; decide +kernel)

/-- The identity map of PASID 0 below 1 GiB, for reads and writes. -/
def tab0 : Map Byte := [(0x10000, 0x14001), (0x14000, 0x20001), (0x20000, 0x30001), (0x30000, 7)].foldl put32 []
/-- A QCB at 0x100 with the fields of R368. -/
def qcb (rsize pasid : Nat) : Map Byte := [(0x100, 0x4000), (0x108, rsize), (0x138, 16), (0x13C, pasid)].foldl put32 tab0
def qf : SForm := sf 0 8 6 0
def sQb (q a : W32) (m : Map Byte) (x : Slot) : State := { stOf 209 { coreOf [(0, { th0 with level := .cl, v := [(6, a), (8, q)] })] with clock := 1 } [0] with
  mem := m, ptbase := 0x10000, slots := [(5, x)], parts := [(0, { cc := 1, slots := 0x20 })], fmap := [(1, 0)] }
-- slot 64, a slot of another core, a bound slot, a bad QCB, a good one
theorem wit_qbind : ∀ s ∈ [sQb 64 0x100 tab0 {}, sQb 6 0x100 tab0 {}, sQb 5 0x100 tab0 { bound := true }, sQb 5 0x101 tab0 {}, sQb 5 0x100 (qcb 17 7) {}, sQb 5 0x100 (qcb 16 7) {}],
    Runs (.qbind qf) { h := hd, avail := .cl, srcs := [{ reg := 8, idx := 3 }, { reg := 6, n := 2, idx := 0 }], dsts := [dstD 8 1] } s 0 ∧
    Runs (.qunbind (sf 0 8 0 0)) { h := hd, avail := .cl, srcs := [{ reg := 8, idx := 3 }], dsts := [dstD 8 1] } s 0 := fun s h => ⟨runs (by revert s; decide +kernel), runs (by revert s; decide +kernel)⟩
theorem mapped0 {s : State} {va n : Nat} (h : (s.asked.isEmpty && (List.range n).all (fun i => (s.lookup 0 (va + i)).isSome)) = true) : Mapped0 s va n := by
  simp only [Bool.and_eq_true, List.isEmpty_iff, List.all_eq_true, List.mem_range] at h
  exact ⟨h.1, fun a p q => by have := h.2 (a - va) (by omega); rwa [Nat.add_sub_cancel' p] at this⟩
theorem wit_qcb_mapped : ∀ m ∈ [qcb 17 7, qcb 16 7], Mapped0 (sQb 5 0x100 m {}) 0x100 256 := fun m h => mapped0 (by revert m; decide +kernel)
theorem wit_qcb : let s := sQb 5 0x100 (qcb 16 7) {}
    s.slotPart 5 = some 0 ∧ s.ccOf (some 0) = some (209 - 208) ∧ s.slotPart 6 = none ∧ (s.slot 5).bound = false ∧
    (let b := s.read0 0x100 256; let n (off w : Nat) : Nat := leNat ((b.drop off).take w)
     n 0 8 % 64 = 0 ∧ n 8 4 = 2 ^ 4 ∧ n 0x0C 4 = 0 ∧ n 0x2D 1 = 0 ∧ n 0x30 8 % 16 = 0 ∧ n 0x38 4 = 16 ∧ n 0x3C 4 = 7 ∧ n 0x50 8 = 0) := by decide +kernel
theorem wit_unbind : ∀ x ∈ [({ bound := true } : Slot), { bound := true, save := 0x1000, launch := some { cores := [.running 3] } }], ((sQb 5 0 [] x).slot 5).record = none ∧
    ((sQb 5 0 [] x).slot 5).phase ≠ .frame ∧ ((sQb 5 0 [] x).slot 5).unbinding = none ∧ (x.launch.all (·.running)) = true := by decide +kernel

-- QUNBIND of a queue bound with a saved LAUNCH that has not issued again: it drains; with its flag and a save area it unbinds
theorem wit_unbind_saved : ∀ x ∈ [({ bound := true, resume := .saved, write := 9, read := 8 } : Slot), { bound := true, resume := .saved, save := 0x1000 }], ∀ b ∈ [0, 1], let s := sQb 5 0 [] x
    Runs (.qunbind ⟨hd, b, 8, 0, 0, 0⟩) { h := hd, avail := .cl, srcs := [{ reg := 8, idx := 3 }], dsts := [dstD 8 1] } s 0 ∧ s.slotPart 5 = some 0 ∧ s.ccOf (some 0) = some (209 - 208) ∧ (s.slot 5).bound = true ∧
      (s.slot 5).resume = .saved ∧ (s.slot 5).err = 0 ∧ (s.slot 5).unbinding = none := fun x h b g => ⟨runs (by revert b; revert x; decide +kernel), by revert x; decide +kernel⟩
-- QUNBIND whose release waits for a command
theorem wit_unbind_waits : let s : State := { sQb 5 0 [] { bound := true } with cores := [(209, { (sQb 5 0 [] {}).curCore with threads := [(0, { th0 with level := .cl, v := [(8, 5)], relSet := some { cmds := [7] } })] })] }
    (legal (.qunbind (sf 0 8 0 0)) && s.lone { h := hd, avail := .cl, srcs := [{ reg := 8, idx := 3 }], dsts := [dstD 8 1] } 0) = true ∧ (s.curThread 0).relSet = some { cmds := [7] } ∧
    s.slotPart 5 = some 0 ∧ s.ccOf (some 0) = some (209 - 208) ∧ (s.slot 5).bound = true := by decide +kernel

def sTs (a : W32) (m : Map Byte) (r : Bool) : State := stOf 1 { coreOf [(0, { th0 with level := .sl, v := [(4, a)] })] with inst := some i64, staging := m, restore := r } [0]
-- offsets that are not a multiple of 64, outside staging, at its end; a block with LIVE and one without
theorem wit_thread_blocks : ∀ s ∈ [sTs 0xF00001 [] true, sTs 0xEFFFC0 [] true, sTs 0xF1FDC0 [] true, sTs 0xF1FD80 [] true, sTs 0xF00000 [(51, 1)] true, sTs 0xF00000 [(51, 1)] false],
    Runs (.tsaveWrite (sf 0x10C 0 4 0)) (writeSpec (sf 0x10C 0 4 0) .sl false) s 0 ∧ Runs (.tloadWrite (sf 0x10D 0 4 0)) (writeSpec (sf 0x10D 0 4 0) .sl false) s 0 :=
  fun s h => ⟨runs (by revert s; decide +kernel), runs (by revert s; decide +kernel)⟩
theorem wit_block_live : leNat (Map.getRange 0 [(51, (1 : Byte))] 48 4) / 2 ^ 24 % 2 = 1 ∧ 0xF1FD80 + 640 = 0xF20000 := by decide +kernel
-- a range entry on the block: both instructions wait
theorem wit_thread_block_waits : let s := stOf 1 { (sTs 0xF00000 [(51, 1)] true).curCore with cmds := [{ id := 4, op := 0xA5, tid := 0, pasid := 0, ranges := [{ lo := 0xF00000, hi := 0xF00010, wr := true }] }] } [0]
    (s.curCore.stalls 0xF00000 640 && legal (.tsaveWrite (sf 0x10C 0 4 0)) && s.lone (writeSpec (sf 0x10C 0 4 0) .sl false) 0 &&
      legal (.tloadWrite (sf 0x10D 0 4 0)) && s.lone (writeSpec (sf 0x10D 0 4 0) .sl false) 0) = true := by decide +kernel
theorem getRange_nil (i n : Nat) : Map.getRange 0#8 [] i n = List.replicate n 0#8 := by
  induction n generalizing i with
  | zero => rfl
  | succ n ih => rw [Map.getRange, ih]; rfl
theorem leNat_zeros (n : Nat) : leNat (List.replicate n 0#8) = 0 := by
  induction n with
  | zero => rfl
  | succ n ih => rw [List.replicate_succ, leNat, ih]; rfl
theorem imageBad_zeros (m : Nat) : imageBad (List.replicate m 0#8) = false := by
  have n (a b : Nat) : natAt (List.replicate m 0#8) a b = 0 := by rw [natAt, List.drop_replicate, List.take_replicate, leNat_zeros]
  simp [imageBad, n, List.take_replicate]
-- an image of zeros is a good one; one with a byte of the reserved row at 0x15 is not
theorem wit_images_loaded : imageBad (Map.getRange 0#8 [] 0 0x9000) = false ∧ leNat (Map.getRange 0 [(0x17, (1 : Byte))] 0x15 3) ≠ 0 :=
  ⟨by rw [getRange_nil, imageBad_zeros], by decide +kernel⟩
/-- A core that dumps with two parked commands. -/
def pcmd (i : Nat) : Cmd := { id := i, op := 0xA3, fn := 0, tid := 0, pasid := 7, c := 32, done := 16, xs := .parked 0 (4 * i) }
theorem wit_dump_parked : let k : Core := { coreOf [(0, th0)] with inst := some i64, busy := some 2, cmds := [pcmd 1, pcmd 2] }
    k.busy = some 2 ∧ k.cmds.length ≤ 32 ∧ k.cmds.all (fun m => m.op == 0xA3 && (match m.xs with | .parked _ _ => true | _ => false)) = true ∧ k.lines = [] := by decide +kernel
theorem wit_core_save : let k : Core := { coreOf [(0, th0)] with inst := some i64, busy := some 1 }
    k.sset = none ∧ k.busy = some 1 ∧ k.cmds = [] ∧ k.lines = [] ∧ 8 ≤ leNat (Map.getRange 0 [(0x10, (8 : Byte))] 0x10 4) := by decide +kernel
theorem wit_preempt_order : let k : Core := { coreOf [(0, { th0 with block := some (.order 4) })] with inst := some { i64 with slot := 5 }, ipis := [256] }
    k.ipis = [256] ∧ k.live 0 = true ∧ (k.thread 0).level = .kl ∧ (k.thread 0).block = some (.order 4) := by decide +kernel
theorem wit_preempt : let k : Core := { coreOf [(0, th0), (1, { th0 with level := .sl })] with inst := some { i64 with slot := 5 }, ipis := [256] }
    k.ipis = [256] ∧ (k.inst.map (·.slot)) = some 5 ∧ k.live 0 = true ∧ (k.thread 0).level = .kl ∧ (k.thread 1).level ≠ .kl ∧ (k.thread 0).sub = none := by decide +kernel

/-! ### Translation -/

namespace Tr

/-- PASID 7 of owner 2: the leaf of VA 0x50000, at 0x33028, is `e`. -/
def tabs (e : Nat) : Map Byte := [(0x10000, 0x14001), (0x14000, 0x20001), (0x14008, 2), (0x14070, 0x20001), (0x14078, 2), (0x20000, 0x30001),
  (0x30000, 0x31001), (0x31000, 0x33001), (0x33028, e % 2 ^ 32), (0x3302C, e / 2 ^ 32)].foldl put32 []
def cm : Cmd := { id := 4, op := 0xA3, tid := 0, pasid := 7, xs := .walking, targets := [0] }
def ned (acc : Nat) : Need := { user := .cmd 3 4, va := 0x50123, acc := acc }
def wlk (pasid acc : Nat) : Walk := { pasid := pasid, va := 0x50123, users := [ned acc] }
def die0 : Die := { fqbase := 0x80000, fqsize := 64, fqtail := 5, fqhead := 5 }
def sX (e part : Nat) (m : Cmd) (d : Die) : State := { State.reset with
  mem := tabs e, ptbase := 0x10000, dies := [(0, d)], cores := [(3, { inst := some { i4 with pasid := 7, part := part, slot := 6 }, cmds := [m] })],
  link := true, boot := { ready := true }, poison := [0x51] }

theorem onCore {s : State} {n : Nat} {k : Core} (h : s.cores = [(n, k)]) {P : Nat → Cmd → Prop} (hp : ∀ m ∈ k.cmds, P n m) : ∀ c, ∀ m ∈ (s.core c).cmds, P c m := by
  intro c m hm
  by_cases e : c = n
  · subst e; exact hp m (by simpa [State.core, h, Map.get] using hm)
  · simp [State.core, h, Map.get, e] at hm

/-- The leaves of the clauses of a walk: a page with and without W, none, no W, a reserved bit; a host page, a foreign PASID. -/
theorem wit_chain : ∀ p ∈ [(0x500007, 7), (0x500003, 7), (0, 7), (0x500087, 7), (0x500027, 7), (0x500007, 0)],
    Chain (sX p.1 2 cm { die0 with walks := [wlk p.2 1] }) p.2 0x50123 2 0x33028 := by unfold Chain plain; dsimp only; decide +kernel
theorem wit_walk : ∀ p ∈ [(0x500007, 7, 2), (0x500003, 7, 2), (0, 7, 2), (0x500087, 7, 2), (0x500007, 0, 2), (0x500007, 7, 3)],
    let s := sX p.1 p.2.2 cm { die0 with walks := [wlk p.2.1 1] }
    (s.die 0).walks = [wlk p.2.1 1] ∧ (s.die 0).pendWalks = [] ∧ (s.die 0).ptrs = [] ∧ 0 = 3 / 52 ∧ (s.core 3).cmd? 4 = some cm ∧
      s.devNat 0x33028 8 = p.1 ∧ (p.2.2 = 2 → s.corePart 3 = some 2) ∧ (p.2.2 = 3 → s.corePart 3 ≠ some 2) := by decide +kernel
theorem wit_leaf : (let e := 0x500007; e % 4 = 3 ∧ e / 8 % 2 = 0 ∧ e / 2 ^ 7 % 2 = 0 ∧ e / 2 ^ 9 % 8 = 0 ∧ e / 2 ^ 48 % 16 = 0 ∧ e / 16 % 4 = 0 ∧ frame e % 65536 = 0 ∧
    frame e + 65536 ≤ Config.hbmSize ∧ e / 4 % 2 = 1 ∧ (frame e + 0x50123 % 65536) / 65536 = 0x50) ∧
    (let e := 0x500003; e % 4 = 3 ∧ e / 4 % 2 = 0) ∧ 0x500087 / 2 ^ 7 % 2 = 1 ∧ 0x500087 % 2 = 1 ∧ 0x500027 / 16 % 4 = 2 := by decide +kernel
theorem wit_ring : RingRoom die0 7 0x50123 65536 1 ∧ RingRoom { die0 with fqhead := 4 } 7 0x50123 65536 1 :=
  ⟨⟨by decide, by decide, ⟨6, by decide⟩, by decide, by decide⟩, ⟨by decide, by decide, ⟨6, by decide⟩, by decide, by decide⟩⟩

-- a walk of a control core, on the I/O die, its fault in the ring of die 0; a walk that an invalidation met
theorem wit_walk_io : ∀ st, let w := { wlk 0 1 with users := [{ user := .cmd 209 4, va := 0x50123, acc := 1 }], stale := st }
    let s : State := { sX 0x500003 2 cm die0 with cores := [(209, { cmds := [{ cm with pasid := 0 }] })], dies := [(0, die0), (4, { walks := [w] })] }
    208 ≤ 209 ∧ (s.die 4).walks = [w] ∧ (s.die 4).pendWalks = [] ∧ (s.die 4).ptrs = [] ∧ (s.core 209).cmd? 4 = some { cm with pasid := 0 } ∧ w.stale = st ∧ w.pasid = 0 ∧ s.die 0 = die0 := by decide +kernel

def fw : FWait := { user := .cmd 3 4, pasid := 7, va := 0x50123, acc := 1, reason := 2, src := 259 }
def frec : FRec := { token := 9, time := 5, pasid := 7, va := 0x50123, acc := 1, reason := 1, slot := 6, users := [ned 1] }
theorem wit_fault_responses : let s := sX 0 2 cm { die0 with waiting := [fw] }; let p := { cm with xs := .parked 0 9 }; let z := sX 0 2 p { die0 with faults := [frec] }
    (s.link = true ∧ s.mainPower = true ∧ s.present = true ∧ s.boot.ready = true ∧ s.boot.recovery = false) ∧ (s.core 3).cmd? 4 = some cm ∧ (s.die 0).waiting = [fw] ∧
    (z.core 3).cmd? 4 = some p ∧ (z.die 0).faults = [frec] ∧ frec.token = (9 : W32).toNat ∧ frec.users = [ned 1] ∧ fw.src = 256 + 3 ∧ fw.size = 65536 ∧ (z.die 0).walks = [] ∧ (z.die 0).waiting = [] ∧
    ∀ r ∈ (z.die 0).faults, r.token ≠ (8 : W32).toNat := by decide +kernel

def xl (va a : Nat) (host : Bool) : Xlat := { pasid := 7, va := va, size := 65536, loc := { host := host, addr := a }, w := true }
def cmS (x : Xlat) : Cmd := { cm with started := true, src := [x], xs := .idle }
def sI (i : Option (Option Nat × Nat × Nat)) (x : Xlat) : State := { sX 0 2 (cmS x) { die0 with dtlb := [xl 0x50000 0x500000 false] } with inv := i, invva := 0x50000, invlen := 0x1000 }
theorem wit_invcmd : (sI none (xl 0 0 false)).inv = none ∧ (sI none (xl 0 0 false)).mig.busy = false ∧ (sI (some (none, 0, 0)) (xl 0 0 false)).inv ≠ none := by decide +kernel
theorem meets_no : ∀ c, ∀ m ∈ ((sI (some (some 7, 0x50000, 0x1000)) (xl 0 0 false)).core c).cmds, ∀ x ∈ m.src, ¬(x.va < 0x50000 + 0x1000 ∧ 0x50000 < x.va + x.size) :=
  onCore (P := fun _ m => ∀ x ∈ m.src, ¬(x.va < 0x50000 + 0x1000 ∧ 0x50000 < x.va + x.size)) (n := 3) rfl (by decide)
theorem wit_invalidation : let s := sI (some (some 7, 0x50000, 0x1000)) (xl 0 0 false); let b := sI (some (some 7, 0x50000, 0x1000)) (xl 0x50000 0x500000 false)
    let meets (x : Xlat) : Prop := (∀ q, some 7 = some q → x.pasid = q) ∧ (0x1000 = 0 ∨ (x.va < 0x50000 + 0x1000 ∧ 0x50000 < x.va + x.size))
    let used (s : State) (x : Xlat) : Prop := ∃ c, ∃ m ∈ (s.core c).cmds, m.started = true ∧ m.op ≠ 0xA6 ∧ m.op ≠ 0xA7 ∧ m.op ≠ 0xA8 ∧ x ∈ m.src
    (∀ e ∈ s.cores, Map.find s.cores e.1 = some e.2) ∧ (∃ x, used s x) ∧ (∀ x, used s x → ¬meets x) ∧ ∃ x, used b x ∧ meets x :=
  ⟨by decide +kernel, ⟨xl 0 0 false, 3, cmS (xl 0 0 false), by decide +kernel⟩, fun x ⟨c, m, hm, _, _, _, _, hx⟩ hy => meets_no c m hm x hx (hy.2.resolve_left (by decide)),
    ⟨xl 0x50000 0x500000 false, ⟨3, cmS (xl 0x50000 0x500000 false), by decide +kernel⟩, by simp [xl]⟩⟩

def sM (e : Nat) (g : Mig) : State := { sX e 2 { cm with xs := .idle } die0 with mig := { g with pasid := 7, va := 0x50123, dst := 0x600000 } }
theorem wit_migration_chain : ∀ e ∈ [0, 0x1200000000500007], Chain (sM e { busy := true }) 7 0x50123 2 0x33028 := by unfold Chain plain; dsimp only; decide +kernel
theorem wit_migration : (sM 0x1200000000500007 {}).mig.busy = false ∧ (sM 0 {}).devNat 0x33028 8 % 2 = 0 := by decide +kernel
theorem wit_migration_leaf : let w : Nat := 0x1200000000500007
    (sM w {}).devNat 0x33028 8 = w ∧ w % 4 = 3 ∧ w / 8 % 2 = 0 ∧ w / 2 ^ 7 % 2 = 0 ∧ w / 2 ^ 9 % 8 = 0 ∧ w / 2 ^ 48 % 16 = 0 ∧ w / 16 % 4 = 0 ∧ frame w % 65536 = 0 ∧
    frame w + 65536 ≤ Config.hbmSize ∧ (∀ a ∈ (sM w {}).poison, a ≠ (frame w + (0x50123 : W64).toNat % 65536) / 65536) ∧ 0x600000 % 65536 = 0 ∧ 0x600000 + 65536 ≤ Config.hbmSize ∧
    (∀ g ∈ [({ busy := true } : Mig), { busy := true, armed := some (0x33028, w / 2 ^ 52) }, { busy := true, armed := some (0x33028, w / 2 ^ 52), saw := true, abandons := 2 },
      { busy := true, drain := some (0x33028, 0x600000) }], g.busy = true ∧ g.migSet = false) ∧ Map.wf Config.blank (sM w {}).mem = true ∧ 0x33028 + 8 ≤ frame 0x600000 ∧
    (∀ x ∈ (sM w {}).cores, Map.find (sM w {}).cores x.1 = some x.2) := by decide +kernel
-- an address beyond 2^52 and one of the windows; a page of tier 2; a poisoned page; a watch that saw a write, for the third and the fourth time; an INVCMD of everything
theorem wit_migration_ends : 2 ^ 52 ≤ (0x10000000050123 : W64).toNat ∧ (0xF000000050123 : W64).toNat / 2 ^ 48 = 15 ∧ (let w : Nat := 0x500027; w % 4 = 3 ∧ w / 16 % 4 = 2) ∧
    (frame 0x510007 / 65536 ∈ (sM 0x510007 {}).poison) ∧ (∀ n ∈ [2, 3], ∀ saw, let g : Mig := { busy := true, armed := some (0x33028, 17), saw := saw, abandons := n }
      g.migSet = false ∧ g.pend = [] ∧ (17 ≠ 0x1200000000500007 / 2 ^ 52) ∧ g.abandons = n) ∧ (0x100000 : W64).getLsbD 20 = true ∧ (sM 0 {}).inv = none ∧ (sM 0 {}).invlen = 0 := by decide +kernel
theorem wit_migration_chains : ∀ e ∈ [0x500027, 0x510007], Chain (sM e { busy := true }) 7 0x50123 2 0x33028 := by unfold Chain plain; dsimp only; decide +kernel
theorem onMops {s : State} {n : Nat} {k : Core} (h : s.cores = [(n, k)]) (hp : k.mops = []) : ∀ c, (s.core c).mops = [] := by
  intro c
  by_cases e : c = n
  · subst e; simpa [State.core, h, Map.get] using hp
  · simp [State.core, h, Map.get, e]
theorem wit_migration_still : ∀ c, ∀ m ∈ ((sM 0 {}).core c).mops, m.counted = false := fun c m h => by rw [onMops (s := sM 0 {}) (n := 3) rfl rfl c] at h; cases h
theorem wit_migration_quiet : ∀ c, ∀ m ∈ ((sM 0 {}).core c).cmds, m.started = false := onCore (P := fun _ m => m.started = false) (n := 3) rfl (by decide)

def areq (acc : Nat) : AtsReq := { pasid := 7, va := 0x50000, die := 0, users := [ned acc] }
def sA (e pe acc : Nat) (pri : Bool) : State := { sX e 2 cm die0 with mem := [(0x14070, 0x20001 + pe), (0x14078, 2)].foldl put32 (tabs e), ats := if pri then [] else [areq acc], pri := if pri then [areq acc] else [] }
theorem wit_ats_chain : ∀ p ∈ [(0x500027, 2), (0x500027, 6), (0x500023, 2)], Chain (sA p.1 p.2 1 false) 7 0x50000 2 0x33028 := by unfold Chain plain; dsimp only; decide +kernel
theorem wit_ats : ∀ acc ∈ [0, 1], (areq acc).users = [ned acc] ∧ (areq acc).inbound = [] ∧ (ned acc).va / 65536 * 65536 = 0x50000 ∧ (sA 0x500027 2 acc false).ats = [areq acc] ∧
    (sA 0x500027 2 acc true).pri = [areq acc] ∧ ((sA 0x500027 2 acc true).die 0).walks = [] ∧ ((sA 0x500027 2 acc false).core 3).cmd? 4 = some cm ∧
    (((sA 0x500027 2 acc false).pasidEntry 7).map (fun q => (q.ats, q.pri))) = some (true, false) ∧ (((sA 0x500027 6 acc false).pasidEntry 7).map (fun q => (q.ats, q.pri))) = some (true, true) ∧
    (sA 0x500027 2 acc false).devNat 0x33028 8 = 0x500027 ∧ 0x500027 % 4 = 3 ∧ 0x500027 / 8 % 2 = 0 ∧ 0x500027 / 2 ^ 7 % 2 = 0 ∧ 0x500027 / 16 % 4 = 2 ∧ 0x500027 / 4 % 2 = 1 := by decide +kernel
-- two page requests for one page, of two commands
theorem wit_pri_two : let a := areq 0; let b : AtsReq := { areq 1 with users := [{ user := .cmd 3 5, va := 0x50200, acc := 1 }] }
    let s : State := { sA 0x500027 2 0 true with cores := [(3, { inst := some { i4 with pasid := 7, part := 2, slot := 6 }, cmds := [cm, { cm with id := 5 }] })], pri := [a, b] }
    s.pri = [a, b] ∧ b ≠ a ∧ b.pasid = a.pasid ∧ b.va = a.va ∧ (s.core 3).cmd? 4 = some cm ∧ (s.core 3).cmd? 5 = some { cm with id := 5 } ∧ 5 ≠ 4 ∧ cm.xs = .walking := by decide +kernel
-- an acquire at `.rmt`: the thread of core 3 has read a line of the page that a lazy region of core 5 covers
theorem wit_promote : let i : Inst := { i64 with pasid := 7, part := 2, slot := 6 }
    let s : State := { sX 0x500007 2 cm die0 with cur := (stOf 3 {} [0]).cur, cores := [(3, { coreOf [(0, { th0 with acqLines := [0x50100] })] with inst := some i }),
      (5, { inst := some i, regions := [(0, { spbase := 0x100, size := 0x200, va := 0x50000, ctl := 0x80000000 })] })] }
    let f : SForm := ⟨hd, 0x031, 0, 0, 0, 0⟩
    (legal (.fence f) && s.lone { h := hd } 0) = true ∧ (f.fn.extractLsb' 3 3).toNat = 6 ∧ (s.curThread 0).promo = [] ∧ (s.curThread 0).relSet = none ∧
    s.curCore.ownAtoms 0 = [] ∧ 0x50100 ∈ (s.curThread 0).acqLines ∧ s.curCore.fetchPasid = 7 ∧ s.lazyCovers 5 7 0x50100 = true := by decide +kernel
theorem wit_host_invalidation : let x := xl 0x50000 0x500000 true; let s := sX 0 2 (cmS x) die0
    (∀ e ∈ s.cores, Map.find s.cores e.1 = some e.2) ∧ cmS x ∈ (s.core 3).cmds ∧ (cmS x).started = true ∧ (cmS x).op = 0xA3 ∧ x ∈ (cmS x).src ∧ x.loc.host = true ∧ x.pasid = 7 ∧
      x.va < 0x50000 + 1 ∧ 0x50000 < x.va + x.size := by decide +kernel

end Tr

/-! ### Queues and launches -/

namespace Qu

/-- A packet of type `ty` with 4-byte fields. -/
def pkt (ty : Nat) (fs : List (Nat × Nat)) : List Byte := Map.getRange 0 (fs.foldl put32 [(0, BitVec.ofNat 8 ty)]) 0 64
def lp (ty : Nat) (fs : List (Nat × Nat)) (lvl : Nat) : LaPkt := { bytes := some (pkt ty fs), lvl := lvl }
def x0 : Slot := { bound := true, qcb := 0x100, ring := 0x60000, rsize := 16, cring := 0x50400, crsize := 16, func := 1, qnum := 2, pasid := 7, commit := 5, write := 6, read := 5 }
def hd0 : CRec := { seq := 77, status := 0, irq := true }
def lev (n st : Nat) : CallLev := { addr := 0x60000, left := n, status := st }
/-- Slot 6 with `p` at issue, under the levels `lv`. -/
def xP (p : LaPkt) (lv : List CallLev) : Slot := { x0 with la := [p], stack := lv, head := if lv = [] then none else some hd0 }
def xlH : Xlat := { pasid := 7, va := 0x50000, size := 65536, loc := { host := true, addr := 0x10000 }, w := true }
def xlD : Xlat := { pasid := 7, va := 0x60000, size := 65536, loc := { host := false, addr := 0x80000 }, w := false }
def sQ (x : Slot) (kwr crcons : Nat) : State := { State.reset with
  mem := [(0x148, crcons), (0x80000, 0x09), (0x80140, 0x09)].foldl put32 tab0, host := [(0x10000, 5)], ptbase := 0x10000, slots := [(6, x)],
  dies := [(4, { dtlb := [xlH, xlD] })], ptime := 500, kwr := [(66, BitVec.ofNat 64 kwr)], link := true, boot := { ready := true },
  parts := [(0, { cc := 2, slots := 0x40 })], fmap := [(1, 0)] }

theorem wit_kwr : let s := sQ x0 0 0
    s.link = true ∧ s.mainPower = true ∧ s.present = true ∧ (s.fn 1).flr = false ∧ (∃ e ∈ s.slots, e.2.bound = true ∧ e.2.unbinding = none ∧ e.2.func = 1 ∧ e.2.qnum = 16 / 8) ∧
      (∀ e ∈ s.slots, ¬(e.2.bound = true ∧ e.2.unbinding = none ∧ e.2.func = 1 ∧ e.2.qnum = 0x1F8 / 8)) ∧ s.funcCc 1 = some 2 ∧ s.kpsum 2 = 0 := by decide +kernel
theorem wit_lookahead : (∀ k ∈ [6, 7, 21, 22], Works ((sQ x0 k 0).slot 6) ∧ Quiet ((sQ x0 k 0).slot 6) ∧ (Map.get 0 (sQ x0 k 0).kwr (1 * 64 + 2)).toNat = k) ∧
    QMaps (sQ x0 6 0) 6 (0x60000 + 64 * (5 % 16)) false xlD ∧ num ((sQ x0 6 0).readLoc (xlD.at (0x60000 + 64 * (5 % 16))) 64) 0 1 = 9 := by
  unfold Works Quiet QMaps num; decide +kernel
-- a LAUNCH in the ring, and in the stage that reads its descriptor; a CALL in the eighth called buffer
def xLook : Slot := { x0 with laPkt := some (lp 1 [(16, 0x60100), (44, 1)] 0) }
def xNine : Slot := { x0 with laStack := List.replicate 8 (lev 2 0) }
theorem wit_lookahead_stages : (∀ x ∈ [x0, xLook, xNine], let s := sQ x 6 0
      Works (s.slot 6) ∧ Quiet (s.slot 6) ∧ (Map.get 0 s.kwr (1 * 64 + 2)).toNat ≤ x.write ∧ x.laJoin = false ∧ x.la.length < 1024) ∧
    (pktBad (pkt 1 [(16, 0x60100), (44, 1)]) 0 = false ∧ num (pkt 1 [(16, 0x60100), (44, 1)]) 16 8 = 0x60100 ∧ QMaps (sQ xLook 6 0) 6 0x60100 false xlD) ∧
    (let s : State := { sQ xNine 6 0 with mem := [(0x80000, 2), (0x80010, 0x60000), (0x80018, 1)].foldl put32 tab0 }
     QMaps s 6 0x60000 false xlD ∧ num (s.readLoc (xlD.at 0x60000) 64) 0 1 = 2 ∧ pktBad (s.readLoc (xlD.at 0x60000) 64) 8 = false) ∧
    (let s : State := { sQ x0 6 0 with mem := [(0x80140, 1), (0x80150, 0x60100), (0x8016C, 1)].foldl put32 tab0 }
     num (s.readLoc (xlD.at 0x60140) 64) 0 1 = 1 ∧ pktBad (s.readLoc (xlD.at 0x60140) 64) 0 = false) := by
  unfold Works Quiet QMaps num; decide +kernel
theorem wit_qcbs : QcbsOnDevice (sQ x0 6 0) ∧ Marked (sQ x0 6 0) xlH := ⟨by unfold QcbsOnDevice; decide +kernel, fun l h => by cases h⟩
theorem wit_record_mapped : ∀ n ∈ [0, 2 ^ 32 - 16], Mapped0 (sQ { x0 with record := some hd0 } 6 n) (x0.qcb.toNat + 0x48) 8 := fun n h => mapped0 (by revert n; decide +kernel)
theorem wit_record : let x : Slot := { x0 with record := some hd0 }
    Quiet ((sQ x 6 0).slot 6) ∧ (x.crwr + 2 ^ 64 - (sQ x 6 (2 ^ 32 - 16)).nat0 (x.qcb.toNat + 0x48) 8) % 2 ^ 64 ≠ 16 ∧
      ({ x with crwr := 16 }.crwr + 2 ^ 64 - (sQ x 6 0).nat0 (x.qcb.toNat + 0x48) 8) % 2 ^ 64 = 16 ∧ (0 + 2 ^ 64 - (sQ x 6 0).nat0 (x.qcb.toNat + 0x48) 8) % 2 ^ 64 ≠ 16 ∧
      QMaps (sQ x 6 0) 6 (0x50400 + 16 * (0 % 16)) true xlH := by
  unfold Quiet QMaps; decide +kernel

theorem wit_at_issue : ∀ p ∈ [(9, []), (4, []), (2, [(16, 0x60000), (24, 1)]), (2, [(16, 0x60000), (24, 65536)]), (3, []), (5, [(16, 0x50000), (24, 1)]), (6, [(16, 0x50000), (24, 5), (28, 7), (32, 1)]),
      (6, [(16, 0x50008), (24, 0xFFFFFFFF), (32, 2)]), (6, [(16, 0x50004), (24, 5)]), (7, [(16, 0x50000), (24, 5), (28, 3), (32, 5)]), (1, [(16, 0x60100), (44, 1)]), (8, [(16, 0x60000), (24, 1000000)])],
    ∀ lv ∈ [[], [lev 1 0], [lev 2 3, lev 2 0]], (p.1 = 3 → lv ≠ []) → AtIssue (sQ (xP (lp p.1 p.2 lv.length) lv) 6 0) 6 (lp p.1 p.2 lv.length) (pkt p.1 p.2) p.1 := by
  unfold AtIssue Works Quiet num; decide +kernel
theorem wit_call_deep : let lv := List.replicate 8 (lev 2 0); let f := [(16, 0x60000), (24, 1)]; AtIssue (sQ (xP (lp 2 f 8) lv) 6 0) 6 (lp 2 f 8) (pkt 2 f) 2 ∧ lv.length = 8 := by
  unfold AtIssue Works Quiet num; decide +kernel
theorem wit_packet_places : (∀ a ∈ [0x50000, 0x50004, 0x50008], QMaps (sQ x0 6 0) 6 a true xlH ∧ QMaps (sQ x0 6 0) 6 a false xlH) ∧ leNat ((sQ x0 6 0).readLoc (xlH.at 0x50000) 4) ≠ 0 ∧
    leNat ((sQ x0 6 0).readLoc (xlH.at 0x50008) 4) = 0 ∧ xlH.loc.host = true ∧ xlH.leaf = none ∧ ({ x0 with crwr := 16 }.crwr + 2 ^ 64 - (sQ x0 6 0).nat0 (x0.qcb.toNat + 0x48) 8) % 2 ^ 64 = 16 := by
  unfold QMaps; decide +kernel

-- a SIGNAL to a page that migrates
def xlM : Xlat := { xlH with leaf := some 0x33028 }
theorem wit_signal_migrating : let f := [(16, 0x50000), (24, 5)]; let s : State := { sQ (xP (lp 6 f 0) []) 6 0 with dies := [(4, { dtlb := [xlM] })], mem := Map.set Config.blank (sQ x0 6 0).mem 0x33029 1 }
    AtIssue s 6 (lp 6 f 0) (pkt 6 f) 6 ∧ QMaps s 6 0x50000 true xlM ∧ s.migrating xlM = true := by
  unfold AtIssue Works Quiet QMaps num; decide +kernel

/-- Slot 6 in the WAIT `p`. -/
def xW (op v : Nat) (lv : List CallLev) (till : Option Nat) : Slot := { x0 with pkt := some (lp 7 [(16, 0x50000), (24, v), (28, op), (32, 5)] lv.length), phase := .wait till, stack := lv, head := if lv = [] then none else some hd0 }
theorem wit_wait : ∀ op ∈ [0, 1, 2, 3], ∀ v ∈ [5, 6], ∀ lv ∈ [[], [lev 2 0]], ∀ till ∈ [none, some 500, some 501], let s := sQ (xW op v lv till) 6 0
    Works (s.slot 6) ∧ Quiet (s.slot 6) ∧ (s.slot 6).phase = .wait till ∧ QMaps s 6 0x50000 (op == 3) xlH ∧ hostWord s (xlH.at 0x50000).addr = 5 ∧ s.ptime = 500 := by
  unfold Works Quiet QMaps hostWord; decide +kernel

def xS (bs : List Byte) (skip : Nat) : Slot := { x0 with la := [{ bytes := some bs, lvl := 0 }], skip := skip }
theorem wit_bad_packets : ∀ p ∈ [(pkt 9 [], 1), (pkt 0 [], 0), (pkt 10 [], 0), (pkt 9 [(4, 1)], 0), (pkt 3 [], 0)], let s := sQ (xS p.1 p.2) 6 0
    Works (s.slot 6) ∧ Quiet (s.slot 6) ∧ (s.slot 6).phase = .idle ∧ (s.slot 6).pkt = none ∧ (s.slot 6).la.head? = some { bytes := some p.1, lvl := 0 } ∧ (s.slot 6).stack = [] ∧
      (s.slot 6).head = none ∧ (s.slot 6).skip = p.2 := by
  unfold Works Quiet; decide +kernel
-- a packet of each type that a COND skips; one that could not be read
theorem wit_skipped_packets : ∀ ty ∈ [9, 2, 3, 4, 5, 6, 7], let s := sQ (xS (pkt ty []) 2) 6 0
    Works (s.slot 6) ∧ Quiet (s.slot 6) ∧ (s.slot 6).la.head? = some { bytes := some (pkt ty []), lvl := 0 } ∧ num (pkt ty []) 0 1 = ty ∧ 0 < (s.slot 6).skip := by
  unfold Works Quiet num; decide +kernel
theorem wit_unreadable : let s := sQ { x0 with la := [{ bytes := none, lvl := 0 }] } 6 0
    Works (s.slot 6) ∧ Quiet (s.slot 6) ∧ (s.slot 6).la.head? = some { bytes := none, lvl := 0 } ∧ (s.slot 6).skip = 0 ∧ (s.slot 6).stack = [] ∧ (s.slot 6).head = none := by
  unfold Works Quiet; decide +kernel
theorem wit_bad_bytes : num (pkt 9 [(4, 1)]) 4 4 ≠ 0 ∧ num (pkt 10 []) 0 1 = 10 ∧ num (pkt 0 []) 0 1 = 0 ∧ num (pkt 3 []) 0 1 = 3 := by unfold num; decide +kernel

/-- A descriptor with flags `fl`, `n` logical cores by count and two variants of capacity 10 and 20. -/
def dsc (fl n : Nat) : List Byte := Map.getRange 0 ([(0, 0x4C415A4B), (4, 1 + 2 * 65536), (8, fl), (12, n), (16, 0x1000), (24, 0x100000), (96, 0x40), (100, 10), (104, 8 + 8 * 65536),
  (112, 0x80), (116, 20), (120, 16 + 8 * 65536)].foldl put32 []) 0 256
def lpk (fs : List (Nat × Nat)) (d : List Byte) : LaPkt := { lp 1 fs 0 with desc := some d }
def lf (ext nlc : Nat) : List (Nat × Nat) := [(16, 0x60100), (24, 0x777), (40, ext), (44, nlc), (48, 7)]
theorem wit_launch : ∀ d ∈ [dsc 0 0, dsc 1 2, dsc 64 0, []], ∀ e ∈ [5, 25], ∀ n ∈ [0, 1, 65536], let p := lpk (lf e n) d
    AtIssue (sQ (xP p []) 6 0) 6 p (pkt 1 (lf e n)) 1 ∧ p.desc = some d ∧ ((sQ (xP p []) 6 0).slot 6).resume = .fresh ∧ ((sQ (xP p []) 6 0).slot 6).save = 0 ∧ num (pkt 1 (lf e n)) 44 4 = n := by
  unfold AtIssue Works Quiet num; decide +kernel
theorem wit_descriptor : (∀ d ∈ [dsc 0 0, dsc 1 2], descRefused d = none ∧ ∀ v, v < 2 → granulesShort d v = false) ∧ num (dsc 0 0) 8 4 % 2 = 0 ∧ num (dsc 1 2) 8 4 % 2 = 1 ∧ num (dsc 1 2) 12 4 = 2 ∧
    num (dsc 64 0) 8 4 = 64 ∧ num [] 0 4 ≠ 0x4C415A4B ∧ num (pkt 1 (lf 5 1)) 32 8 = 0 ∧ num (dsc 0 0) 6 1 = 2 := by unfold num; decide +kernel

/-- The first variant of `dsc` with scratch `sc`, `th` threads and the minimum level `lv`. -/
def dscV (sc th lv : Nat) : List Byte := Map.getRange 0 ([(0, 0x4C415A4B), (4, 1 + 1 * 65536), (16, 0x1000), (24, 0x100000), (96, 0x40), (100, 10), (104, th + 8 * 65536 + lv * 2 ^ 24),
  (108, sc)].foldl put32 []) 0 256
-- a descriptor that fits in every way, under DET too; one that fits in form but not in SCRATCH, or not in granules
theorem wit_descriptor_fits : DescriptorFits (dsc 0 0) ∧ DescriptorFits (dsc 1 2) ∧ ¬DescriptorFits (dsc 64 0) ∧ DescriptorFits (dscV 0xC0100 8 0) ∧ DescriptorFits (dscV 0xC0000 2048 3) := by
  refine ⟨?_, ?_, ?_, ?_, ?_⟩ <;> unfold DescriptorFits num <;> dsimp only <;> decide +kernel
theorem wit_descriptor_short : ScratchFits (dsc 0 0) ∧ ¬ScratchFits (dscV 0xC0100 8 0) ∧ ScratchFits (dscV 0xC0000 2048 3) ∧ num (dscV 0xC0000 2048 3) 6 1 = 1 ∧
    ¬GranulesFit (dscV 0xC0000 2048 3) 0 ∧ GranulesFit (dscV 0xC0000 2048 2) 0 ∧ ∀ v < 2, GranulesFit (dsc 0 0) v := by
  refine ⟨?_, ?_, ?_, ?_, ?_, ?_, ?_⟩ <;> first | (unfold ScratchFits num; decide +kernel) | (unfold GranulesFit num; decide +kernel) | (unfold num; decide +kernel)

/-- A launch of two logical cores; core 3 is free, or runs the second. -/
def lau (cs : List LcSt) : Launch := { desc := dsc 0 0, addr := 0x60100, param := 0x777, ncore := 2, cores := cs, wdog := 7, ran := 7000 }
def xL (cs : List LcSt) (l : Launch) : Slot := { x0 with launch := some { l with cores := cs }, phase := .launch, pkt := some (lpk (lf 5 2) (dsc 0 0)) }
def iL : Inst := { w := 8, pasid := 7, slot := 6, part := 0, lcore := 1, qcb := 0x100 }
def sL (x : Slot) (k : Core) : State := { sQ x 6 0 with cores := [(3, k)], parts := [(0, { cc := 2, slots := 0x40, slices := 1 })] }
/-- With the last four cores of a die off (R417), core 3 is one of slice 0. -/
theorem wit_allocation (h : Config.disabled 0 = 0xF000000000000) : let s := sL (xL [.running 9, .waiting] (lau [])) {}
    s.isFree 3 = true ∧ (s.backed 0).contains 3 = true ∧ setBits (0x40 : W64) = [6] ∧ (s.slot 6).launch = some (lau [.running 9, .waiting]) ∧ (s.slot 6).preempting = false := by
  have e : enabledCores 0 = List.range 48 := by unfold enabledCores; rw [h]; decide
  refine ⟨by decide +kernel, ?_, by decide, rfl, rfl⟩
  have : (sL (xL [.running 9, .waiting] (lau [])) {}).sliceCores 0 = [some 0, some 1, some 2, some 3] := by
    unfold State.sliceCores; rw [show 0 / 12 = 0 from rfl, e]; decide +kernel
  unfold State.backed State.partCores
  rw [show (sL (xL [.running 9, .waiting] (lau [])) {}).partOf 0 = some { cc := 2, slots := 0x40, slices := 1 } from rfl]
  dsimp only
  rw [show setBits (1 : W64) = [0] by decide, List.flatMap_singleton, this]; decide
theorem wit_allocation_launch : let l := lau [.running 9, .waiting]
    l.closed = false ∧ l.abort = false ∧ num l.desc 8 4 % 2 = 0 ∧ l.cores[1]? = some .waiting ∧ (∀ i, i < 1 → l.cores[i]? = some .ended ∨ ∃ e, l.cores[i]? = some (.running e)) ∧
      l.cores.length = l.ncore ∧ num l.desc (96 + 10) 1 = 8 := by
  refine ⟨rfl, rfl, by unfold num; decide +kernel, rfl, fun i hi => .inr ⟨9, ?_⟩, rfl, by unfold num; decide +kernel⟩
  obtain rfl : i = 0 := by omega
  rfl
theorem wit_instance_end : ∀ p ∈ [(false, LcSt.ended), (true, .ended), (true, .running 9)], let x := xL [p.2, .running 3] { lau [] with ran := 0 }
    let s := sL x { inst := some { iL with ending := p.1 }, lines := [(5, { st := 1 })] }
    (s.core 3).liveTids = [] ∧ (s.core 3).saving = false ∧ (s.core 3).sset = none ∧ (∀ e ∈ (s.core 3).lines, e.2.st < 2) ∧ (s.core 3).cmds = [] ∧ (s.core 3).mops = [] ∧ x.save = 0 ∧
      x.record = none ∧ x.stack = [] ∧ x.bound = true ∧ (p.2 = .ended → ∀ y ∈ [p.2, .running 3].set 1 .ended, y = .ended) ∧ (sL x (coreOf [(0, th0)])).curCore.liveTids = [] ∧
      ((sL x (coreOf [(0, th0)])).core 3).liveTids ≠ [] := by decide +kernel
-- a logical core that was saved; the stages of the end of an instance, with a dirty line, a command, a write-back
theorem wit_allocation_restore : let l := lau [.running 9, .saved]; let x : Slot := { xL [.running 9, .saved] (lau []) with save := 0x100000 }
    l.expired = false ∧ l.abort = false ∧ num l.desc 8 4 % 2 = 0 ∧ l.cores[1]? = some .saved ∧ l.cores[0]? = some (.running 9) ∧ l.cores.length = l.ncore ∧ (sL x {}).isFree 3 = true ∧ ((sL x {}).slot 6).save ≠ 0 := by
  refine ⟨rfl, rfl, by unfold num; decide +kernel, rfl, rfl, rfl, by decide +kernel, by decide +kernel⟩
theorem wit_restore_mapped : let x : Slot := { xL [.running 9, .saved] { lau [] with carry := [(1, { ran := 300 })] } with save := 0x100000 }
    Mapped0 (sL x {}) ((x.save + BitVec.ofNat 64 (1 * 0x260000)).toNat + 0x0C) 4 := mapped0 (by decide +kernel)
-- the flush is done, and a line has been dirtied since
theorem wit_instance_again : let k : Core := { inst := some { iL with ending := true, flushed := true }, regions := [(0, { spbase := 0x100, size := 0x200, va := 0x50000, ctl := 0x80000000 })], lines := [(1, { st := 2 })] }
    k.liveTids = [] ∧ k.saving = false ∧ k.sset = none ∧ k.cmds = [] ∧ k.mops = [] ∧ k.regionAt (1 * 256) = some 0 ∧ 2 ≤ (k.line 1).st ∧ (k.line 1).wback = false := by decide +kernel
theorem wit_instance_stages : ∀ fl, let k : Core := { inst := some { iL with ending := true, flushed := fl }, regions := [(0, { spbase := 0x100, size := 0x200, va := 0x50000, ctl := 0x80000000 })], lines := [(1, { st := 2 })], cmds := if fl then [] else [{ id := 4, op := 0xA3, tid := 0, pasid := 7 }], mops := if fl then [{ id := 5, kind := .wback 1, pasid := 7, va := 0x50000 }] else [] }
    k.liveTids = [] ∧ k.saving = false ∧ iL.restored = false ∧ k.sset = none ∧ k.regionAt (1 * 256) = some 0 ∧ 2 ≤ (k.line 1).st ∧ (k.line 1).wback = false ∧
      k.mops.any (fun m => m.kind == .wback 1) = fl ∧ k.cmds.isEmpty = fl := by decide +kernel
theorem wit_watchdog : let l := lau [.running 9, .running 3]; let s := sL (xL l.cores l) { coreOf [(0, th0), (1, { th0 with level := .sl })] with inst := some iL }
    l.running = true ∧ (s.slot 6).launch = some l ∧ l.wdog * 1000 ≤ l.ran ∧ l.expired = false ∧ (s.core 3).live 0 = true ∧ ((s.core 3).thread 0).level = .kl ∧ ((s.core 3).thread 1).level ≠ .kl ∧
      { l with ran := 6999 }.ran < l.wdog * 1000 := by decide +kernel
theorem wit_tick : let s (n : Nat) : State := { State.reset with cores := [(210, { tickIv := 5, tickLeft := n })] }
    ((s 0).core (208 + 2)).tickIv ≠ 0 ∧ ((s 0).core (208 + 2)).tickLeft = 0 ∧ 0 < ((s 1).core (208 + 2)).tickLeft := by decide +kernel

/-- Partitions 0 and 1 share slice 0; 0 is the tenant, with an instance on core 3. -/
def gg : Gang := { tenant := 0, left := 1, since := 0 }
def sG (n : Nat) (g : Gang) (t : Nat) (rep : Bool) : State := { State.reset with
  parts := [(0, { slices := 1, slots := 0x40, cc := 2, gang := true }), (1, { slices := 1, cc := 2, gang := true })].take n, gangs := [(0, g)], ptime := t, slots := [(6, { x0 with part := 0 })],
  cores := [(3, { inst := some { iL with reported := rep } })] }
theorem wit_gang : (∀ n ∈ [1, 2], ∀ g ∈ [gg, { gg with left := 2 }, { gg with switching := true }, { gg with misses := 3 }, { gg with prestop := true, misses := 2 }], ∀ t ∈ [0, 1999999, 2000000], ∀ r ∈ [true, false], let s := sG n g t r
    s.gang 0 = g ∧ (s.partOf 0).map (fun x => (x.gang, x.cc, x.tick, x.deadline)) = some (true, 2, 2000, 50) ∧ g.tenant = 0 ∧ (s.tenants 0).length = n ∧ s.ptime = t ∧
      ((s.core 3).inst).map (fun i => (i.part, i.reported)) = some (0, r)) := by decide +kernel
-- a committed switch whose core FREE leaves; a core whose save area is no longer the queue's
theorem wit_free_swaps : ∀ p ∈ [(true, 0x1000), (false, 0x1000), (true, 0x2000)], let i : Inst := { iL with gang := p.1, save := BitVec.ofNat 64 p.2 }
    let k : Core := { inst := some i, saving := true }
    let x : Slot := { x0 with save := 0x1000, shadow := 0x9000 }
    k.sset = none ∧ i.trap = none ∧ i.restored = false ∧ i.parking = false ∧ x.launch = none ∧ (i.gang = true ∧ x.save = i.save ∨ i.gang = false ∨ x.save ≠ i.save) := by decide +kernel
theorem wit_gang_core (h : Config.disabled 0 = 0xF000000000000) : ((sG 2 gg 0 false).backed 0).contains 3 = true := by
  have e : enabledCores 0 = List.range 48 := by unfold enabledCores; rw [h]; decide
  have : (sG 2 gg 0 false).sliceCores 0 = [some 0, some 1, some 2, some 3] := by
    unfold State.sliceCores; rw [show 0 / 12 = 0 from rfl, e]; decide +kernel
  unfold State.backed State.partCores
  rw [show (sG 2 gg 0 false).partOf 0 = some { slices := 1, slots := 0x40, cc := 2, gang := true } from rfl]
  dsimp only
  rw [show setBits (1 : W64) = [0] by decide, List.flatMap_singleton, this]; decide
def frec6 : FRec := { token := 9, time := 5, pasid := 7, va := 0x50123, acc := 1, reason := 1, slot := 6, users := [{ user := .cmd 3 4, va := 0x50123, acc := 1, since := 5 }] }
def onTab (s : State) : State := { s with mem := tab0, ptbase := 0x10000 }
theorem wit_gang_mapped : ∀ r, Mapped0 (onTab (sG 2 { gg with switching := true } 2000000 r)) (x0.qcb.toNat + 0x64) 4 := fun r => mapped0 (by revert r; decide +kernel)
theorem wit_park : let m : Cmd := { id := 4, op := 0xA3, tid := 0, pasid := 7, xs := .parked 0 9 }
    let s (i : Inst) : State := { onTab (sG 2 gg 100006 false) with cores := [(3, { inst := some i, cmds := [m] })], dies := [(0, { faults := [frec6] })] }
    m ∈ ((s { iL with save := 5 }).core 3).cmds ∧ frec6 ∈ ((s iL).die 0).faults ∧ (∃ n ∈ frec6.users, n.user = .cmd 3 m.id ∧ n.since + 100000 < (s iL).ptime) ∧ (s iL).ccOf (some 0) = some 2 ∧ ((s iL).core 3).ipis = [] ∧
      (∀ y ∈ ((s iL).core 3).cmds, y.op ≠ 0xA4) ∧ iL.parking = false ∧ iL.save = 0 ∧ (s { iL with parking := true, reported := true }).nat0 (((s iL).slot 6).qcb.toNat + 0x64) 4 = 0 := by decide +kernel

-- a core that QUNBIND.pre saved has reported, no bit of REPORT is left
theorem wit_park_unbound : let i : Inst := { iL with reported := true }
    let s : State := { onTab (sG 2 gg 5 true) with cores := [(3, { inst := some i })], slots := [(6, { x0 with preempting := true })] }
    i.gang = false ∧ (s.slot i.slot).preempting = true ∧ i.restored = false ∧ (s.core 3).inst = some i ∧ s.nat0 ((s.slot i.slot).qcb.toNat + 0x64) 4 = 0 := by decide +kernel
theorem wit_park_mapped : ∀ b : Bool, Mapped0 { onTab (sG 2 gg 5 true) with slots := [(6, { x0 with preempting := b })] } (x0.qcb.toNat + 0x64) 4 := fun b => mapped0 (by revert b; decide +kernel)

end Qu

/-! ### The device, links and the machine as a whole -/

namespace Dv

def sD (k : Core) (b : Boot) : State := { State.reset with
    cores := [(3, k)], boot := b, link := true, vfs := true, ptime := 120000000000, fns := [(0, { pend := 5 }), (1, { flr := true, pend := 3, msix := true, mask := 1 })], mem := [(0x200000, 7)], poison := [0x21],
    dies := [(1, { resetting := true, wasReset := true })], flash := { bytes := [(0, 0x4B)] } }
def up : Boot := { ready := true }
theorem wit_device_up : DeviceUp (sD {} up) ∧ ((sD {} up).fn 0).flr = false ∧ (∀ d, d < 4 → ((sD {} up).die d).waiting = []) ∧ (sD {} {}).boot.ready = false ∧ 0x200000 + 3 ≤ Config.hbmSize ∧
    (∀ i, i < 3 → (0x200000 + i) / 65536 ∉ (sD {} up).poison) := by unfold DeviceUp HostUp; decide +kernel

theorem wit_pages : ∀ d ∈ [0, 3], DeviceUp (sD {} up) ∧ HostUp (sD {} {}) ∧ (sD {} {}).boot.ready = false ∧ ((sD {} up).die d).waiting = [] ∧ (0x200 : Nat) ≤ 0x3004 ∧ ¬((0 : Nat) = 0 ∧ 0x2FF8 < 0x3004 ∧ 0x3000 < 0x2FF8 + 8) ∧
    (sD {} {}).boot.recovery = false := by unfold DeviceUp HostUp; decide +kernel

/-- A partition table of two rows at 0x200000, good or with a wrong field, and one that is too long. -/
def row (sl st cc sh hb fl : Nat) : List (Nat × Nat) := [(0, sl), (8, st), (16, cc + 256 * sh + 65536 * hb), (20, fl)]
def sP (r0 r1 : List (Nat × Nat)) (n : W32) : State := { sD {} up with mem := (r0.map (fun (e : Nat × Nat) => (0x200000 + e.1, e.2)) ++ r1.map (fun (e : Nat × Nat) => (0x200040 + e.1, e.2))).foldl put32 [], partbase := 0x200000, fpbase := 0x210000, partcount := n }
theorem wit_tables : ∀ s ∈ [sP (row 1 1 0 1 1 1) (row 2 2 1 1 1 1) 2, sP (row 1 1 8 1 1 1) (row 2 2 1 1 1 1) 2, sP (row 1 1 0 0 1 1) (row 1 2 1 1 1 1) 2, sP (row 1 1 0 1 1025 1) (row 1 2 1 1 1 1) 2, sP [] [] 49],
    DeviceUp s ∧ (s.partcount = 2 → ∀ n ∈ [0, 1], num (Map.getRange 0 s.mem (s.partbase.toNat + 64 * n) 64) 20 4 % 2 = 1) ∧ (s.partcount ≠ 2 → 48 < s.partcount.toNat) := by
  unfold DeviceUp HostUp num; decide +kernel
theorem wit_table_fields : num (Map.getRange 0 (sP (row 1 1 8 0 1025 1) [] 1).mem 0x200000 64) 16 1 = 8 ∧ num (Map.getRange 0 (sP (row 1 1 8 0 1025 1) [] 1).mem 0x200000 64) 17 1 = 0 ∧
    num (Map.getRange 0 (sP (row 1 1 8 0 1025 1) [] 1).mem 0x200000 64) 18 2 = 1025 := by unfold num; decide +kernel
theorem wit_activate : (3 : W32).getLsbD 0 = true ∧ (sD {} up).flash.updating = none ∧ ({ updating := some true } : Flash).updating ≠ none ∧
    num ((sD {} up).flash.imageOf false) 0 4 ≠ 0x4D465A4B ∧ (sD {} up).slots = [] ∧ (sD {} up).kept = [] ∧ (sD {} up).interrupted = [] := by unfold num; decide +kernel
/-- An image that waits for ACTIVATE. -/
theorem wit_pending : let s := { sD {} up with flash := { pend := some [0x4B, 0x5A, 0x46, 0x4D, 2, 0] } }
    s.flash.pend = some [0x4B, 0x5A, 0x46, 0x4D, 2, 0] ∧ num (s.flash.pend.getD []) 0 4 = 0x4D465A4B ∧ num (s.flash.pend.getD []) 4 2 ≠ 1 ∧ DeviceUp s := by unfold DeviceUp HostUp num; decide +kernel
/-- What an image's form and SVN rest on is the part's: the key, the hash and the signature (Config). Given an image that they accept, the
clauses on good and old images are met. -/
theorem wit_image (img : List Byte) (h : imageForm img = true) : let f (m : W32) : Flash := { updating := some false, svnMin := m }
    (f 0).updating = some false ∧ imageForm img = true ∧ (f 0).svnMin.toNat ≤ num img 8 4 := ⟨rfl, h, by simp⟩

theorem wit_starts : ∀ p ∈ [(1, 8), (2, 8), (1, 1), (1, 6), (2, 1), (1, 3)], let b : Boot := { start := BitVec.ofNat 2 p.1, phase := BitVec.ofNat 8 p.2, fails := 2, recovery := true }; let s (n : Nat) : State := { sD (coreOf [(0, th0)]) b with ptime := n, agenda := [.bootStep 0] }
    (s 0).mainPower = true ∧ (s 0).present = true ∧ (s 0).link = true ∧ b.stuck = false ∧ 1 ≤ b.phase.toNat ∧ b.phase.toNat ≤ 8 ∧ (s 0).ports = [] ∧ (s 0).agenda = .bootStep 0 :: [] ∧
      b.since + (if b.start = 2 then 20000000000 else 120000000000) ≤ (s 120000000000).ptime ∧ (s 0).ptime < b.since + (if b.start = 2 then 20000000000 else 120000000000) := by decide +kernel
theorem wit_failed_step : ∀ n ∈ [1, 6, 8], ∀ e ∈ [1, 0x10001, 0xFFFF], let s : State := { State.reset with boot := { phase := BitVec.ofNat 8 n }, agenda := [.bootStep e] }
    s.ports = [] ∧ s.agenda = .bootStep e :: [] ∧ s.mainPower = true ∧ s.present = true ∧ s.boot.stuck = false ∧ 1 ≤ s.boot.phase.toNat ∧ s.boot.phase.toNat ≤ 8 ∧ e % 2 ^ 16 ≠ 0 := by decide +kernel
theorem wit_functions : let s := sD {} up
    s.mainPower = true ∧ s.present = true ∧ HostUp s ∧ (s.fn 0).flr = false ∧ (s.fn 0).pend.getLsbD 2 = true ∧ (s.fn 1).msix = true ∧ (s.fn 1).pend.getLsbD 1 = true ∧
      (s.fn 1).mask.getLsbD 1 = false := by unfold HostUp; decide +kernel
theorem wit_functions_there : ((∀ f ∈ [0, 1, 256], FnThere (sD {} up) f) ∧ ¬FnThere (sD {} up) 257 ∧ ¬FnThere State.reset 1 ∧ FnThere State.reset 0) ∧ ∀ f ∈ [0, 256], HostUp (sD {} up) ∧ ((sD {} up).fn f).flr = false := by
  unfold FnThere HostUp; decide +kernel
theorem wit_die_reset : let s := sD { errs := [5] } up
    DeviceUp s ∧ (s.die 0).resetting = false ∧ s.slots = [] ∧ (s.die 1).resetting = true ∧ s.parts = [] ∧ (∃ e ∈ (s.core 3).errs, 120000000000 < e + 86400000000000) ∧
      (∀ e ∈ (s.core 4).errs, e + 86400000000000 ≤ s.ptime) ∧ (5 : W32).toNat > 4 := by unfold DeviceUp HostUp; decide +kernel

/-- Stream 1: instants 7 + 4000000 n, 64 rows of 64 pixels, row pitch 256. -/
def row1 : List (Nat × Nat) := [(0x90080, 3), (0x90088, 64 + 65536 * 64), (0x9008C, 256), (0x90090, 7), (0x90098, 4000000)]
def sF (x : Slot) (st : Stream) (t : Nat) (lk : Bool) (n : W32) : State := { Qu.sQ x 6 0 with strbase := 0x90000, strcount := n, streams := [(1, st)], ptime := t, locked := lk, mem := row1.foldl put32 (Qu.sQ x 6 0).mem }
def fpk (n t : Nat) : LaPkt := Qu.lp 8 [(16, 0x60000), (24, t), (32, n)] 0
def fr1 (t : Nat) : Frame := { buf := 0x60000, instant := t, slot := some 6, pasid := 0 }
theorem wit_frame : ∀ t ∈ [4000007, 4000008], ∀ now ∈ [3500006, 3500007], ∀ lk ∈ [true, false], ∀ st ∈ [({} : Stream), { next := some 8000007 }], let s := sF (Qu.xP (fpk 1 t) []) st now lk 2
    AtIssue s 6 (fpk 1 t) (Qu.pkt 8 [(16, 0x60000), (24, t), (32, 1)]) 8 ∧ (s.streamRow? 1).map (fun r => (r.epoch, r.period)) = some (7, 4000000) ∧ num (Qu.pkt 8 [(16, 0x60000), (24, t), (32, 1)]) 24 8 = t ∧
      num (Qu.pkt 8 [(16, 0x60000), (24, t), (32, 1)]) 32 4 = 1 ∧ s.ptime = now ∧ (sF (Qu.xP (fpk 1 t) []) st now lk 1).streamRow? 1 = none := by
  unfold AtIssue Works Quiet num; decide +kernel
def xF (t : Nat) : Slot := { Qu.x0 with pkt := some (fpk 1 t), phase := .frame }
theorem wit_emit : ∀ n ∈ [1, 2], let st : Stream := { frames := [fr1 4000007], last := some (fr1 4000007), next := some 4000007 }; let s := sF (xF 4000007) st 3999907 true (BitVec.ofNat 32 n)
    (s.stream 1).frames = [fr1 4000007] ∧ (s.slot 6).pkt = some (fpk 1 4000007) ∧ (s.slot 6).bound = true ∧ (s.slot 6).launch = none ∧ (s.slot 6).record = none ∧ (s.slot 6).stack = [] ∧
      (fr1 4000007).instant ≤ s.ptime + 100 ∧ (n = 1 → s.streamRow? 1 = none) ∧ (n = 2 → (s.streamRow? 1).map (fun r => (r.height, r.rowBytes, r.subst, r.pitch)) = some (64, 160, true, 256)) ∧
      ((s.lookup (fr1 4000007).pasid (0x60000 + 1 * 256 + 159 / 256 * 256)).isSome) ∧ (sF (xF 4000007) st 3999906 true 2).ptime + 100 < 4000007 := by decide +kernel
theorem wit_substitute : let s := sF Qu.x0 { last := some (fr1 7), next := some 4000007 } 3500007 true 2
    (s.stream 1).next = some 4000007 ∧ (s.stream 1).last = some (fr1 7) ∧ ((4000007 : Int) - 7) % 4000000 = 0 ∧ 4000007 ≤ s.ptime + 500000 ∧ (∀ g ∈ (s.stream 1).frames, g.instant ≠ 4000007) ∧
      (s.streamRow? 1).isSome := by decide +kernel

/-- Queue pair 2 of PASID 7, with a ring of 16 receive buffers at VA 0x50000, the last of them next. -/
def qpt (st : Nat) : List (Nat × Nat) := [(0x300080, st), (0x3000A8, 0x41000), (0x3000B0, 16), (0x3000B4, 0xFFFFFFFF), (0x3000B8, 7), (0x3000BC, 0x12345678)]
def mR : Cmd := { id := 4, op := 0xA3, tid := 0, pasid := 7, started := true, c := 32, data := [some (List.replicate 16 5), some (List.replicate 16 6)] }
def rq (w : Bool) (n : Nat) : RdmaReq := { qp := 2, addr := 0x50000, core := 3, cmd := 4, write := w, retries := n }
def sR (e st : Nat) (r : RdmaReq) : State := { State.reset with mem := (qpt st).foldl put32 (Tr.tabs e), ptbase := 0x10000, qpbase := 0x300000, qpcount := 3, boot := up, cores := [(3, { cmds := [mR] })], rdma := [r] }
theorem wit_remote : QpUp (sR 0x500007 1 (rq true 0)) 2 ∧ qpField (sR 0x500007 1 (rq true 0)) 2 60 4 = 0x12345678 ∧ qpField (sR 0x500007 1 (rq true 0)) 2 56 4 % 2 ^ 20 = 7 ∧
    qpField (sR 0x500007 1 (rq true 0)) 2 40 8 + 4096 * (qpField (sR 0x500007 1 (rq true 0)) 2 52 4 % 16) = 0x50000 ∧ ¬QpUp (sR 0x500007 0 (rq true 0)) 2 := by
  unfold QpUp qpField; decide +kernel
theorem wit_page_at : ∀ e ∈ [0x500007, 0x500003], ∀ va ∈ [0x50000, 0x5FFFF], ∀ wr ∈ [false, e == 0x500007], PageAt (sR e 1 (rq true 0)) 7 va 0x33028 wr := by
  intro e he va hv wr hw
  unfold PageAt plain
  refine ⟨⟨2, ?_⟩, ?_⟩
  · clear hw wr; unfold Chain plain; dsimp only; revert va; revert e; decide +kernel
  · revert wr va; revert e; decide +kernel
theorem wit_receive : let b := frame 0x500007 + 0x50000 % 65536; 0x33028 + 8 ≤ b ∧ 0x300000 + 64 * 2 + 64 ≤ b ∧ 0x33028 + 8 ≤ 0x300000 + 64 * 2 ∧ (16 : Nat) = 2 ^ 4 ∧ 0x50000 % 4096 = 0 ∧ 0x51000 % 4096 = 0 := by
  unfold frame; decide
theorem wit_outbound : ∀ p ∈ [(true, 0), (false, 6), (true, 7)], let s := sR 0 1 (rq p.1 p.2)
    s.rdma = [rq p.1 p.2] ∧ (s.core 3).cmd? 4 = some mR ∧ mR.id = (rq p.1 p.2).cmd ∧ mtu s 2 = 256 ∧
      (List.replicate 32 (0 : Byte)).length = min (mtu s 2) (mR.c.toNat - 0) ∧ (List.replicate 31 (0 : Byte)).length ≠ min (mtu s 2) (mR.c.toNat - 0) := by unfold mtu qpField; decide +kernel
theorem wit_resend : ∀ t ∈ [999999, 1000000], ∀ n ∈ [6, 7], let r := rq true n; let s : State := { sR 0 1 r with ptime := t }
    r.qp = 2 ∧ s.rdma = [r] ∧ (t = 999999 → s.ptime < r.since + 1000000) ∧ (t = 1000000 → r.since + 1000000 ≤ s.ptime) ∧ (n = 6 → r.retries < 7) ∧ (n = 7 → 7 ≤ r.retries) := by decide +kernel
/-- A packet that waits at port `p`; port 0 is the one of queue pair 2. -/
def pk (p : Nat) : Pkt := { port := p, smac := [], dmac := 0, dip := 0, dqpn := 0, psn := 0, write := true, addr := 0, rkey := 0, len := 0, data := [] }
-- packets wait at the port, or at the other one only; the port has a mark, or none
theorem wit_held : ∀ p ∈ [0, 1], ∀ n ∈ [0, 1], let s : State := { sR 0 1 (rq true 0) with held := [pk p], marks := [(0, n)], ptime := 1000000 }
    portOf s 2 = 0 ∧ ((∃ x ∈ s.held, x.port = portOf s 2) ↔ p = 0) ∧ (Map.get 0 s.marks (portOf s 2) = 0 ↔ n = 0) ∧ s.rdma = [rq true 0] ∧ (rq true 0).since + 1000000 ≤ s.ptime ∧ (p = 0 → Waits s 0) := by
  intro p hp n hn
  refine ⟨?_, ?_, ?_, rfl, (by decide : 0 + 1000000 ≤ 1000000), fun h => Or.inr ⟨pk p, List.mem_singleton.mpr rfl, h⟩⟩
  · unfold portOf qpField; revert p n; decide +kernel
  · unfold portOf qpField; revert p n; decide +kernel
  · unfold portOf qpField; revert p n; decide +kernel
theorem wit_free_port : ∀ p, ¬Waits (sR 0 1 (rq true 0)) p := by
  rintro p (h | ⟨x, h, -⟩)
  · exact absurd h (by simp [sR, State.reset, Map.get])
  · cases h
/-- The SEND that is due has the number 5, the next of EPSN 4 after one packet taken; one behind it and one ahead. -/
theorem wit_numbers : let s := { sR 0x500007 1 (rq true 0) with mem := put32 (sR 0x500007 1 (rq true 0)).mem (0x3000A4, 4), qps := [(2, { taken := 1 })] }
    nextPsn s 2 = 5 ∧ (5 : W32).toNat % 2 ^ 24 = nextPsn s 2 ∧ QpUp s 2 ∧ 2 ^ 23 ≤ (4 + 2 ^ 24 - nextPsn s 2) % 2 ^ 24 ∧ (6 + 2 ^ 24 - nextPsn s 2) % 2 ^ 24 < 2 ^ 23 ∧
      (4 : W32).toNat % 2 ^ 24 ≠ nextPsn s 2 ∧ 4080 < (List.replicate 4081 (0 : Byte)).length := by
  unfold nextPsn QpUp qpField; simp only [List.length_replicate]; decide +kernel
/-- A copy to window 1 of the peer of queue pair 2; the window's length is `len`; it is read from VA `b`. -/
def mW (b : Nat) : Cmd := { id := 4, op := 0xA3, fn := 3, tid := 0, pasid := 7, a := BitVec.ofNat 64 (15 * 2 ^ 48 + 2 ^ 40 + 32), b := BitVec.ofNat 64 b, c := 32, src := [{ pasid := 7, va := 0x50000, size := 0x10000, loc := { host := false, addr := 0x500000 }, w := true }], moves := [{ src := .glob b, dst := .glob (15 * 2 ^ 48 + 2 ^ 40 + 32), n := 32 }] }
def sW (len b : Nat) : State := let s := sR 0x500007 1 (rq true 0)
  { s with mem := [(0x310020, 3), (0x310024, 2), (0x310028, 0x1000), (0x310030, len), (0x310038, 0x77), (0x31003C, 7)].foldl put32 s.mem, pwbase := 0x310000, pwcount := 2, cores := [(3, { cmds := [mW b] })], rdma := [] }
theorem wit_window : ∀ p ∈ [(64, 0x50020), (63, 0x50020), (64, 0xEFFFFFFFFFFF0)], let s := sW p.1 p.2; let k := s.core 3; let m := mW p.2
    let va := m.a.toNat; let e := s.pwbase.toNat + 32 * (va / 2 ^ 40 % 256); let ctl := s.devNat e 4; let qp := s.devNat (e + 4) 4
    k.cmd? m.id = some m ∧ k.startable m = true ∧ m.fn % 4 = 3 ∧ va / 2 ^ 48 = 15 ∧ m.b.toNat / 2 ^ 48 ≠ 15 ∧ 16 ∣ m.c.toNat ∧ va % 2 ^ 40 + 32 ≤ 2 ^ 40 ∧
      ((va / 2 ^ 40 % 256 < s.pwcount.toNat ∧ ctl % 2 = 1 ∧ ctl / 2 % 2 = 1 ∧ s.devNat (e + 28) 4 % 2 ^ 20 = m.pasid ∧ va % 2 ^ 40 + 32 ≤ s.devNat (e + 16) 8 ∧
        qp < 4096 ∧ qp < s.qpcount.toNat ∧ qpField s qp 0 1 = 1) ↔ p.1 = 64) ∧ ((m.b.toNat + 32 - 1) / 2 ^ 48 = 15 ↔ p.2 = 0xEFFFFFFFFFFF0) := by
  unfold qpField; decide +kernel
theorem wit_window_source : let m := mW 0x50020; ∀ i, i < 32 → findTlb m.src m.pasid (m.b.toNat + i) false = m.src.head? ∧ findTlb m.src m.pasid (m.a.toNat + i) true = none := by decide +kernel

theorem wit_services : ∀ x ∈ [({} : Spdm), { version := true }, { version := true, caps := true }, { version := true, caps := true, algs := true }], ∀ p ∈ [true, false], ∀ u ∈ [none, some true, some false],
    let s : State := { State.reset with spdm := [(0, x), (1, x)], link := true, mainPower := p, flash := { updating := u } }
    Map.get ({} : Spdm) s.spdm 0 = x ∧ Map.get ({} : Spdm) s.spdm 1 = x ∧ s.present = true ∧ s.flash.updating = u ∧ (p = true → HostUp s) := by unfold HostUp; decide +kernel
theorem getRange_length {α : Type} (d : α) (m : Map α) : ∀ n i, (Map.getRange d m i n).length = n
  | 0, _ => rfl
  | n + 1, i => by simp [Map.getRange, getRange_length d m n]
/-- The place and length of the certificates are the part's (Config). -/
theorem wit_certificate (s : State) (h : 0 < Config.certLen) : let at_ := Config.certAt % 0x200000
    (0 : Nat) < (Map.getRange 0 s.flash.bytes (0x3E00000 + at_) (min Config.certLen (0x200000 - at_))).length := by
  intro at_; rw [getRange_length]; omega
theorem wit_updates : ∀ p ∈ [(some false, 0), (some true, 5)], let f : Flash := { updating := p.1, svnMin := BitVec.ofNat 32 p.2 }
    f.updating = p.1 ∧ ([] : List Byte).length ≤ 0x1E00000 := by decide +kernel
-- an update of the part in force, and one in recovery
theorem wit_recovery_update : ∀ b : Bool, let s : State := { State.reset with boot := { recovery := b }, flash := { updating := some false } }
    s.boot.recovery = b ∧ s.flash.updating = some false ∧ s.mainPower = true ∧ s.present = true := by decide

/-- Core 3 with a port at the header of a block, or inside it, the word `w`. -/
def sS (w : W64) (blk : Option (W64 × W64)) (pc : W64) : State := { State.reset with
  cores := [(3, { inst := some i4, threads := [(0, { st := .live, pc := pc, blk := blk })], icache := [(0x10, [hPlain, w, w])] })], ports := [{ core := 3, pc := pc, set := [0], blk := blk }] }
theorem wit_step : ∀ w ∈ [(0x5300812285800000, true), (0xFFFFFFFFFFFFFFFF, false)], ∀ p ∈ [(0x1000, none), (0x1008, some (0x1000, hPlain))], let s := sS (BitVec.ofNat 64 w.1) p.2 (BitVec.ofNat 64 p.1); let k := s.core 3
    [0].filter (fun t => s.ready 3 t && (k.thread t).pc == BitVec.ofNat 64 p.1 && (k.thread t).blk == p.2) ≠ [] ∧ (p.2 = none → k.fetch (BitVec.ofNat 64 p.1) = some hPlain ∧ headerOk hPlain = .ok ∧
      (k.thread 0).vec = false ∧ k.fetch (BitVec.ofNat 64 p.1 + 8) = some (BitVec.ofNat 64 w.1)) ∧ (p.2 ≠ none → k.fetch (BitVec.ofNat 64 p.1) = some (BitVec.ofNat 64 w.1)) ∧
      (decode (BitVec.ofNat 64 w.1)).isSome = w.2 := by decide +kernel
theorem wit_step_event : ({ State.reset with agenda := [.event .ready] } : State).ports = [] ∧ encode .ready = none := by decide +kernel
theorem wit_well_formed : WellFormed (.add ⟨hd, 5, 4, 4, 0, 0, 0, 0⟩) ∧ encode (.add ⟨hd, 5, 4, 4, 0, 0, 0, 0⟩) = some 0x1000508100000000 ∧ decode 0x1000508100000000 = some (.add ⟨hd, 5, 4, 4, 0, 0, 0, 0⟩) := by
  unfold WellFormed; decide +kernel
/-- The canonical form holds at reset, and a step from there is one. -/
theorem wit_canonical : Canonical State.reset ∧ Canonical ({ State.reset with agenda := [.cycles 3 1] } : State) ∧ (match step { State.reset with agenda := [.cycles 3 1] } with | .next _ => true | _ => false) = true := by
  unfold Canonical; decide +kernel
theorem wit_frame_of_compute : s0.cur.set = [0] ∧ s0.cur.core < 208 ∧ (s0.curThread 0).sub = none ∧ (match exec (.add (wf 0)) s0 with | .next _ => true | _ => false) = true := by decide +kernel

end Dv

end Sys2Proof.Tests
end

section
/-! The verdict on a header word and the five transfers of a thread alone (O13). What a transfer does to its thread is said once: `Aim.move` judges
where the instruction sends it and `State.carriesOut` does what is judged, and `transfer_lone` says that an issue of one thread is no more than
that. An instruction then needs only its aim. -/

namespace Sys2Proof.Machine
open Sys2Proof Sys2Proof.Claims

/-! ### Headers (R180 to R182) -/

/-- A word is a header in form and check (R180). -/
def HdrForm (h : W64) : Prop := (fld h 60 4).toNat = 15 ∧ fld h 0 8 = hdrCheck h

/-- No field of a header holds a reserved value, and TAG and KIND go together (R180, R181). -/
def HdrFields (h : W64) : Prop :=
  hdrLen h ≠ 0 ∧ hdrKind h ≤ 4 ∧ (hdrTag h = 0xFC ↔ hdrKind h = 4) ∧ (hdrTag h = 0xFE ↔ hdrKind h = 3) ∧
    (hdrTag h = 0xFD → hdrKind h ≤ 2) ∧ (hdrTag h < 0xF0 ∨ hdrTag h = 0xFC ∨ hdrTag h = 0xFD ∨ hdrTag h = 0xFE)

theorem hdrTag_lt (h : W64) : hdrTag h < 256 := (fld h 44 8).isLt

theorem beq_beq_iff (a b c d : Nat) : ((a == b) == (c == d)) = true ↔ (a = b ↔ c = d) := by
  rw [beq_iff_eq, Bool.eq_iff_iff, beq_iff_eq, beq_iff_eq]

/-- The pairing test of `headerOk` is the three conditions of R181 that tie TAG and KIND. -/
theorem pairing_eq_true_iff (tag kind : Nat) :
    ((tag == 0xFC) == (kind == 4) && (tag == 0xFE) == (kind == 3) && (tag != 0xFD || decide (kind ≤ 2))) = true ↔
      (tag = 0xFC ↔ kind = 4) ∧ (tag = 0xFE ↔ kind = 3) ∧ (tag = 0xFD → kind ≤ 2) := by
  simp only [Bool.and_eq_true, beq_beq_iff, Bool.or_eq_true, bne_iff_ne, decide_eq_true_eq, and_assoc, Decidable.imp_iff_not_or, ne_eq]

open Classical in
/-- The verdict: form and check come first, then the fields (R182). -/
theorem headerOk_eq (h : W64) : headerOk h = if HdrForm h then (if HdrFields h then .ok else .reserved) else .bad := by
  have hform : ((fld h 60 4).toNat ≠ 15 ∨ fld h 0 8 ≠ hdrCheck h) ↔ ¬HdrForm h := Decidable.not_and_iff_not_or_not.symm
  have hreserved : (hdrLen h = 0 ∨ 5 ≤ hdrKind h ∨ (0xF0 ≤ hdrTag h ∧ hdrTag h ≤ 0xFB) ∨ hdrTag h = 0xFF ∨
      ((hdrTag h == 0xFC) == (hdrKind h == 4) && (hdrTag h == 0xFE) == (hdrKind h == 3) && (hdrTag h != 0xFD || decide (hdrKind h ≤ 2))) = false) ↔
      ¬HdrFields h := by
    have := hdrTag_lt h
    rw [← Bool.not_eq_true, pairing_eq_true_iff, HdrFields]
    omega
  simp only [headerOk, hform, hreserved, ite_not]

theorem headerOk_bad_iff (h : W64) : headerOk h = .bad ↔ ¬HdrForm h := by
  rw [headerOk_eq]
  by_cases hform : HdrForm h <;> by_cases hfields : HdrFields h <;> simp [hform, hfields]
theorem headerOk_ok_iff (h : W64) : headerOk h = .ok ↔ HdrForm h ∧ HdrFields h := by
  rw [headerOk_eq]
  by_cases hform : HdrForm h <;> by_cases hfields : HdrFields h <;> simp [hform, hfields]
theorem headerOk_reserved_iff (h : W64) : headerOk h = .reserved ↔ HdrForm h ∧ ¬HdrFields h := by
  rw [headerOk_eq]
  by_cases hform : HdrForm h <;> by_cases hfields : HdrFields h <;> simp [hform, hfields]

/-- The form in the words of R180: CHECK is the XOR of the seven bytes above it, in any order. -/
theorem hdrForm_iff (h : W64) : HdrForm h ↔ h.extractLsb' 60 4 = 15#4 ∧ h.extractLsb' 0 8 = h.extractLsb' 8 8 ^^^ h.extractLsb' 16 8 ^^^
    h.extractLsb' 24 8 ^^^ h.extractLsb' 32 8 ^^^ h.extractLsb' 40 8 ^^^ h.extractLsb' 48 8 ^^^ h.extractLsb' 56 8 := by
  have hcheck : hdrCheck h = h.extractLsb' 8 8 ^^^ h.extractLsb' 16 8 ^^^ h.extractLsb' 24 8 ^^^ h.extractLsb' 32 8 ^^^
      h.extractLsb' 40 8 ^^^ h.extractLsb' 48 8 ^^^ h.extractLsb' 56 8 := by
    unfold hdrCheck fld; ac_rfl
  rw [HdrForm, hcheck, show 15 = (15#4).toNat from rfl, BitVec.toNat_inj]
  rfl

theorem headerVerdicts : HeaderVerdicts := fun h => by
  have hform := hdrForm_iff h
  exact ⟨(headerOk_bad_iff h).trans (not_congr hform), (headerOk_ok_iff h).trans (and_congr_left' hform),
    (headerOk_reserved_iff h).trans (and_congr_left' hform)⟩

/-! ### A transfer of one thread (R182, R183, R235) -/

/-- The line of a target that is looked at is cached, so that the transfer does not wait for it. -/
def Aim.Cached (k : Core) : Aim → Prop
  | .error _ => True
  | .ok (pc, _, _) => pc.toNat % 8 = 0 → k.fetch pc ≠ none

/-- What becomes of a thread that a transfer sends on. -/
def Aim.move (k : Core) : Aim → Move
  | .error (cz, v) => .trap cz v
  | .ok (pc, tag, link) =>
    if pc.toNat % 8 ≠ 0 then .trap .badhdr pc
    else match targetTrap ((k.fetch pc).getD 0) pc tag with
      | some (cz, v) => .trap cz v
      | none => .to pc link

/-- Thread `t` has issued the transfer and goes on, or takes the trap. -/
def State.carriesOut (s : State) (t : Nat) : Move → State
  | .to pc link => (s.noted [t]).updThread s.cur.core t
      (fun th => ({ th.commit s.cur with lk := link.getD (s.curThread t).lk }).goto pc)
  | .trap cz v => ((s.noted [t]).updThread s.cur.core t (Thread.commit s.cur)).trap s.cur.core t cz s.cur.pc v
  | _ => s

theorem State.updThread_congr (s : State) (c t : Nat) (f g : Thread → Thread)
    (h : f ((s.core c).thread t) = g ((s.core c).thread t)) : s.updThread c t f = s.updThread c t g := by
  simp only [State.updThread, State.updCore, Core.updThread, h]

/-- One thread goes one way, so it pushes nothing (R20). -/
theorem diverges_lone (k : Core) (t : Nat) (pc : W64) : diverges k [(t, pc)] t = false := by
  unfold diverges
  cases k.grpOf t <;> simp

/-- One thread lands at its target with its link, the old one where the transfer writes none. -/
theorem land_lone (s : State) (t : Nat) (pc : W64) (link : Option W64) :
    s.land [(t, pc, link)] = s.updThread s.cur.core t
      (fun th => ({ th with lk := link.getD th.lk }).goto pc) := by
  cases link <;> cases hr : s.cur.reconv <;> simp [State.land, diverges_lone, hr]

@[simp] theorem land_nil (s : State) : s.land [] = s := rfl

theorem land_issued (s : State) (t : Nat) (pc : W64) (link : Option W64) :
    ((s.noted [t]).updThread s.cur.core t (Thread.commit s.cur)).land [(t, pc, link)] = s.carriesOut t (.to pc link) := by
  rw [land_lone]
  simp only [State.updThread_cur, noted_cur, State.updThread_updThread]
  refine State.updThread_congr _ _ _ _ _ ?_
  rw [noted_curThread]
  rfl

/-- A transfer that one thread issues does what its aim is judged to be, and nothing else. -/
theorem transfer_lone {o : OpSpec} {aim : Thread → Exec → Aim} {s : State} {t : Nat} {a : Aim}
    (h : s.lone { o with endsBlock := true, keepIdle := true } t = true)
    (ha : aim (s.curThread t) { lead := t, ops := o.vals s.curCore t, targets := [t] } = a) (hc : a.Cached s.curCore) :
    transfer o aim s = .next (s.carriesOut t (a.move s.curCore)) := by
  have hg : gather { o with endsBlock := true, keepIdle := true } s =
      { execs := [{ lead := t, ops := o.vals s.curCore t, targets := [t] }] } := gather_lone s _ t h
  have hs := settle_lone s _ t h
  rw [hg] at hs
  simp only [State.curThread, State.curCore] at hg hs ha hc ⊢
  simp only [transfer, hg, hs, ha, List.map_cons, List.map_nil, List.findSome?_cons, List.findSome?_nil]
  obtain ⟨cz, v⟩ | ⟨pc, tag, link⟩ := a
  · simp [Aim.move, State.carriesOut]
  · by_cases h8 : pc.toNat % 8 = 0
    · obtain ⟨hd, hf⟩ := Option.ne_none_iff_exists'.1 (hc h8)
      cases hj : targetTrap hd pc tag with
      | some e => simp [Aim.move, State.carriesOut, h8, hf, hj]
      | none => simp [Aim.move, h8, hf, hj, land_issued]
    · simp [Aim.move, State.carriesOut, h8]

/-! ### The aims of the five transfers (R236 to R239) -/

/-- Thread `t` alone, its operands at hand, is sent by `i` where `a` says: once the line of the target is cached, `i` does what `a` is
judged to be. -/
def SendsTo (i : Instr) (o : OpSpec) (s : State) (t : Nat) (a : Aim) : Prop :=
  Runs i o s t → a.Cached s.curCore → exec i s = .next (s.carriesOut t (a.move s.curCore))

theorem sendsTo_bra (f : CForm) (s : State) (t : Nat) :
    SendsTo (.bra f) (transferSpec f false) s t (.ok (CForm.target f s.cur.pc, none, none)) :=
  fun ⟨_, h⟩ hc => by rw [exec_bra, execBra]; exact transfer_lone h rfl hc

theorem sendsTo_call (f : CForm) (s : State) (t : Nat) :
    SendsTo (.call f) (transferSpec f false) s t (.ok (CForm.target f s.cur.pc, none, some (s.cur.pc + 8))) :=
  fun ⟨_, h⟩ hc => by rw [exec_call, execCall]; exact transfer_lone h rfl hc

theorem sendsTo_jmpi (f : CForm) (s : State) (t : Nat) :
    SendsTo (.jmpi f) (transferSpec f true) s t (.ok (((transferSpec f true).opnd s t 0).x, some f.tag.toNat, none)) :=
  fun ⟨_, h⟩ hc => by rw [exec_jmpi, execJmpi]; exact transfer_lone h rfl hc

theorem sendsTo_calli (f : CForm) (s : State) (t : Nat) :
    SendsTo (.calli f) (transferSpec f true) s t (.ok (((transferSpec f true).opnd s t 0).x, some f.tag.toNat, some (s.cur.pc + 8))) :=
  fun ⟨_, h⟩ hc => by rw [exec_calli, execCalli]; exact transfer_lone h rfl hc

/-- RET goes by %lk, and 0 is no link (R239). -/
theorem sendsTo_ret (f : CForm) (s : State) (t : Nat) :
    SendsTo (.ret f) (transferSpec f false) s t
      (if (s.curThread t).lk = 0 then .error (.retnull, 0) else .ok ((s.curThread t).lk, some 0xFE, none)) :=
  fun ⟨_, h⟩ hc => by rw [exec_ret, execRet]; exact transfer_lone h rfl hc

/-! ### Landing and trapping -/

theorem targetTrap_eq_none {h : W64} {tag : Option Nat} (pc : W64) (hok : headerOk h = .ok) (htag : ∀ x, tag = some x → hdrTag h = x) :
    targetTrap h pc tag = none := by
  cases tag with
  | none => simp [targetTrap, hok]
  | some x => simp [targetTrap, hok, htag x rfl]

section
variable {i : Instr} {o : OpSpec} {s : State} {t : Nat} {pc : W64} {tag : Option Nat} {link : Option W64}

/-- At a right target the thread lands. -/
theorem SendsTo.lands (ha : SendsTo i o s t (.ok (pc, tag, link))) (hr : Runs i o s t) (ht : Target s pc tag) :
    LandsAt i s t pc (link.getD (s.curThread t).lk) := by
  obtain ⟨h8, h, hf, hok, htag⟩ := ht
  have hmove : Aim.move s.curCore (.ok (pc, tag, link)) = .to pc link := by
    simp [Aim.move, h8, hf, targetTrap_eq_none pc hok htag]
  rw [LandsAt, ha hr (by simp [Aim.Cached, hf]), hmove]
  rfl

/-- An address that is no multiple of 8 is no header (R182). -/
theorem SendsTo.traps_unaligned (ha : SendsTo i o s t (.ok (pc, tag, link))) (hr : Runs i o s t) (h8 : pc.toNat % 8 ≠ 0) :
    Traps i s t .badhdr pc := by
  have hmove : Aim.move s.curCore (.ok (pc, tag, link)) = .trap .badhdr pc := by simp [Aim.move, h8]
  rw [Traps, ha hr (fun h => absurd h h8), hmove]
  rfl

/-- A target that its word condemns traps as judged. -/
theorem SendsTo.traps {h : W64} {cz : Cause} {v : W64} (ha : SendsTo i o s t (.ok (pc, tag, link))) (hr : Runs i o s t)
    (h8 : pc.toNat % 8 = 0) (hf : s.curCore.fetch pc = some h) (hj : targetTrap h pc tag = some (cz, v)) : Traps i s t cz v := by
  have hmove : Aim.move s.curCore (.ok (pc, tag, link)) = .trap cz v := by simp [Aim.move, h8, hf, hj]
  rw [Traps, ha hr (by simp [Aim.Cached, hf]), hmove]
  rfl

/-- Every way in which the target of a transfer is refused (R182, R183): its address, its form, its fields, its tag. -/
def TrapsAtBadTarget (i : Instr) (o : OpSpec) (s : State) (t : Nat) (pc : W64) (tag : Option Nat) : Prop :=
  Runs i o s t →
    (pc.toNat % 8 ≠ 0 → Traps i s t .badhdr pc) ∧
    (pc.toNat % 8 = 0 → ∀ h, s.curCore.fetch pc = some h →
      (headerOk h = .bad → Traps i s t .badhdr pc) ∧ (headerOk h = .reserved → Traps i s t .illegal pc) ∧
      (∀ x, tag = some x → headerOk h = .ok → hdrTag h ≠ x → Traps i s t .landtag pc))

theorem SendsTo.trapsAtBadTarget (ha : SendsTo i o s t (.ok (pc, tag, link))) : TrapsAtBadTarget i o s t pc tag := by
  refine fun hr => ⟨ha.traps_unaligned hr, fun h8 h hf => ⟨fun hbad => ?_, fun hres => ?_, fun x hx hok hne => ?_⟩⟩
  · exact ha.traps hr h8 hf (by simp [targetTrap, hbad])
  · exact ha.traps hr h8 hf (by simp [targetTrap, hres])
  · exact ha.traps hr h8 hf (by simp [targetTrap, hok, hx, hne])

end

theorem sendsTo_ret_link {f : CForm} {s : State} {t : Nat} (hlk : (s.curThread t).lk ≠ 0) :
    SendsTo (.ret f) (transferSpec f false) s t (.ok ((s.curThread t).lk, some 0xFE, none)) := by
  simpa only [hlk, if_false] using sendsTo_ret f s t

/-- RET without a link traps, and %tval is 0 (R239). -/
theorem traps_ret_null {f : CForm} {s : State} {t : Nat} (hr : Runs (.ret f) (transferSpec f false) s t) (hlk : (s.curThread t).lk = 0) :
    Traps (.ret f) s t .retnull 0 := by
  have ha := sendsTo_ret f s t
  rw [if_pos hlk] at ha
  exact ha hr trivial

theorem transfersLand : TransfersLand := fun f s t =>
  ⟨(sendsTo_bra f s t).lands, (sendsTo_call f s t).lands, (sendsTo_jmpi f s t).lands, (sendsTo_calli f s t).lands,
    fun hr hlk => (sendsTo_ret_link hlk).lands hr⟩

theorem transfersThatTrap : TransfersThatTrap := fun f s t =>
  ⟨(sendsTo_bra f s t).trapsAtBadTarget, (sendsTo_call f s t).trapsAtBadTarget, (sendsTo_jmpi f s t).trapsAtBadTarget,
    (sendsTo_calli f s t).trapsAtBadTarget, fun hlk => (sendsTo_ret_link hlk).trapsAtBadTarget, traps_ret_null⟩

/-- Settles O13: the verdict on a header is its form, then its fields; a transfer of one thread does what its aim is judged to be. -/
theorem controlTransfers : Obligations.ControlTransfers := ⟨headerVerdicts, transfersLand, transfersThatTrap⟩

end Sys2Proof.Machine
end

section
/-! How an instruction that computes registers completes when one thread issues it, what an opcode's words read as, and the elements of R190 as
bit vectors: the layer under the integer, logic and bit-field statements (O2, O3, O4). -/

namespace Sys2Proof.Machine
open Sys2Proof Sys2Proof.Claims

/-! ### One thread's result (R188) -/

/-- The one execution of thread `t` that issues alone. -/
def OpSpec.exec1 (o : OpSpec) (s : State) (t : Nat) : Exec := { lead := t, ops := o.vals s.curCore t, targets := [t] }

@[simp] theorem OpSpec.exec1_op (o : OpSpec) (s : State) (t i : Nat) : (o.exec1 s t).op i = o.opnd s t i := rfl

/-- An instruction whose meaning is `alu` gives its thread the result of the one execution, and does nothing else. -/
theorem alu_gives {i : Instr} {o : OpSpec} {s : State} {t : Nat} {comp : Thread → Exec → Res} {r : Res} (hr : Runs i o s t)
    (h : comp ((s.curThread t).commit s.cur) (o.exec1 s t) = r) : alu o comp s = .next (s.gives t r) := by
  obtain ⟨-, hlone⟩ := hr
  rw [alu_lone s o t comp hlone, ← h]
  rfl

@[simp] theorem Thread.commit_pred (p : Port) (th : Thread) (k : Nat) : (th.commit p).pred k = th.pred k := rfl

/-! ### The words of an opcode (R167, R185) -/

/-- What an opcode reads as, from its row of the decoder and the words that its check refuses. -/
theorem opcodeReads_of {α : Type} {op : BitVec 8} {mk : α → Instr} {bad : W64 → Prop} (get : W64 → α)
    (hrow : ∀ w i, ofOp op.toNat w = some i → i = mk (get w)) (hbad : ∀ w, bad w → legal (mk (get w)) = false) :
    OpcodeReads op mk bad := by
  intro w hw
  have hop : opOf w = op.toNat := congrArg BitVec.toNat hw
  have hdec : ∀ i, decode w = some i → i = mk (get w) ∧ legal i = true := by
    intro i hi
    rw [decode, hop] at hi
    split at hi
    next j hj =>
      split at hi
      next hl => cases hi; exact ⟨hrow w _ hj, hl⟩
      next => cases hi
    next => cases hi
  refine ⟨fun hb => ?_, fun i hi => ⟨get w, (hdec i hi).1⟩⟩
  refine Option.eq_none_iff_forall_ne_some.2 fun i hi => ?_
  obtain ⟨rfl, hl⟩ := hdec i hi
  simp [hbad w hb] at hl

theorem opcodeReads_getW {op : BitVec 8} {mk : WForm → Instr} {bad : W64 → Prop} (hrow : ∀ w, ofOp op.toNat w = some (mk (getW w)))
    (hbad : ∀ w, bad w → legal (mk (getW w)) = false) : OpcodeReads op mk bad :=
  opcodeReads_of getW (fun w _ h => (Option.some.inj ((hrow w).symm.trans h)).symm) hbad

theorem opcodeReads_getI {op : BitVec 8} {mk : IForm → Instr} {bad : W64 → Prop} (hrow : ∀ w, ofOp op.toNat w = some (mk (getI w)))
    (hbad : ∀ w, bad w → legal (mk (getI w)) = false) : OpcodeReads op mk bad :=
  opcodeReads_of getI (fun w _ h => (Option.some.inj ((hrow w).symm.trans h)).symm) hbad

/-- A V form reads as its instruction where it reads as one at all. -/
theorem opcodeReads_getV {op : BitVec 8} {mk : VForm → Instr} (hrow : ∀ w, ofOp op.toNat w = lastBit w (mk (getV w))) :
    OpcodeReads op mk (fun _ => False) := by
  refine opcodeReads_of getV (fun w i h => ?_) (fun _ h => h.elim)
  rw [hrow, lastBit] at h
  split at h
  · cases h
  · exact (Option.some.inj h).symm

/-- A field within a field. -/
theorem extractLsb'_fld (w : W64) {lo n start len : Nat} (h : start + len ≤ n) :
    (fld w lo n).extractLsb' start len = w.extractLsb' (lo + start) len := by
  refine BitVec.eq_of_getLsbD_eq fun i hi => ?_
  have hin : start + i < n := by omega
  simp [fld, hi, hin, Nat.add_assoc]

/-- The type, variant and SAT of a W-form word, at their places in the word (R170). -/
theorem ty_getW (w : W64) : (getW w).ty = (w.extractLsb' 6 4).toNat := congrArg BitVec.toNat (extractLsb'_fld w (by decide))
theorem var_getW (w : W64) : (getW w).var = (w.extractLsb' 2 4).toNat := congrArg BitVec.toNat (extractLsb'_fld w (by decide))
theorem fn_getW_getLsbD (w : W64) {i : Nat} (h : i < 10) : (getW w).fn.getLsbD i = w.getLsbD i := by
  simp [getW, fld, h]
theorem sat_getW (w : W64) : (getW w).sat = w.getLsbD 1 := fn_getW_getLsbD w (by decide)

/-! ### Elements (R190) -/

theorem elemW_pos (ty : Nat) : 0 < elemW ty := by
  unfold elemW; split <;> decide

theorem elemBits_lt (w : Nat) (v : W64) (e : Nat) : elemBits w v e < 2 ^ w := Nat.mod_lt _ (Nat.two_pow_pos w)

theorem ofNat_elemBits_zero (w : Nat) (v : W64) : BitVec.ofNat w (elemBits w v 0) = v.setWidth w :=
  BitVec.eq_of_toNat_eq (by simp [elemBits])

theorem asInt_emod (signed : Bool) (w b : Nat) : asInt signed w b % ((2 ^ w : Nat) : Int) = (b : Int) % ((2 ^ w : Nat) : Int) := by
  unfold asInt
  split <;> simp

/-- Read as signed, a number is the value of its bit vector. -/
theorem asInt_true_toNat {w : Nat} (x : BitVec w) : asInt true w x.toNat = x.toInt := by
  rw [BitVec.toInt_eq_msb_cond, BitVec.msb_eq_decide, asInt, Bool.true_and]

theorem ofInt_asInt (signed : Bool) (w b : Nat) : BitVec.ofInt w (asInt signed w b) = BitVec.ofNat w b := by
  apply BitVec.eq_of_toNat_eq
  rw [BitVec.toNat_ofInt, asInt_emod, ← Int.natCast_emod, Int.toNat_natCast, BitVec.toNat_ofNat]

theorem ofInt_elemVal (signed : Bool) (w : Nat) (v : W64) : BitVec.ofInt w (elemVal signed w v 0) = v.setWidth w := by
  rw [elemVal, ofInt_asInt, ofNat_elemBits_zero]

/-- The packing of `packElems` for several elements: a number in base 2^w, the first digit lowest. -/
def packDigits (w : Nat) (xs : List Int) : Nat :=
  xs.foldr (fun x acc => acc * 2 ^ w + (x % ((2 ^ w : Nat) : Int)).toNat) 0

theorem packDigits_cons (w : Nat) (x : Int) (xs : List Int) :
    packDigits w (x :: xs) = packDigits w xs * 2 ^ w + (x % ((2 ^ w : Nat) : Int)).toNat := rfl

theorem toNat_emod_lt (w : Nat) (x : Int) : (x % ((2 ^ w : Nat) : Int)).toNat < 2 ^ w := by
  have hpos : (0 : Int) < ((2 ^ w : Nat) : Int) := by exact_mod_cast Nat.two_pow_pos w
  have := Int.emod_lt_of_pos x hpos
  have := Int.emod_nonneg x (Int.ne_of_gt hpos)
  omega

theorem natCast_toNat_emod (w : Nat) (x : Int) : ((x % ((2 ^ w : Nat) : Int)).toNat : Int) = x % ((2 ^ w : Nat) : Int) :=
  Int.toNat_of_nonneg (Int.emod_nonneg x (by exact_mod_cast Nat.ne_of_gt (Nat.two_pow_pos w)))

theorem packDigits_lt (w : Nat) (xs : List Int) : packDigits w xs < 2 ^ (w * xs.length) := by
  induction xs with
  | nil => exact Nat.one_pos
  | cons x xs ih =>
    have hx := toNat_emod_lt w x
    calc packDigits w (x :: xs) < (packDigits w xs + 1) * 2 ^ w := by
          rw [packDigits_cons, Nat.add_mul, Nat.one_mul]
          exact Nat.add_lt_add_left hx _
      _ ≤ 2 ^ (w * xs.length) * 2 ^ w := Nat.mul_le_mul_right _ ih
      _ = 2 ^ (w * (x :: xs).length) := by rw [← Nat.pow_add]; rfl

/-- Digit `e` of the packing is element `e` mod 2^w. -/
theorem packDigits_digit (w : Nat) : ∀ (xs : List Int) (e : Nat) (he : e < xs.length),
    packDigits w xs / 2 ^ (w * e) % 2 ^ w = (xs[e] % ((2 ^ w : Nat) : Int)).toNat := by
  intro xs
  induction xs with
  | nil => intro e he; cases he
  | cons x xs ih =>
    intro e he
    have hx := toNat_emod_lt w x
    rw [packDigits_cons, Nat.add_comm]
    cases e with
    | zero => simpa using Nat.mod_eq_of_lt hx
    | succ e =>
      rw [Nat.mul_succ, Nat.add_comm (w * e), Nat.pow_add, ← Nat.div_div_eq_div_mul, Nat.add_mul_div_right _ _ (Nat.two_pow_pos w),
        Nat.div_eq_of_lt hx, Nat.zero_add]
      exact ih e (Nat.lt_of_succ_lt_succ he)

/-- An element more stands above the others. -/
theorem packDigits_append_singleton (w : Nat) (xs : List Int) (x : Int) :
    packDigits w (xs ++ [x]) = packDigits w xs + (x % ((2 ^ w : Nat) : Int)).toNat * 2 ^ (w * xs.length) := by
  induction xs with
  | nil => simp [packDigits]
  | cons y ys ih =>
    rw [List.cons_append, packDigits_cons, packDigits_cons, ih, List.length_cons, Nat.mul_succ, Nat.pow_add, Nat.add_mul,
      Nat.mul_assoc, Nat.add_right_comm]

theorem elemW_le (ty : Nat) : elemW ty ≤ 64 := by
  unfold elemW; split <;> decide

theorem elemN_pos (ty : Nat) : 0 < elemN ty := by
  unfold elemN; split
  · decide
  · split <;> decide

/-- The elements of a type fit in 64 bits. -/
theorem elemW_mul_elemN_le (ty : Nat) : elemW ty * elemN ty ≤ 64 := by
  by_cases h7 : ty = 7
  · subst h7; decide
  by_cases h6 : ty = 6 ∨ ty = 4 ∨ ty = 5
  · obtain rfl | rfl | rfl := h6 <;> decide
  · simpa [elemN, h7, h6] using elemW_le ty

theorem packElems_many {ty : Nat} {xs : List Int} (hn : 1 < elemN ty) : packElems ty xs = BitVec.ofNat 64 (packDigits (elemW ty) xs) := by
  simp only [packElems, if_pos hn]
  rfl

theorem packElems_one {ty : Nat} (x : Int) (hn : ¬1 < elemN ty) : packElems ty [x] =
    BitVec.ofInt 64 (if elemW ty < 32 then asInt (ty % 2 == 0) (elemW ty) (x % ((2 ^ elemW ty : Nat) : Int)).toNat
      else x % ((2 ^ elemW ty : Nat) : Int)) := by
  simp only [packElems, if_neg hn, List.headD_cons]
  split
  · rfl
  · rw [← natCast_toNat_emod (elemW ty) x, BitVec.ofInt_natCast, Int.toNat_natCast]

/-- The low `w` bits of a number of 64 bits. -/
theorem element_ofInt {w : Nat} (hw : w ≤ 64) (x : Int) : element w (BitVec.ofInt 64 x) 0 x := by
  have hdvd : ((2 ^ w : Nat) : Int) ∣ ((2 ^ 64 : Nat) : Int) := by exact_mod_cast Nat.pow_dvd_pow 2 hw
  rw [element, elemBits, Nat.mul_zero, Nat.pow_zero, Nat.div_one, BitVec.toNat_ofInt, Int.natCast_emod, natCast_toNat_emod,
    Int.emod_emod_of_dvd x hdvd]

theorem element_congr {w : Nat} {v : W64} {e : Nat} {x y : Int} (h : x % ((2 ^ w : Nat) : Int) = y % ((2 ^ w : Nat) : Int)) :
    element w v e x ↔ element w v e y := by rw [element, element, h]

/-- Element `e` of a packed value is the number that was packed there, mod 2^w (R51, R190). -/
theorem element_packElems (ty : Nat) (xs : List Int) (hlen : xs.length = elemN ty) (e : Nat) (he : e < xs.length) :
    element (elemW ty) (packElems ty xs) e xs[e] := by
  by_cases hn : 1 < elemN ty
  · have hlt : packDigits (elemW ty) xs < 2 ^ 64 :=
      Nat.lt_of_lt_of_le (packDigits_lt (elemW ty) xs) (Nat.pow_le_pow_right (by decide) (hlen ▸ elemW_mul_elemN_le ty))
    rw [packElems_many hn, element, elemBits, BitVec.toNat_ofNat, Nat.mod_eq_of_lt hlt, packDigits_digit _ _ _ he, natCast_toNat_emod]
  · obtain ⟨x, rfl⟩ := List.length_eq_one_iff.1 (show xs.length = 1 by have := elemN_pos ty; omega)
    obtain rfl : e = 0 := by simpa using he
    have hmod : (if elemW ty < 32 then asInt (ty % 2 == 0) (elemW ty) (x % ((2 ^ elemW ty : Nat) : Int)).toNat
        else x % ((2 ^ elemW ty : Nat) : Int)) % ((2 ^ elemW ty : Nat) : Int) = x % ((2 ^ elemW ty : Nat) : Int) := by
      split
      · rw [asInt_emod, natCast_toNat_emod, Int.emod_emod_of_dvd x (Int.dvd_refl _)]
      · rw [Int.emod_emod_of_dvd x (Int.dvd_refl _)]
    rw [packElems_one x hn, List.getElem_singleton, ← element_congr hmod]
    exact element_ofInt (elemW_le ty) _

/-- The one element of a scalar. -/
theorem element_packElems_scalar {ty : Nat} (hn : elemN ty = 1) (x : Int) : element (elemW ty) (packElems ty [x]) 0 x :=
  element_packElems ty [x] hn.symm 0 Nat.one_pos

/-- A packed scalar as a bit vector of its width. -/
theorem packElems_setWidth {ty : Nat} (hn : elemN ty = 1) (x : Int) :
    (packElems ty [x]).setWidth (elemW ty) = BitVec.ofInt (elemW ty) x := by
  rw [← ofNat_elemBits_zero, ← BitVec.ofInt_natCast, element_packElems_scalar hn x]
  exact BitVec.eq_of_toNat_eq (by rw [BitVec.toNat_ofInt, BitVec.toNat_ofInt, Int.emod_emod_of_dvd x (Int.dvd_refl _)])

end Sys2Proof.Machine
end

section
/-! Scalar integer arithmetic (O2): ADD, SUB and MUL wrap, DIV and REM, the multiply-adds, the carries and SAD. The model computes on integers
and cuts the result to the width; the lemmas carry each through to bit vectors. -/

namespace Sys2Proof.Machine
open Sys2Proof Sys2Proof.Claims

/-! ### ADD, SUB and MUL on full-width scalars (R190 to R192) -/

/-- An element operation on integers is, mod 2^w, an operation on words of `w` bits. -/
def WrapsTo (op : Int → Int → Int) (wrapped : (w : Nat) → BitVec w → BitVec w → BitVec w) : Prop :=
  ∀ w x y, BitVec.ofInt w (op x y) = wrapped w (BitVec.ofInt w x) (BitVec.ofInt w y)

theorem wrapsTo_add : WrapsTo (fun x y => x + y) (fun _ a b => a + b) := fun _ x y => BitVec.ofInt_add x y
theorem wrapsTo_mul : WrapsTo (fun x y => x * y) (fun _ a b => a * b) := fun _ x y => BitVec.ofInt_mul x y
theorem wrapsTo_sub : WrapsTo (fun x y => x - y) (fun _ a b => a - b) := fun w x y => by
  change BitVec.ofInt w (x - y) = BitVec.ofInt w x - BitVec.ofInt w y
  rw [Int.sub_eq_add_neg, BitVec.ofInt_add, BitVec.ofInt_neg, ← BitVec.sub_eq_add_neg]

/-- On one element without SAT, `intOp` packs the operation's result. -/
theorem satElems_elemMap_scalar {ty : Nat} (hn : elemN ty = 1) (var : Nat) (op : Int → Int → Int) (a b : W64) :
    satElems ty var false (elemMap ty var op a b) =
      ([op (elemVal (elemSigned ty var) (elemW ty) a 0) (elemVal (elemSigned ty var) (elemW ty) b 0)], false) := by
  simp [satElems, elemMap, hn]

theorem scalar32 {ty : Nat} (h : ty = 0 ∨ ty = 1) : elemN ty = 1 ∧ elemW ty = 32 ∧ is64 ty = false := by
  obtain rfl | rfl := h <;> exact ⟨rfl, rfl, rfl⟩
theorem scalar64 {ty : Nat} (h : ty = 8 ∨ ty = 9) : elemN ty = 1 ∧ elemW ty = 64 ∧ is64 ty = true := by
  obtain rfl | rfl := h <;> exact ⟨rfl, rfl, rfl⟩

/-- A register result raises no SATC. -/
theorem withoutSatc_ofTy (d : BitVec 7) (ty : Nat) (v : W64) : { Res.ofTy d ty v with satc := false } = Res.ofTy d ty v := by
  unfold Res.ofTy Res.pair Res.one
  split
  · split <;> rfl
  · rfl

section
variable {i : Instr} {f : WForm} {s : State} {t : Nat} {op : Int → Int → Int} {wrapped : (w : Nat) → BitVec w → BitVec w → BitVec w}

/-- An integer instruction on one element, without SAT. -/
theorem exec_intOp_scalar (hr : Runs i (specW f f.ty) s t) (he : exec i s = intOp f op s) (hn : elemN f.ty = 1) (hsat : f.sat = false) :
    exec i s = .next (s.gives t (Res.ofTy f.d f.ty (packElems f.ty [op
      (elemVal (elemSigned f.ty f.var) (elemW f.ty) (((specW f f.ty).opnd s t 0).ofTy f.ty) 0)
      (elemVal (elemSigned f.ty f.var) (elemW f.ty) (((specW f f.ty).opnd s t 1).ofTy f.ty) 0)]))) := by
  rw [he, intOp]
  refine alu_gives hr ?_
  simp only [hsat, satElems_elemMap_scalar hn, OpSpec.exec1_op]
  exact withoutSatc_ofTy _ _ _

theorem exec_intOp_32 (hop : WrapsTo op wrapped) (hty : f.ty = 0 ∨ f.ty = 1) (hsat : f.sat = false) (he : exec i s = intOp f op s)
    (hr : Runs i (specW f f.ty) s t) : exec i s = .next (s.gives t (Res.one f.d.toNat
      (wrapped 32 ((specW f f.ty).opnd s t 0).lo ((specW f f.ty).opnd s t 1).lo) f.ty)) := by
  obtain ⟨hn, hw, h64⟩ := scalar32 hty
  have hpack := packElems_setWidth hn
  rw [hw] at hpack
  rw [exec_intOp_scalar hr he hn hsat]
  simp [Res.ofTy, Opnd.ofTy, h64, hw, hpack, hop _ _ _, ofInt_elemVal]

theorem exec_intOp_64 (hop : WrapsTo op wrapped) (hty : f.ty = 8 ∨ f.ty = 9) (hsat : f.sat = false) (he : exec i s = intOp f op s)
    (hr : Runs i (specW f f.ty) s t) : exec i s = .next (s.gives t (Res.pair f.d.toNat
      (wrapped 64 ((specW f f.ty).opnd s t 0).x ((specW f f.ty).opnd s t 1).x) f.ty)) := by
  obtain ⟨hn, hw, h64⟩ := scalar64 hty
  have hpack := packElems_setWidth hn
  rw [hw] at hpack
  simp only [BitVec.setWidth_eq] at hpack
  rw [exec_intOp_scalar hr he hn hsat]
  simp [Res.ofTy, Opnd.ofTy, h64, hw, hpack, hop _ _ _, ofInt_elemVal]

end

/-- MUL without a variant is the low half of the product (R192). -/
theorem exec_mul_low {f : WForm} (hvar : f.var = 0) (s : State) : exec (.mul f) s = intOp f (fun x y => x * y) s := by
  simp [exec_mul, execMul, hvar]

theorem scalarArithmeticWraps : ScalarArithmeticWraps := fun f s t => by
  constructor <;> intro hty hsat hvar
  · have hadd := exec_intOp_32 (t := t) wrapsTo_add hty hsat (exec_add f s)
    have hsub := exec_intOp_32 (t := t) wrapsTo_sub hty hsat (exec_sub f s)
    have hmul := exec_intOp_32 (t := t) wrapsTo_mul hty hsat (exec_mul_low hvar s)
    exact ⟨hadd, hsub, hmul⟩
  · have hadd := exec_intOp_64 (t := t) wrapsTo_add hty hsat (exec_add f s)
    have hsub := exec_intOp_64 (t := t) wrapsTo_sub hty hsat (exec_sub f s)
    have hmul := exec_intOp_64 (t := t) wrapsTo_mul hty hsat (exec_mul_low hvar s)
    exact ⟨hadd, hsub, hmul⟩

/-! ### DIV and REM (R194) -/

theorem divOk_types {isDiv : Bool} {f : WForm} (h : divOk isDiv f = true) : f.ty = 0 ∨ f.ty = 1 ∨ f.ty = 8 ∨ f.ty = 9 := by
  simp only [divOk, Bool.and_eq_true, List.contains_eq_mem, List.mem_cons, List.not_mem_nil, or_false, decide_eq_true_eq] at h
  obtain ⟨⟨⟨⟨-, hty⟩, -⟩, -⟩, -⟩ := h
  exact hty

/-- The signed types among those of DIV are i32 and i64. -/
theorem divTy_signed {ty : Nat} (h : ty = 0 ∨ ty = 1 ∨ ty = 8 ∨ ty = 9) : (ty % 2 == 0) = true ↔ ty = 0 ∨ ty = 8 := by
  rw [beq_iff_eq]; omega

theorem elemN_divTy {ty : Nat} (h : ty = 0 ∨ ty = 1 ∨ ty = 8 ∨ ty = 9) : elemN ty = 1 := by
  obtain rfl | rfl | rfl | rfl := h <;> rfl

/-- The quotient that the model takes is, mod 2^w, the one of R194, and SATC is raised in the one case that SAT changes. -/
theorem divide_quotient {ty : Nat} (hty : ty = 0 ∨ ty = 1 ∨ ty = 8 ∨ ty = 9) (sat : Bool) (w : Nat) (x y : Int) :
    (divide (ty % 2 == 0) sat w x y).1 % ((2 ^ w : Nat) : Int) =
        (if y = 0 then -1
          else if (ty = 0 ∨ ty = 8) ∧ x = -((2 ^ (w - 1) : Nat) : Int) ∧ y = -1 then
            (if sat = true then - -((2 ^ (w - 1) : Nat) : Int) - 1 else -((2 ^ (w - 1) : Nat) : Int))
          else x.tdiv y) % ((2 ^ w : Nat) : Int) ∧
      (divide (ty % 2 == 0) sat w x y).2.2 =
        (decide (y ≠ 0 ∧ (ty = 0 ∨ ty = 8) ∧ x = -((2 ^ (w - 1) : Nat) : Int) ∧ y = -1) && sat) := by
  simp only [divide, divTy_signed hty, intMin, intMax, if_true]
  by_cases hy : y = 0
  · simp only [hy, if_true, ne_eq, not_true_eq_false, false_and, decide_false, Bool.false_and, and_true]
    split <;> simp
  · by_cases hover : (ty = 0 ∨ ty = 8) ∧ x = -((2 ^ (w - 1) : Nat) : Int) ∧ y = -1
    · simp [hover]
    · simp only [hy, hover, if_false, ne_eq, and_false, decide_false, Bool.false_and, and_self]

theorem divide_remainder {ty : Nat} (hty : ty = 0 ∨ ty = 1 ∨ ty = 8 ∨ ty = 9) (sat : Bool) (w : Nat) (x y : Int) :
    (divide (ty % 2 == 0) sat w x y).2.1 = if y = 0 then x
      else if (ty = 0 ∨ ty = 8) ∧ x = -((2 ^ (w - 1) : Nat) : Int) ∧ y = -1 then 0 else x - x.tdiv y * y := by
  simp only [divide, divTy_signed hty, intMin, if_true]
  split
  · rfl
  · split <;> rfl

/-- Operand `i` of DIV and REM as a number (R190). -/
def divOpnd (f : WForm) (s : State) (t i : Nat) : Int :=
  elemVal (f.ty % 2 == 0) (elemW f.ty) (((specW f f.ty).opnd s t i).ofTy f.ty) 0

theorem divRemResults : DivRemResults := fun f s t => by
  constructor <;> intro hr
  · have hty := divOk_types (isDiv := true) hr.1
    obtain ⟨hq, hsat⟩ := divide_quotient hty f.sat (elemW f.ty) (divOpnd f s t 0) (divOpnd f s t 1)
    refine ⟨_, ?_, (element_congr hq).1 (element_packElems_scalar (elemN_divTy hty) _)⟩
    rw [exec_div, execDiv]
    exact alu_gives hr (congrArg (fun b => { Res.ofTy f.d f.ty _ with satc := b }) hsat)
  · have hty := divOk_types (isDiv := false) hr.1
    have hm := divide_remainder hty false (elemW f.ty) (divOpnd f s t 0) (divOpnd f s t 1)
    refine ⟨_, ?_, (element_congr (congrArg (· % _) hm)).1 (element_packElems_scalar (elemN_divTy hty) _)⟩
    rw [exec_rem, execRem]
    exact alu_gives hr rfl

/-! ### The multiply-adds, the immediates, the carries and SAD (R193, R196 to R198) -/

/-- The upper half of a product of 64 bits (R193). -/
theorem ofInt_div_two_pow_32 (x : Int) : BitVec.ofInt 32 (x / 4294967296) = (BitVec.ofInt 64 x).extractLsb' 32 32 := by
  apply BitVec.eq_of_toNat_eq
  rw [BitVec.extractLsb'_toNat, BitVec.toNat_ofInt, BitVec.toNat_ofInt, Nat.shiftRight_eq_div_pow]
  omega

/-- MADHI.i: the upper half of the signed product, plus C (R193). -/
theorem madhi_signed (a b c : W32) : BitVec.ofInt 32 (a.toInt * b.toInt / 4294967296 + c.toInt) =
    (a.signExtend 64 * b.signExtend 64).extractLsb' 32 32 + c := by
  rw [BitVec.ofInt_add, BitVec.ofInt_toInt, ofInt_div_two_pow_32, BitVec.ofInt_mul]
  rfl

/-- MADHI.n: the upper half of the unsigned product, plus C (R193). -/
theorem madhi_unsigned (a b c : W32) : BitVec.ofNat 32 (a.toNat * b.toNat / 4294967296 + c.toNat) =
    (a.setWidth 64 * b.setWidth 64).extractLsb' 32 32 + c := by
  have hprod : BitVec.ofInt 64 ((a.toNat * b.toNat : Nat) : Int) = a.setWidth 64 * b.setWidth 64 := by
    rw [BitVec.ofInt_natCast, BitVec.ofNat_mul, BitVec.ofNat_toNat, BitVec.ofNat_toNat]
  rw [← hprod, ← ofInt_div_two_pow_32, BitVec.ofNat_add, BitVec.ofNat_toNat, BitVec.setWidth_eq, ← BitVec.ofInt_natCast]
  rfl

/-- What ADDC and SUBB leave: a value, and the carry in the predicate that FN names (R197). -/
def carryRes (f : WForm) (r : W32 × Bool) : Res := { Res.one f.d.toNat r.1 f.ty with preds := [(WForm.carry f, r.2)] }

/-- SUBB on words: the difference cut to 32 bits, and a borrow where B with the carry exceeds A (R197). -/
theorem subb_result (a b : W32) (carry : Bool) :
    (BitVec.ofInt 32 ((a.toNat : Int) - b.toNat - (if carry = true then 1 else 0)),
        decide ((a.toNat : Int) - b.toNat - (if carry = true then 1 else 0) < 0)) =
      (a - b - BitVec.ofNat 32 (if carry = true then 1 else 0), decide (a.toNat < b.toNat + (if carry = true then 1 else 0))) := by
  have hbit : (if carry = true then (1 : Int) else 0) = ((if carry = true then 1 else 0 : Nat) : Int) := by cases carry <;> rfl
  have hdiff (cin : Nat) : BitVec.ofInt 32 ((a.toNat : Int) - b.toNat - cin) = a - b - BitVec.ofNat 32 cin := by
    apply BitVec.eq_of_toNat_eq
    rw [BitVec.toNat_ofInt, BitVec.toNat_sub, BitVec.toNat_sub, BitVec.toNat_ofNat]
    omega
  rw [hbit, hdiff]
  exact congrArg _ (decide_eq_decide.2 (by omega))

/-- The distance of two bytes (R198). -/
def byteDist (a b : W32) (k : Nat) : Nat :=
  ((a.extractLsb' (8 * k) 8).toNat - (b.extractLsb' (8 * k) 8).toNat) + ((b.extractLsb' (8 * k) 8).toNat - (a.extractLsb' (8 * k) 8).toNat)

theorem byteN_eq (v : W32) (k : Nat) : byteN v k = (v.extractLsb' (8 * k) 8).toNat := by
  rw [BitVec.extractLsb'_toNat, Nat.shiftRight_eq_div_pow, Nat.pow_mul]
  rfl

theorem natAbs_byteN (a b : W32) (k : Nat) : ((byteN a k : Int) - (byteN b k : Int)).natAbs = byteDist a b k := by
  rw [byteN_eq, byteN_eq, byteDist]
  omega

theorem sad_sum (a b c : W32) :
    c + BitVec.ofNat 32 ((List.range 4).foldl (fun acc k => acc + ((byteN a k : Int) - (byteN b k : Int)).natAbs) 0) =
      c + BitVec.ofNat 32 (byteDist a b 0) + BitVec.ofNat 32 (byteDist a b 1) + BitVec.ofNat 32 (byteDist a b 2) +
        BitVec.ofNat 32 (byteDist a b 3) := by
  simp only [natAbs_byteN, List.range_succ, List.range_zero, List.nil_append, List.cons_append, List.foldl_cons, List.foldl_nil,
    Nat.zero_add, BitVec.ofNat_add, BitVec.add_assoc]

theorem multiplyAddCarryResults : MultiplyAddCarryResults := by
  refine ⟨fun f s t => ⟨fun hr => ?_, fun hr => ?_, fun hr => ?_, fun hr => ?_⟩, fun f s t => ⟨fun hr => ?_, fun hr => ?_⟩,
    fun f s t => ⟨fun hr => ?_, fun hr => ?_⟩⟩
  · exact (exec_mad f s).trans (alu_gives hr rfl)
  · exact (exec_madhiI f s).trans (alu_gives hr (congrArg (Res.one f.d.toNat · 0) (madhi_signed _ _ _)))
  · exact (exec_madhiN f s).trans (alu_gives hr (congrArg (Res.one f.d.toNat · 1) (madhi_unsigned _ _ _)))
  · exact (exec_sad f s).trans (alu_gives hr (congrArg (Res.one f.d.toNat · 1) (sad_sum _ _ _)))
  · exact (exec_addi f s).trans (alu_gives hr rfl)
  · exact (exec_muli f s).trans (alu_gives hr rfl)
  · refine (exec_addc f s).trans (alu_gives hr ?_)
    simp only [OpSpec.exec1_op, Thread.commit_pred, BitVec.ofNat_add, BitVec.ofNat_toNat, BitVec.setWidth_eq]
    rfl
  · exact (exec_subb f s).trans (alu_gives hr (congrArg (carryRes f) (subb_result _ _ _)))

/-! ### The words (R193, R197, R198) -/

/-- A type, variant bit or SAT that ADDC and SUBB do not take (R197). -/
theorem carryOk_eq_false {w : W64} (h : (w.extractLsb' 6 4 ≠ 0 ∧ w.extractLsb' 6 4 ≠ 1) ∨ w.getLsbD 2 = true ∨ w.getLsbD 1 = true) :
    carryOk (getW w) = false := by
  rw [← Bool.not_eq_true]
  intro hok
  simp only [carryOk, Bool.and_eq_true, Bool.or_eq_true, beq_iff_eq, Bool.not_eq_true', ty_getW, sat_getW,
    fn_getW_getLsbD w (show 2 < 10 by decide)] at hok
  obtain ⟨⟨⟨-, hty⟩, h2⟩, h1⟩ := hok
  rcases h with ⟨h0, h1⟩ | h | h
  · exact hty.elim (fun e => h0 (BitVec.eq_of_toNat_eq e)) (fun e => h1 (BitVec.eq_of_toNat_eq e))
  · exact absurd (h.symm.trans h2) (by decide)
  · exact absurd (h.symm.trans h1) (by decide)

/-- p0 reads as true and discards a write (R41). -/
theorem pred_zero (th : Thread) (b : Bool) : th.pred 0 = true ∧ th.setPred 0 b = th := ⟨rfl, rfl⟩

theorem carryAndMadWords : CarryAndMadWords :=
  ⟨opcodeReads_getV fun _ => rfl, opcodeReads_getV fun _ => rfl, opcodeReads_getV fun _ => rfl, opcodeReads_getV fun _ => rfl,
    ⟨opcodeReads_getW (fun _ => rfl) fun _ => carryOk_eq_false, opcodeReads_getW (fun _ => rfl) fun _ => carryOk_eq_false⟩, pred_zero⟩

/-- Settles O2: each result of the model, computed on integers, is the stated one mod 2^32 or 2^64. -/
theorem scalarIntegerResults : Obligations.ScalarIntegerResults :=
  ⟨scalarArithmeticWraps, divRemResults, multiplyAddCarryResults, carryAndMadWords⟩

end Sys2Proof.Machine
end

section
/-! Logic and shifts (O3): the bitwise instructions on operands of either width, the shifts of numbers as shifts of words, and the words that are
refused. -/

namespace Sys2Proof.Machine
open Sys2Proof Sys2Proof.Claims

/-! ### The bitwise instructions (R199) -/

/-- AND, OR, XOR and ANDN take b32 and n64. -/
theorem bitOk_parts (f : WForm) (h : bitOk f = true) : f.ty ∈ [2, 9] ∧ f.var = 0 ∧ f.sat = false := by
  simp only [bitOk, Bool.and_eq_true, Bool.or_eq_true, beq_iff_eq, Bool.not_eq_true'] at h
  obtain ⟨⟨⟨⟨-, hty⟩, hvar⟩, hsat⟩, -⟩ := h
  exact ⟨by simpa using hty, hvar, hsat⟩

/-- A bitwise instruction, on words of the operands' width: what it does to the low 32 bits of 64 it does to 32. -/
theorem exec_bitOp (op : (w : Nat) → BitVec w → BitVec w → BitVec w)
    (hop : ∀ a b : W32, (op 64 (a.setWidth 64) (b.setWidth 64)).setWidth 32 = op 32 a b) {i : Instr} {f : WForm} {s : State} {t : Nat}
    (hok : bitOk f = true) (he : exec i s = bitOp f (op 64) s) (hr : Runs i (bitSpec f) s t) :
    exec i s = .next (s.gives t
      (if f.ty = 9 then Res.pair f.d.toNat (op 64 ((bitSpec f).opnd s t 0).x ((bitSpec f).opnd s t 1).x) 2
        else Res.one f.d.toNat (op 32 ((bitSpec f).opnd s t 0).lo ((bitSpec f).opnd s t 1).lo) 2)) := by
  rw [he, bitOp]
  refine alu_gives hr ?_
  obtain ⟨hty, -, -⟩ := bitOk_parts f hok
  obtain hty | hty : f.ty = 2 ∨ f.ty = 9 := by simpa using hty
  · simp [hty, is64, Opnd.ofTy, hop]
  · simp [hty, is64, Opnd.ofTy]

/-- A bitwise instruction with an immediate. -/
theorem exec_bitImm (op : W32 → W32 → W32) {i : Instr} {f : IForm} {s : State} {t : Nat} (he : exec i s = bitImm f op s)
    (hr : Runs i (specI f none) s t) :
    exec i s = .next (s.gives t (Res.one f.d.toNat (op ((specI f none).opnd s t 0).lo (f.imm.signExtend 32)) 2)) := by
  rw [he, bitImm]
  exact alu_gives hr rfl

theorem bitwiseResults : BitwiseResults := by
  refine ⟨fun f s t => ⟨fun hr => ?_, fun hr => ?_, fun hr => ?_, fun hr => ?_⟩, fun f s t => ⟨fun hr => ?_, fun hr => ?_, fun hr => ?_⟩⟩
  · exact exec_bitOp (fun _ a b => a &&& b) (by simp) hr.1 (exec_and f s) hr
  · exact exec_bitOp (fun _ a b => a ||| b) (by simp) hr.1 (exec_or f s) hr
  · exact exec_bitOp (fun _ a b => a ^^^ b) (by simp) hr.1 (exec_xor f s) hr
  · exact exec_bitOp (fun _ a b => a &&& ~~~b) (by simp) hr.1 (exec_andn f s) hr
  · exact exec_bitImm (fun a b => a &&& b) (exec_andi f s) hr
  · exact exec_bitImm (fun a b => a ||| b) (exec_ori f s) hr
  · exact exec_bitImm (fun a b => a ^^^ b) (exec_xori f s) hr

/-! ### Shifts (R200 to R202) -/

/-- The shifts of a word: SHL, SHR, SAR, ROTL by their number in SHI (R200, R201). -/
def shiftWord {w : Nat} (kind : Nat) (x : BitVec w) (k : Nat) : BitVec w :=
  match kind with
  | 0 => x <<< k
  | 1 => x >>> k
  | 2 => x.sshiftRight k
  | _ => x.rotateLeft k

/-- ROTL: the two parts of the rotated word do not overlap, so that their sum is their union. -/
theorem rotate_toNat {w k : Nat} (hk : k < w) (x : BitVec w) : (x.toNat * 2 ^ k + x.toNat / 2 ^ (w - k)) % 2 ^ w = (x.rotateLeft k).toNat := by
  have hw : 2 ^ w = 2 ^ (w - k) * 2 ^ k := by rw [← Nat.pow_add, Nat.sub_add_cancel (Nat.le_of_lt hk)]
  have hhigh : x.toNat / 2 ^ (w - k) < 2 ^ k := Nat.div_lt_of_lt_mul (hw ▸ x.isLt)
  have hhigh' : x.toNat / 2 ^ (w - k) < 2 ^ w := Nat.lt_of_lt_of_le hhigh (Nat.pow_le_pow_right (by decide) (Nat.le_of_lt hk))
  have hlow : x.toNat * 2 ^ k % 2 ^ w = 2 ^ k * (x.toNat % 2 ^ (w - k)) := by rw [hw, Nat.mul_mod_mul_right, Nat.mul_comm]
  have hsum : 2 ^ k * (x.toNat % 2 ^ (w - k)) + x.toNat / 2 ^ (w - k) < 2 ^ w := by
    have := Nat.mod_lt x.toNat (Nat.two_pow_pos (w - k))
    calc _ < 2 ^ k * (x.toNat % 2 ^ (w - k)) + 2 ^ k := by omega
      _ = 2 ^ k * (x.toNat % 2 ^ (w - k) + 1) := by rw [Nat.mul_succ]
      _ ≤ 2 ^ k * 2 ^ (w - k) := Nat.mul_le_mul_left _ this
      _ = 2 ^ w := by rw [hw, Nat.mul_comm]
  rw [BitVec.toNat_rotateLeft, Nat.mod_eq_of_lt hk, Nat.shiftLeft_eq, Nat.shiftRight_eq_div_pow, hlow,
    ← Nat.two_pow_add_eq_or_of_lt hhigh, Nat.add_mod, hlow, Nat.mod_eq_of_lt hhigh', Nat.mod_eq_of_lt hsum]

/-- The model's shift of a number of `w` bits is the shift of the word. -/
theorem shiftBits_eq {w k : Nat} (hk : k < w) (kind : Nat) (x : BitVec w) : shiftBits kind w x.toNat k = (shiftWord kind x k).toNat := by
  match kind with
  | 0 => simp [shiftBits, shiftWord, Nat.shiftLeft_eq]
  | 1 => simp [shiftBits, shiftWord, Nat.shiftRight_eq_div_pow]
  | 2 =>
    have hdiv : x.toInt / ((2 ^ k : Nat) : Int) = (x.sshiftRight k).toInt := by rw [BitVec.toInt_sshiftRight, Int.shiftRight_eq_div_pow]
    rw [shiftBits, asInt_true_toNat, hdiv, ← BitVec.toNat_ofInt, BitVec.ofInt_toInt]
    rfl
  | _ + 3 => exact rotate_toNat hk x

/-- The operands of a shift by a register amount: B is one register of any type (R200). -/
def shiftSpec (f : WForm) : OpSpec := specW2 f (nregs f.ty) (chk f.ty) 1 none (nregs f.ty)

/-- Element `e` of A, shifted by the amount in B mod w. -/
def shiftedElem (f : WForm) (kind : Nat) (s : State) (t e : Nat) : BitVec (elemW f.ty) :=
  shiftWord kind (BitVec.ofNat _ (elemBits (elemW f.ty) (((shiftSpec f).opnd s t 0).ofTy f.ty) e))
    (((shiftSpec f).opnd s t 1).lo.toNat % elemW f.ty)

theorem shiftBits_elemBits (f : WForm) (kind : Nat) (s : State) (t e : Nat) :
    shiftBits kind (elemW f.ty) (elemBits (elemW f.ty) (((shiftSpec f).opnd s t 0).ofTy f.ty) e)
      (((shiftSpec f).opnd s t 1).lo.toNat % elemW f.ty) = (shiftedElem f kind s t e).toNat := by
  have h := shiftBits_eq (Nat.mod_lt (((shiftSpec f).opnd s t 1).lo.toNat) (elemW_pos f.ty)) kind
    (BitVec.ofNat (elemW f.ty) (elemBits (elemW f.ty) (((shiftSpec f).opnd s t 0).ofTy f.ty) e))
  rwa [BitVec.toNat_ofNat, Nat.mod_eq_of_lt (elemBits_lt _ _ _)] at h

/-- A shift by a register amount shifts every element. -/
theorem exec_shiftOp {i : Instr} {f : WForm} {s : State} {t : Nat} (kind : Nat) (he : exec i s = shiftOp f kind s) (hr : Runs i (shiftSpec f) s t) :
    ∃ v : W64, exec i s = .next (s.gives t (Res.ofTy f.d f.ty v)) ∧
      ∀ e, e < elemN f.ty → elemBits (elemW f.ty) v e = (shiftedElem f kind s t e).toNat := by
  refine ⟨packElems f.ty ((List.range (elemN f.ty)).map (fun e => ((shiftedElem f kind s t e).toNat : Int))), ?_, fun e hn => ?_⟩
  · rw [he, shiftOp]
    refine alu_gives hr ?_
    simp only [← shiftBits_elemBits]
    rfl
  · have h := element_packElems f.ty ((List.range (elemN f.ty)).map (fun e => ((shiftedElem f kind s t e).toNat : Int))) (by simp) e
      (by simpa using hn)
    rw [List.getElem_map, List.getElem_range, element, ← Int.natCast_emod, Nat.mod_eq_of_lt (shiftedElem f kind s t e).isLt] at h
    exact Int.ofNat.inj h

/-- SHI: a shift of 32 bits by a number below 32 (R201). -/
theorem exec_shi_gives {f : IForm} {s : State} {t : Nat} (hr : Runs (.shi f) (specI f none) s t) : exec (.shi f) s =
    .next (s.gives t (Res.one f.d.toNat
      (shiftWord (f.imm.extractLsb' 26 2).toNat ((specI f none).opnd s t 0).lo (f.imm.extractLsb' 0 5).toNat)
      (passTag ((specI f none).opnd s t 0).tag))) := by
  refine (exec_shi f s).trans (alu_gives hr ?_)
  simp only [OpSpec.exec1_op, shiftBits_eq (w := 32) (f.imm.extractLsb' 0 5).isLt, BitVec.ofNat_toNat, BitVec.setWidth_eq]

theorem shiftResults : ShiftResults := by
  refine ⟨fun f s t => ⟨fun hr => ?_, fun hr => ?_, fun hr => ?_, fun hr => ?_⟩, fun f s t hr => ?_, fun f s t hr => ?_⟩
  · exact exec_shiftOp 0 (exec_shl f s) hr
  · exact exec_shiftOp 1 (exec_shr f s) hr
  · exact exec_shiftOp 2 (exec_sar f s) hr
  · exact exec_shiftOp 3 (exec_rotl f s) hr
  · exact exec_shi_gives hr
  · exact (exec_funnel f s).trans (alu_gives hr rfl)

/-! ### The words (R199 to R202) -/

/-- A word whose type is not listed, or with a variant or SAT (R199, R200). -/
def TypeOutside (ok : List Nat) (w : W64) : Prop :=
  (w.extractLsb' 6 4).toNat ∉ ok ∨ w.extractLsb' 2 4 ≠ 0 ∨ w.getLsbD 1 = true

/-- A check that demands a listed type, no variant and no SAT refuses such words. -/
theorem eq_false_of_typeOutside {ok : List Nat} {check : WForm → Bool}
    (hcheck : ∀ f, check f = true → f.ty ∈ ok ∧ f.var = 0 ∧ f.sat = false) (w : W64) (h : TypeOutside ok w) : check (getW w) = false := by
  rw [← Bool.not_eq_true]
  intro hok
  obtain ⟨hty, hvar, hsat⟩ := hcheck _ hok
  rw [ty_getW] at hty
  rw [var_getW] at hvar
  rw [sat_getW] at hsat
  obtain h | h | h := h
  · exact h hty
  · exact h (BitVec.eq_of_toNat_eq hvar)
  · exact absurd (h.symm.trans hsat) (by decide)

theorem shiftOk_parts (f : WForm) (h : shiftOk f = true) : f.ty ∈ [0, 1, 2, 6, 7, 8, 9] ∧ f.var = 0 ∧ f.sat = false := by
  simp only [shiftOk, Bool.and_eq_true, beq_iff_eq, Bool.not_eq_true', List.contains_eq_mem, decide_eq_true_eq] at h
  obtain ⟨⟨⟨⟨-, hty⟩, hvar⟩, hsat⟩, -⟩ := h
  refine ⟨?_, hvar, hsat⟩
  simp only [List.mem_cons, List.not_mem_nil, or_false] at hty ⊢
  omega

/-- SHI has no immediate bits but the amount and the kind (R201). -/
theorem shiOk_eq_false {w : W64} (h : w.extractLsb' 5 21 ≠ 0) : shiOk (getI w) = false := by
  have himm : (getI w).imm.extractLsb' 5 21 = w.extractLsb' 5 21 := extractLsb'_fld w (by decide)
  rw [shiOk, himm, beq_eq_false_iff_ne.2 h, Bool.and_false]

theorem logicAndShiftWords : LogicAndShiftWords := by
  have bitwise := eq_false_of_typeOutside bitOk_parts
  have shift := eq_false_of_typeOutside shiftOk_parts
  exact ⟨opcodeReads_getW (fun _ => rfl) bitwise, opcodeReads_getW (fun _ => rfl) bitwise, opcodeReads_getW (fun _ => rfl) bitwise,
    opcodeReads_getW (fun _ => rfl) bitwise, opcodeReads_getW (fun _ => rfl) shift, opcodeReads_getW (fun _ => rfl) shift,
    opcodeReads_getW (fun _ => rfl) shift, opcodeReads_getW (fun _ => rfl) shift, opcodeReads_getI (fun _ => rfl) fun _ h => h.elim,
    opcodeReads_getI (fun _ => rfl) fun _ h => h.elim, opcodeReads_getI (fun _ => rfl) fun _ h => h.elim,
    opcodeReads_getI (fun _ => rfl) fun _ => shiOk_eq_false, opcodeReads_getV fun _ => rfl⟩

/-- Settles O3: the model's bitwise operations and shifts of numbers are those of words, element by element. -/
theorem logicAndShiftResults : Obligations.LogicAndShiftResults := ⟨bitwiseResults, shiftResults, logicAndShiftWords⟩

end Sys2Proof.Machine
end

section
/-! Bit fields and byte permutation (O4): BFX and BFI bit by bit, the counts and the reversal of BITOP, PERMB byte by byte, and the words that
are refused. -/

namespace Sys2Proof.Machine
open Sys2Proof Sys2Proof.Claims

/-! ### BFX and BFI (R203) -/

/-- Bit `i` of A, continued upwards by its sign where the type is i32, by zeros where it is n32. -/
def bfxSrc (ty : Nat) (a : W32) (i : Nat) : Bool := if ty = 0 then (if i < 32 then a.getLsbD i else a.msb) else a.getLsbD i

/-- A shifted down by `pos`, with its sign where the type is i32. -/
def bfxShift (ty : Nat) (a : W32) (pos : Nat) : W32 := if ty = 0 then a.sshiftRight pos else a >>> pos

theorem bfxShift_getLsbD (ty : Nat) (a : W32) (pos : Nat) {i : Nat} (hi : i < 32) :
    (bfxShift ty a pos).getLsbD i = bfxSrc ty a (pos + i) := by
  unfold bfxShift bfxSrc
  split
  · rw [BitVec.getLsbD_sshiftRight, decide_eq_false (Nat.not_le.2 hi), Bool.not_false, Bool.true_and]
  · rw [BitVec.getLsbD_ushiftRight]

theorem asInt_false (w b : Nat) : asInt false w b = b := by simp [asInt]

/-- BFX cuts `len` bits off the shifted word and extends them again, by sign or by zeros. -/
theorem bfxVal_eq (ty : Nat) (a : W32) (pos : Nat) {len : Nat} (h0 : len ≠ 0) (h32 : len ≤ 32) :
    bfxVal (ty == 0) a pos len = if ty = 0 then ((bfxShift ty a pos).setWidth len).signExtend 32
      else ((bfxShift ty a pos).setWidth len).setWidth 32 := by
  rw [bfxVal, if_neg h0]
  by_cases hty : ty = 0
  · have hdiv : a.toInt / ((2 ^ pos : Nat) : Int) = (a.sshiftRight pos).toInt := by
      rw [BitVec.toInt_sshiftRight, Int.shiftRight_eq_div_pow]
    have hcut : BitVec.ofInt len (a.sshiftRight pos).toInt = (a.sshiftRight pos).setWidth len :=
      BitVec.signExtend_eq_setWidth_of_le _ h32
    simp only [hty, bfxShift, beq_self_eq_true, if_true, hdiv, ← BitVec.toNat_ofInt, asInt_true_toNat, hcut]
    rfl
  · have hdiv : (a.toNat : Int) / ((2 ^ pos : Nat) : Int) = ((a >>> pos).toNat : Int) := by
      rw [BitVec.toNat_ushiftRight, Nat.shiftRight_eq_div_pow, Int.natCast_ediv]
    simp only [beq_eq_false_iff_ne.2 hty, hty, bfxShift, Bool.false_eq_true, if_false, hdiv, ← BitVec.toNat_ofInt, asInt_false,
      BitVec.ofInt_natCast, BitVec.ofNat_toNat]

/-- BFX bit by bit: the field, then its sign or zeros. -/
theorem bfxVal_getLsbD (ty : Nat) (a : W32) (pos : Nat) {len i : Nat} (h32 : len ≤ 32) (hi : i < 32) :
    (bfxVal (ty == 0) a pos len).getLsbD i = if len = 0 then false else if i < len then bfxSrc ty a (pos + i)
      else (ty = 0 && bfxSrc ty a (pos + len - 1)) := by
  by_cases h0 : len = 0
  · simp [bfxVal, h0]
  have hlast : len - 1 < len := by omega
  have hcut : ∀ j, j < len → ((bfxShift ty a pos).setWidth len).getLsbD j = bfxSrc ty a (pos + j) := fun j hj => by
    rw [BitVec.getLsbD_setWidth, decide_eq_true hj, Bool.true_and, bfxShift_getLsbD _ _ _ (Nat.lt_of_lt_of_le hj h32)]
  rw [bfxVal_eq ty a pos h0 h32, if_neg h0]
  by_cases hty : ty = 0
  · rw [if_pos hty, BitVec.getLsbD_signExtend, decide_eq_true hi, decide_eq_true hty, Bool.true_and, Bool.true_and]
    split
    next h => exact hcut i h
    next => rw [BitVec.msb_eq_getLsbD_last, hcut _ hlast, Nat.add_sub_assoc (by omega)]
  · rw [if_neg hty, BitVec.getLsbD_setWidth, decide_eq_true hi, decide_eq_false hty, Bool.true_and, Bool.false_and]
    split
    next h => exact hcut i h
    next h => exact BitVec.getLsbD_of_ge _ _ (Nat.not_lt.1 h)

/-- The mask of BFI: ones from `pos` on, `len` of them. -/
theorem fieldMask_getLsbD (pos len : Nat) {i : Nat} (hi : i < 32) :
    (BitVec.ofNat 32 ((2 ^ len - 1) * 2 ^ pos)).getLsbD i = decide (pos ≤ i ∧ i < pos + len) := by
  rw [BitVec.getLsbD_ofNat, Nat.testBit_mul_two_pow, Nat.testBit_two_pow_sub_one, decide_eq_true hi, Bool.true_and, ← Bool.decide_and]
  exact decide_eq_decide.2 (by omega)

theorem bfi_getLsbD (a b : W32) (pos len : Nat) {i : Nat} (hi : i < 32) :
    ((a &&& ~~~(BitVec.ofNat 32 ((2 ^ len - 1) * 2 ^ pos))) ||| ((b <<< pos) &&& BitVec.ofNat 32 ((2 ^ len - 1) * 2 ^ pos))).getLsbD i =
      if pos ≤ i ∧ i < pos + len then b.getLsbD (i - pos) else a.getLsbD i := by
  rw [BitVec.getLsbD_or, BitVec.getLsbD_and, BitVec.getLsbD_and, BitVec.getLsbD_not, fieldMask_getLsbD pos len hi, BitVec.getLsbD_shiftLeft,
    decide_eq_true hi]
  by_cases h : pos ≤ i ∧ i < pos + len
  · simp [h, Nat.not_lt.2 h.1]
  · simp [h]

/-! ### BITOP (R204) -/

theorem popcount_le (w n : Nat) : popcount w n ≤ w := by
  simpa [popcount] using List.length_filter_le (fun i => n.testBit i) (List.range w)

/-- The zeros that CLZ counts, and the one that ends them. -/
theorem leadZeros_spec {w n : Nat} (hn : n < 2 ^ w) : leadZeros w n ≤ w ∧
    (∀ i, w - leadZeros w n ≤ i → i < w → n.testBit i = false) ∧ (leadZeros w n < w → n.testBit (w - 1 - leadZeros w n) = true) := by
  by_cases h0 : n = 0
  · simp [leadZeros, h0]
  have hlog : n.log2 < w := (Nat.log2_lt h0).2 hn
  have hlz : leadZeros w n = w - 1 - n.log2 := if_neg h0
  refine ⟨by omega, fun i hi _ => ?_, fun _ => ?_⟩
  · exact Nat.testBit_lt_two_pow (Nat.lt_of_lt_of_le Nat.lt_log2_self (Nat.pow_le_pow_right (by decide) (by omega)))
  · rw [show w - 1 - leadZeros w n = n.log2 by omega]
    exact Nat.testBit_log2 h0

/-- The zeros that CTZ counts, and the one that ends them. -/
theorem trailZeros_spec (w n : Nat) : trailZeros w n ≤ w ∧ (∀ i, i < trailZeros w n → i < w → n.testBit i = false) ∧
    (trailZeros w n < w → n.testBit (trailZeros w n) = true) := by
  unfold trailZeros
  cases h : (List.range w).find? (fun i => n.testBit i) with
  | none =>
    have hall : ∀ i, i < w → n.testBit i = false := by simpa using h
    exact ⟨Nat.le_refl w, fun i _ hi => hall i hi, fun hlt => absurd hlt (Nat.lt_irrefl w)⟩
  | some k =>
    obtain ⟨hk, hmem, hbelow⟩ := List.find?_range_eq_some.1 h
    have hkw : k < w := List.mem_range.1 hmem
    exact ⟨Nat.le_of_lt hkw, fun i hi _ => by simpa using hbelow i hi, fun _ => hk⟩

/-- Reversing one bit more puts it below the others. -/
theorem bitReverse_succ (w n : Nat) : bitReverse (w + 1) n = 2 * bitReverse w n + (n.testBit w).toNat := by
  have hfold : ∀ m, m ≤ w → (List.range m).foldl (fun acc i => acc + if n.testBit i then 2 ^ (w - i) else 0) 0 =
      2 * (List.range m).foldl (fun acc i => acc + if n.testBit i then 2 ^ (w - 1 - i) else 0) 0 := by
    intro m
    induction m with
    | zero => intro _; rfl
    | succ m ih =>
      intro hm
      have hpow : 2 ^ (w - m) = 2 * 2 ^ (w - 1 - m) := by rw [← Nat.pow_succ']; congr 1; omega
      rw [List.range_succ, List.foldl_append, List.foldl_append, ih (by omega)]
      simp only [List.foldl_cons, List.foldl_nil, Nat.mul_add, hpow]
      split <;> rfl
  have hsum := hfold w (Nat.le_refl w)
  unfold bitReverse
  rw [List.range_succ, List.foldl_append]
  simp only [Nat.add_sub_cancel, hsum, List.foldl_cons, List.foldl_nil, Nat.sub_self, Nat.pow_zero]
  cases n.testBit w <;> rfl

/-- Bit `i` of the reversal is bit w - 1 - i (R204). -/
theorem testBit_bitReverse (n : Nat) : ∀ w i, (bitReverse w n).testBit i = (decide (i < w) && n.testBit (w - 1 - i)) := by
  intro w
  induction w with
  | zero => intro i; simp [bitReverse]
  | succ w ih =>
    intro i
    rw [bitReverse_succ]
    cases i with
    | zero => cases h : n.testBit w <;> simp [h, Nat.testBit_zero]
    | succ i =>
      have hhalf : (2 * bitReverse w n + (n.testBit w).toNat) / 2 = bitReverse w n := by
        have := (n.testBit w).toNat_lt
        omega
      rw [Nat.testBit_succ, hhalf, ih]
      congr 1
      · exact decide_eq_decide.2 (by omega)
      · congr 1; omega

/-- What BITOP leaves as a number, by its variant. -/
def bitopNum (var w n : Nat) : Nat :=
  match var with
  | 0 => popcount w n
  | 1 => leadZeros w n
  | 2 => trailZeros w n
  | _ => bitReverse w n

/-- The check of BITOP: b32 or n64, one of four variants, no SAT, no B. -/
theorem bitopOk_parts {f : WForm} (h : bitopOk f = true) : (f.ty = 2 ∨ f.ty = 9) ∧ f.var ≤ 3 ∧ f.sat = false ∧ f.b = 0 := by
  simp only [bitopOk, WForm.base1, Bool.and_eq_true, Bool.or_eq_true, beq_iff_eq, decide_eq_true_eq, Bool.not_eq_true'] at h
  obtain ⟨⟨⟨⟨⟨⟨-, hb⟩, -⟩, hty⟩, hvar⟩, hsat⟩, -⟩ := h
  exact ⟨hty, hvar, hsat, hb⟩

/-- What R204 says of the result `v` of BITOP on the low `w` bits of `x`. -/
def BitopResult (var w : Nat) (x v : W64) : Prop :=
  match var with
  | 0 => v.toNat = ((List.range w).filter (fun i => x.getLsbD i)).length
  | 1 => v.toNat ≤ w ∧ (∀ i, w - v.toNat ≤ i → i < w → x.getLsbD i = false) ∧ (v.toNat < w → x.getLsbD (w - 1 - v.toNat) = true)
  | 2 => v.toNat ≤ w ∧ (∀ i, i < v.toNat → x.getLsbD i = false) ∧ (v.toNat < w → x.getLsbD v.toNat = true)
  | _ => ∀ i, i < w → v.getLsbD i = x.getLsbD (w - 1 - i)

theorem bitopResult_bitopNum (var : Nat) {w : Nat} (hw : w ≤ 64) {x : W64} (hx : x.toNat < 2 ^ w) :
    BitopResult var w x (BitVec.ofNat 64 (bitopNum var w x.toNat)) := by
  have hsmall : ∀ c, c ≤ w → (BitVec.ofNat 64 c).toNat = c := fun c hc => by
    rw [BitVec.toNat_ofNat]; omega
  match var with
  | 0 => exact hsmall _ (popcount_le w x.toNat)
  | 1 =>
    have h := leadZeros_spec hx
    rw [BitopResult, bitopNum, hsmall _ h.1]
    exact h
  | 2 =>
    have h := trailZeros_spec w x.toNat
    rw [BitopResult, bitopNum, hsmall _ h.1]
    exact ⟨h.1, fun i hi => h.2.1 i hi (Nat.lt_of_lt_of_le hi h.1), h.2.2⟩
  | _ + 3 =>
    intro i hi
    change (BitVec.ofNat 64 (bitReverse w x.toNat)).getLsbD i = x.toNat.testBit (w - 1 - i)
    rw [BitVec.getLsbD_ofNat, decide_eq_true (Nat.lt_of_lt_of_le hi hw), testBit_bitReverse, decide_eq_true hi, Bool.true_and, Bool.true_and]

/-- BITOP gives its number: a count in one n32 register, the reversal in registers of A's width. -/
theorem exec_bitop_gives {f : WForm} {s : State} {t : Nat} (hr : Runs (.bitop f) (bitopSpec f) s t) {v : W64}
    (hv : v = BitVec.ofNat 64 (bitopNum f.var (if f.ty = 9 then 64 else 32) (((bitopSpec f).opnd s t 0).ofTy f.ty).toNat)) :
    exec (.bitop f) s = .next (s.gives t (if f.var = 3 ∧ f.ty = 9 then Res.pair f.d.toNat v 2
      else Res.one f.d.toNat (v.setWidth 32) (if f.var = 3 then 2 else 1))) := by
  obtain ⟨-, hvar, -, -⟩ := bitopOk_parts hr.1
  subst hv
  rw [exec_bitop, execBitop]
  refine alu_gives hr ?_
  simp only [OpSpec.exec1_op, BitVec.setWidth_ofNat_of_le (show 32 ≤ 64 by decide)]
  obtain h | h | h | h : f.var = 0 ∨ f.var = 1 ∨ f.var = 2 ∨ f.var = 3 := by omega
  · simp [h, bitopNum]
  · simp [h, bitopNum]
  · simp [h, bitopNum]
  · simp [h, bitopNum]

/-- The operand of BITOP has no bits above its width. -/
theorem bitop_operand_lt {ty : Nat} (hty : ty = 2 ∨ ty = 9) (a : Opnd) : (a.ofTy ty).toNat < 2 ^ (if ty = 9 then 64 else 32) := by
  obtain rfl | rfl := hty
  · rw [show a.ofTy 2 = a.lo.setWidth 64 from rfl, BitVec.toNat_setWidth_of_le (by decide)]
    exact a.lo.isLt
  · exact a.x.isLt

/-! ### PERMB (R205) -/

/-- A byte of PERMB's result, by the three parts of its selector. -/
theorem ofNat_permByte (a : W32) (sel : BitVec 4) :
    BitVec.ofNat 8 (permByte a sel.toNat) = if sel.getLsbD 2 then 0 else if sel.getLsbD 3 then
      (if (a.extractLsb' (8 * (sel.extractLsb' 0 2).toNat) 8).msb then 0xFF else 0) else a.extractLsb' (8 * (sel.extractLsb' 0 2).toNat) 8 := by
  have hlow : (sel.extractLsb' 0 2).toNat = sel.toNat % 4 := by simp
  have h2 : sel.getLsbD 2 = decide (sel.toNat / 4 % 2 = 1) := Nat.testBit_eq_decide_div_mod_eq
  have h3 : sel.getLsbD 3 = decide (sel.toNat / 8 % 2 = 1) := Nat.testBit_eq_decide_div_mod_eq
  rw [hlow, permByte, byteN_eq, h2, h3, BitVec.msb_eq_decide]
  generalize a.extractLsb' (8 * (sel.toNat % 4)) 8 = b
  simp only [decide_eq_true_eq]
  by_cases hz : sel.toNat / 4 % 2 = 1
  · simp [hz]
  by_cases hs : sel.toNat / 8 % 2 = 1
  · by_cases hb : 128 ≤ b.toNat <;> simp [hz, hs, hb]
  · have hs0 : sel.toNat / 8 % 2 = 0 := by omega
    simp [hz, hs0]

/-- Digits put together from the lowest on are a packing of elements. -/
theorem foldl_digits_eq {w b : Nat} (hb : b = 2 ^ w) {p : Nat → Nat} (hp : ∀ j, p j < b) (n : Nat) :
    (List.range n).foldl (fun acc j => acc + p j * b ^ j) 0 = packDigits w ((List.range n).map (fun j => (p j : Int))) := by
  subst hb
  induction n with
  | zero => rfl
  | succ n ih =>
    rw [List.range_succ, List.foldl_append, ih, List.map_append, List.map_singleton, packDigits_append_singleton, List.length_map,
      List.length_range, ← Int.natCast_emod, Int.toNat_natCast, Nat.mod_eq_of_lt (hp n), Nat.pow_mul]
    rfl

/-- Four bytes put together come apart again. -/
theorem extractLsb'_bytes {p : Nat → Nat} (hp : ∀ j, p j < 256) {k : Nat} (hk : k < 4) :
    (BitVec.ofNat 32 ((List.range 4).foldl (fun acc j => acc + p j * 256 ^ j) 0)).extractLsb' (8 * k) 8 = BitVec.ofNat 8 (p k) := by
  have hlt : packDigits 8 ((List.range 4).map (fun j => (p j : Int))) < 2 ^ 32 := packDigits_lt 8 _
  have hdigit := packDigits_digit 8 ((List.range 4).map (fun j => (p j : Int))) k (by simpa using hk)
  rw [List.getElem_map, List.getElem_range, ← Int.natCast_emod, Int.toNat_natCast] at hdigit
  apply BitVec.eq_of_toNat_eq
  rw [foldl_digits_eq (w := 8) (by decide) hp, BitVec.extractLsb'_toNat, BitVec.toNat_ofNat, BitVec.toNat_ofNat, Nat.mod_eq_of_lt hlt,
    Nat.shiftRight_eq_div_pow, hdigit]

theorem permByte_lt (a : W32) (sel : Nat) : permByte a sel < 256 := by
  have hb : byteN a (sel % 4) < 256 := Nat.mod_lt _ (by decide)
  unfold permByte
  dsimp only
  split
  · omega
  · split
    · exact hb
    · split <;> omega

/-- The selector of byte `k`: four bits of B. -/
theorem selector_eq (b : W32) (k : Nat) : b.toNat / 16 ^ k % 16 = (b.extractLsb' (4 * k) 4).toNat := by
  rw [BitVec.extractLsb'_toNat, Nat.shiftRight_eq_div_pow, Nat.pow_mul]

theorem bitFields : BitFields := by
  refine ⟨fun f s t hr => ?_, fun f s t hr => ?_, fun f s t hr => ?_, fun f s t hr => ?_⟩
  · exact ⟨_, (exec_bfx f s).trans (alu_gives hr rfl), fun i hi => bfxVal_getLsbD f.ty _ _ (Nat.min_le_left 32 _) hi⟩
  · exact ⟨_, (exec_bfi f s).trans (alu_gives hr rfl), fun i hi => bfi_getLsbD _ _ _ _ hi⟩
  · obtain ⟨hty, -, -, -⟩ := bitopOk_parts hr.1
    exact ⟨_, exec_bitop_gives hr rfl, bitopResult_bitopNum f.var (by split <;> decide) (bitop_operand_lt hty _)⟩
  · refine ⟨_, (exec_permb f s).trans (alu_gives hr rfl), fun k hk => ?_⟩
    rw [extractLsb'_bytes (fun _ => permByte_lt _ _) hk, selector_eq, ofNat_permByte]
    rfl

/-! ### The words (R203 to R205) -/

theorem bfxOk_parts (f : WForm) (h : bfxOk f = true) : f.ty ∈ [0, 1] ∧ f.var = 0 ∧ f.sat = false := by
  simp only [bfxOk, Bool.and_eq_true, Bool.or_eq_true, beq_iff_eq, Bool.not_eq_true'] at h
  obtain ⟨⟨⟨-, hty⟩, hvar⟩, hsat⟩ := h
  exact ⟨by simpa using hty, hvar, hsat⟩

theorem bfxOk_eq_false {w : W64} (h : 1 < (w.extractLsb' 6 4).toNat ∨ w.extractLsb' 2 4 ≠ 0 ∨ w.getLsbD 1 = true) : bfxOk (getW w) = false :=
  eq_false_of_typeOutside bfxOk_parts w (h.imp_left fun hty => by
    simp only [List.mem_cons, List.not_mem_nil, or_false]
    omega)

theorem bitopOk_eq_false {w : W64} (h : (w.extractLsb' 6 4 ≠ 2 ∧ w.extractLsb' 6 4 ≠ 9) ∨ 3 < (w.extractLsb' 2 4).toNat ∨
    w.getLsbD 1 = true ∨ w.extractLsb' 30 7 ≠ 0) : bitopOk (getW w) = false := by
  rw [← Bool.not_eq_true]
  intro hok
  obtain ⟨hty, hvar, hsat, hb⟩ := bitopOk_parts hok
  rw [ty_getW] at hty
  rw [var_getW] at hvar
  rw [sat_getW] at hsat
  obtain ⟨h2, h9⟩ | h | h | h := h
  · exact hty.elim (fun e => h2 (BitVec.eq_of_toNat_eq e)) (fun e => h9 (BitVec.eq_of_toNat_eq e))
  · exact absurd hvar (Nat.not_le.2 h)
  · exact absurd (h.symm.trans hsat) (by decide)
  · exact h hb

/-- PERMB has no function bits (R205). -/
theorem permbOk_eq_false {w : W64} (h : w.extractLsb' 0 10 ≠ 0) : permbOk (getW w) = false := by
  have hfn : ((getW w).fn == 0) = false := beq_eq_false_iff_ne.2 h
  rw [permbOk, hfn, Bool.and_false]

theorem bitFieldWords : BitFieldWords :=
  ⟨opcodeReads_getW (fun _ => rfl) fun _ => bfxOk_eq_false, opcodeReads_getV fun _ => rfl,
    opcodeReads_getW (fun _ => rfl) fun _ => bitopOk_eq_false, opcodeReads_getW (fun _ => rfl) fun _ => permbOk_eq_false⟩

/-- Settles O4: the fields that the model cuts and puts together as numbers have the stated bits and bytes. -/
theorem bitFieldResults : Obligations.BitFieldResults := ⟨bitFields, bitFieldWords⟩

end Sys2Proof.Machine
end
